-- ==== Sys2Proof/Word.lean ====
section
/-!
DEFINITION. The plain types of the model: a byte and a sparse table. Register values are natural numbers below
two to the power of the field's width, which the register operations of Machine/Ops.lean keep.
-/

namespace Sys2Proof

/-- One byte of memory. -/
abbrev Byte := BitVec 8

/-- A sparse table in canonical form: keys strictly rising, no entry equal to the default of its key. -/
abbrev Sparse (α : Type) := List (Nat × α)

end Sys2Proof
end

