-- ==== Sys2Proof/Syntax.lean ====
section
/-!
DEFINITION. The commands of the block: one constructor for each row of the table of operations and events, with the
values the row's rule takes from outside (a reading, a level, an edge's stamp, written data, bytes that arrive).
-/

namespace Sys2Proof

/-- Who makes a register access: the PF, VF n (1-256), the debug port (as client 0, R996), a control core of the
Armature, or the boot core. -/
inductive Master where
  | pf
  | vf (n : Nat)
  | dbg
  | armature
  | boot
deriving DecidableEq, Repr

/-- An SMBus Block Write: its payload from SEQ on, and whether its PEC matches (R976). -/
structure SmbReq where
  payload : List Nat
  pecOk : Bool
deriving DecidableEq, Repr

/-- How a host read ends (HIF.4): data, UR or CA, poisoned data, or a completion nothing waits for. -/
inductive CplKind where
  | data | failed | poisoned | unexpected
deriving DecidableEq, Repr

/-- What the ECC of a fetch found (R553, R554): nothing, `n` corrected errors, one that its second read corrects, or
an uncorrectable one at an offset. -/
inductive EccResult where
  | clean
  | corrected (offset : Nat)
  | retried (offset : Nat)
  | uncorrectable (offset : Nat)
deriving DecidableEq, Repr

/-- What the calibration service finds in sweeping a row (R457, R463): its curve (256 entries, raw 16 bits), the row
gain times 16384, and the rms deviation of its ring curves in millionths. -/
structure RowSweep where
  tile : Nat
  row : Nat
  curve : List Nat
  gain : Nat
  rms : Nat
deriving DecidableEq, Repr

/-- Link errors of HIF.6 that the PF logs. -/
inductive LinkErr where
  | receiver | badTlp | badDllp | replayTimeout | replayRollover
  | dataLink | flowControl | overflow | malformed
deriving DecidableEq, Repr

/-- The commands, in the order of the table. -/
inductive Instr where
  /-- R99: VAUX rises above 3.05 V, asserting the power-on source of a FULL reach. -/
  | vauxValid
  /-- R99: VAUX falls below 2.90 V, so every leg stops, the laser bias turns off and FULL reach begins. -/
  | vauxLoss
  /-- R97: VIN12 rises above 11.0 V and becomes valid. -/
  | vin12Valid
  /-- R98: VIN12 stays below 10.5 V for 5 µs after being valid, causing FULL reach and setting RST_CAUSE.BOR. -/
  | brownOut
  /-- R100: Two consecutive SA13 words exceed 72 A, which is handled as a rail fault of kind INPUT_OC. -/
  | inputOc
  /-- R109: A soft-starting rail reaches ±5 % of nominal, and the next rail of the sequence starts its ramp. -/
  | railRampDone (rail : Nat)
  /-- R110: A rail is not within ±5 % of nominal 3 ms after its ramp began, which is a rail fault of kind START. -/
  | start (rail : Nat)
  /-- R112: In the down sequence a rail falls below 10 % of nominal, and the next rail is turned off. -/
  | railDischargeDone (rail : Nat)
  /-- R123: A rail stays above 110 % of nominal for 1 µs, which is a rail fault of kind OV. -/
  | ov (rail : Nat)
  /-- R123: A rail that is up stays below 90 % of nominal for 10 µs, which is a rail fault of kind UV. -/
  | uv (rail : Nat)
  /-- R115: A leg's soft or hard current comparator turns it off for the rest of the cycle, making a faulted cycle; `cycle` numbers the leg's switching cycles from 1, `hard` tells which comparator acted. -/
  | legComparatorTrip (leg cycle : Nat) (hard : Bool)
  /-- R108: Within one cycle of an active leg latching off, the controller brings a parked leg of the rail into service. -/
  | legUnpark (rail leg : Nat)
  /-- R118: After re-balancing, the controller compares the rail capacity with the plan's peak budget and may set SHORTFALL and make a safe move pending. -/
  | capacityFinding (rail : Nat)
  /-- R122: Client 0 writes GO to release one latched leg, which returns at the next seam. -/
  | pwrLegRelease (value : Nat)
  /-- R137: A write to PWR_CAP sets the power cap for later admissions, unless the value is out of range or the field is locked. -/
  | pwrCapWrite (m : Master) (value : Nat)
  /-- R135: At the end of each 1 ms window, the power telemetry updates and an overrun window is counted and alerted; averages of the window in the units of PWR.6, `energy` in microjoule. -/
  | powerTelemetryWindow (mv cur power energy : Nat) (rails : List (Nat × Nat))
  /-- R128: The SMBus RAIL_RETRY command clears a latched rail fault, releases its legs, releases nFAULT and starts the up sequence. -/
  | railRetry (req : SmbReq)
  /-- R128: The up sequence that RAIL_RETRY started ends with every rail in regulation, and the REG_FAULT source is released. -/
  | railRetryUpDone
  /-- R152: A level change on nRST_IN that has held for T_f is recognised, asserting or releasing the PIN source. -/
  | nrstInRecognised (high : Bool)
  /-- R146: A filtered PERST_N level change is recognised, asserting a WARM or DEVICE source or releasing it, and gating PCIe training. -/
  | perstNRecognised (high : Bool)
  /-- R151: Client 0 writes RST_HOST_CMD with key 0xA5 and REACH WARM, asserting a WARM source. -/
  | hostResetWarm (value : Nat)
  /-- R151: Client 0 writes RST_HOST_CMD with key 0xA5 and REACH DEVICE, asserting a DEVICE source. -/
  | hostResetDevice (value : Nat)
  /-- R149: A PCIe hot reset causes a BLOCK reach of HIF, or a WARM source when HOT_WARM is set. -/
  | pcieHotReset
  /-- R148: The data link layer leaves DL_Active, causing a BLOCK reach of HIF, or a WARM source when LDN_WARM is set. -/
  | pcieLinkDown
  /-- R195: The 500 ms boot watchdog expires, asserting the WDOG_BOOT source of a DEVICE reach. -/
  | bootWatchdogExpiry
  /-- R198: A firmware watchdog period ends with a control core unreported, asserting the WDOG_FW source of a WARM reach. -/
  | fwWatchdogExpiry (core : Nat)
  /-- R157: The hold of the episode ends at H, and the exit sequence of the episode reach starts. -/
  | episodeHoldEnd
  /-- R185: The OTP state machine reads the eight option slots, selects the valid generation with the highest GEN and loads it. -/
  | otpSelect
  /-- R180: The straps are sampled and REFCLK is measured for 100 µs, after which the exit sequence goes on or halts; `freq` is the measured REFCLK frequency in units of 0.1 Hz, 0 for none. -/
  | strapStep (bootSrc clkMode freq : Nat)
  /-- R181: After a failed strap step, the strap step is repeated every 10 ms until one passes. -/
  | strapRetry (bootSrc clkMode freq : Nat)
  /-- R182: REFCLK is lost, either with no edge for 1 µs or with a measurement outside ±1.5 %, which stops planned work or returns the exit sequence to its strap step. -/
  | refclkLoss
  /-- R193: The boot ROM starts at its time in the exit sequence, starts the boot watchdog, chooses a slot or enters WAIT_HOST, and checks the boot stage. -/
  | bootRomStart (sfdpOk : Bool)
  /-- R162: The boot ROM hands over, so the episode ends, nRST_OUT is released, RST_EPISODE is updated and PCIe may train. -/
  | episodeEnd
  /-- R218: The signed boot stage checks the manifest, writes the protection set-up, loads and verifies the firmware, starts the control cores and sets BTP_SEAL; `burnOk` is how many fuses burn before one stays unburned. -/
  | bootStageRun (burnOk : Nat)
  /-- R254: Firmware becomes ready, CRS ends, SMBus accepts every command and the start-up timeline begins; `ms` is the time from the origin of the start. -/
  | fwReady (ms : Nat)
  /-- R231: After a fallback boot, firmware writes a CONFIRMED activation record for the slot that booted. -/
  | fallbackRecordWrite (readBack : Bool)
  /-- R232: With AUTO_CONFIRM set, firmware carries out FW_CONFIRM after READY has held for 10 s in a trial boot. -/
  | autoConfirm (readBack : Bool)
  /-- R203: A write of BTP_RCV_CTL.GO in WAIT_HOST starts reading the recovery bundle from host memory. -/
  | recoveryGo
  /-- R203: The recovery bundle has been read and checked, and the boot ROM then sets DONE and boots from it, or sets ERR and waits. -/
  | recoveryBundleChecked (bundle : List Nat)
  /-- R141: A Function Level Reset of VF n clears the client's set-up, discards its fetched commands and stops its requests. -/
  | functionReach (vf : Nat)
  /-- R144: A FUNCTION reach ends, no later than 10 ms after the last FLR. -/
  | functionReachEnd (vf : Nat)
  /-- R168: A write of RST_BLK_CTL.GO requests a reset of one block, which is refused or enters reset in its mode. -/
  | blockResetGo (m : Master) (value : Nat)
  /-- R170: In IDLE_REQUESTED mode the block has no work in flight, so it enters reset; `hot` names the block reach of R1010. -/
  | blockIdleReached (hot : Bool)
  /-- R171: The block is not idle TO_US after the request, so it is reset anyway, its transactions complete with an error and FORCED is set. -/
  | blockIdleTimeout (hot : Bool) (inFlight : Nat)
  /-- R172: After 256 beats in reset the block leaves reset, BUSY clears and DONE sets. -/
  | blockResetEnd (hot : Bool)
  /-- R263: The laser bias ramp ends, the lines are checked at M0, missing lines are replaced, and ring lock begins. -/
  | opticalLaserRampEnd (missing : List (Nat × Nat)) (engineDead : List Nat)
  /-- R264: Every ring is locked or its deadline has passed, unlocked rings become ring faults, and quick calibration begins. -/
  | ringLockEnd (unlocked : List (Nat × Nat))
  /-- R261: A quick calibration pass of 11 ms ends, having written the curves of 16 rows of every tile. -/
  | quickCalPass (sweeps : List RowSweep)
  /-- R239: READY sets once FW_READY, Tier 1 training and quick calibration all hold. -/
  | readySet (ms : Nat)
  /-- R548: Tier 1 training ends, and T1_TRAINED is set or a stack is reported failed. -/
  | tier1Trained (failed : Nat)
  /-- R547: Tier 2 training ends on every channel, each being marked active, failed or absent, and T2_DONE is set; capacity of each channel in GiB, 0 absent, none failed. -/
  | tier2Trained (sizes : List (Option Nat))
  /-- R250: The Cadence unit starts acquiring 10 ms after an episode ends, or at the end of a CAD block reset. -/
  | cadAcquireStart
  /-- R274: An accepted edge of CAD_A or CAD_B is decoded as a forward or reverse count, or as an illegal transition. -/
  | encoderEdge (pinB forward : Bool) (stamp : Nat)
  /-- R279: An accepted CAD_Z index sets or corrects the position and cycle count, or is ignored as out of window. -/
  | encoderIndex
  /-- R277: A 250-beat rate window ends with more than MAXRATE counts, so RATE_ERR rises and the encoder loses phase-valid. -/
  | rateWindowEnd
  /-- R281: A timing frame is received and checked, then discarded or applied to the phase word, possibly as a jump. -/
  | tframeReceived (codeOk : Bool) (chars : List Nat)
  /-- R283: No good timing frame arrives for TO_US, so TF_MISS rises and the timing-frame source loses phase-valid. -/
  | tframeTimeout
  /-- R285: An accepted CAD_P pulse sets a cycle boundary, or is ignored as shorter than PMIN. -/
  | pulseEdge
  /-- R288: An accepted rising edge of SETP_P updates the measured setpoint period. -/
  | setpEdge (stamp : Nat)
  /-- R289: An accepted SYNC_IN edge of the selected kind is logged with the phase word. -/
  | syncInEdge (rising : Bool)
  /-- R290: The phase word is updated for the beat and motion-state and high-water changes are applied. -/
  | phaseBeat
  /-- R302: No step of the selected source arrives for CAD_STALL_TO, so the state becomes STALLED, windows close TRUNCATED and HOLD_TIMING is entered. -/
  | motionStall
  /-- R301: A write of CAD_CTL.HWM_SET sets the high-water mark to the phase word of the next beat. -/
  | hwmSet (m : Master) (value : Nat)
  /-- R321: A FRAME_START action makes a frame start due, beginning it at once or holding it. -/
  | frameStartRow (row : Nat)
  /-- R327: A WIN_OPEN action opens a capture window on each named stream, unless the motion state is not FORWARD. -/
  | winOpen (row : Nat)
  /-- R327: A WIN_CLOSE action closes the window on each named stream, which then enters its grace. -/
  | winClose (row : Nat)
  /-- R860: A LOOP_SAMPLE action takes a loop sample, or ends HOLD_TIMING, or is skipped as early or held. -/
  | loopSample (row : Nat)
  /-- R770: A DEC_STROBE action pulses each named PHASE line that holds a value of 1, consuming the held value. -/
  | decStrobe (row : Nat)
  /-- R334: A PLAN_ARM action gates an armed phase-gated plan to take effect at the next frame boundary. -/
  | planArmRow (row : Nat)
  /-- R841: A SAD_SYNC action syncs each named Sensing ADC channel or pair. -/
  | sadSync (row : Nat)
  /-- R331: In HOLD_TIMING, a held loop sample is made every H beats after the last LOOP_SAMPLE firing. -/
  | heldLoopSample
  /-- R324: No frame start is due TOL beats after a frame ends, so the next frame begins on the internal timer as UNANCHORED. -/
  | unanchoredFrameStart
  /-- R322: A frame begins, and at this boundary a plan may take effect, a forced cool move may be made, and LAU evaluation, commits and table changes may apply. -/
  | frameBoundary
  /-- R374: At the end of a frame, its status and the validity of the DECIDE inputs are handed to the trigger service. -/
  | frameEnd
  /-- R360: A seam begins, the pipeline drains, and the shadow weight registers fill through the post-remap mapping; `bad`: the physical tiles, as a mask, in whose buffer the drain finds an uncorrectable error.. -/
  | seamDrain (bad : Nat)
  /-- R421: In the weight-swap beats of a seam, every tile copies its shadow weight registers into the active DAC registers. -/
  | weightSwap
  /-- R486: At the remap beat, channel map changes, modulator takeovers, permanent-spare jumps, rotation advances and RECAL_ROW jumps are applied. -/
  | remapBeat
  /-- R369: A fetch engine issues a FETCH item into a free buffer slot. -/
  | fetchItem (item : Nat)
  /-- R370: A FETCH's last byte reaches its destination, and the token is valid or invalid by its timing and ECC. -/
  | fetchDataArrived (item : Nat) (ecc : EccResult)
  /-- R565: A STORE item writes its token to memory, poisoning the written granules if the token is invalid. -/
  | storeItem (item : Nat)
  /-- R440: A TILE item sends its vectors through a tile's weights and writes the converter codes. -/
  | tileItem (item : Nat)
  /-- R580: A DMU item computes a matrix product with chunked exact sums. -/
  | dmuItem (item : Nat)
  /-- R584: A vector-unit item performs CONVERT, ADD, TILE_ACC, ESC_FIX or ACT over its elements. -/
  | vuItem (item : Nat)
  /-- R511: A SCAN item finds the block shifts of a tensor and writes its scale token. -/
  | scanItem (item : Nat)
  /-- R514: A QUANT item rounds, clips and escapes a tensor into its quantised token. -/
  | quantItem (item : Nat)
  /-- R763: A DECIDE item turns the scores into trigger bits, prescaled passes and line values, forming a decision record. -/
  | decideItem (item : Nat)
  /-- R781: A BUILD item copies raw-ring records of the queued set into the AET send queue and hands over completed events. -/
  | buildItem (item : Nat)
  /-- R769: At beat LAT_DEC of the decision frame, the FRAME lines are strobed, accepted sets are queued and DECISION datagrams go to the peers. -/
  | decisionBeat
  /-- R769: A DEC pulse ends after PULSE beats, and the line returns to idle. -/
  | decPulseEnd (line : Nat)
  /-- R358: The first HOUSEKEEPING slot of a frame runs its calibration reserve, its doorbell reads, its completion-and-interrupt item and then its steps. -/
  | housekeepingSlot
  /-- R637: A doorbell record has arrived and waits to be acted on. -/
  | doorbellRecordArrived (client : Nat) (bytes : List Nat)
  /-- R643: A fetched descriptor arrives and becomes ready, or is completed MALFORMED and halts its ring. -/
  | descriptorArrived (client ring : Nat) (bytes : List Nat)
  /-- R616: A completion for a host read arrives, delivering data or failing the command, or is discarded as unexpected. -/
  | hostCompletionArrived (client ring : Nat) (kind : CplKind) (bytes : List Nat)
  /-- R616: A host request times out, so the command completes TIMEOUT and the error is logged in AER. -/
  | completionTimeout (client ring : Nat)
  /-- R673: The NOP command completes without using a step. -/
  | nop (client ring : Nat)
  /-- R672: The FENCE command orders a client's commands across its rings by sequence number. -/
  | fence (client ring : Nat)
  /-- R656: The LOAD_TENSOR command copies data from host memory into device memory in HDMA steps. -/
  | loadTensor (client ring : Nat)
  /-- R656: The STORE_TENSOR command copies device memory to host memory in HDMA steps. -/
  | storeTensor (client ring : Nat)
  /-- R655: A transfer step of n beats moves up to 256 × (n − 8) bytes for a data-moving command. -/
  | tensorTransferStep (client ring beats : Nat)
  /-- R663: The RUN_SECTION command reads, checks and runs a client section RUNS times in the client's slots. -/
  | runSection (client ring : Nat)
  /-- R664: One run of a client section executes as one step of SPAN beats in a fitting CLIENT slot. -/
  | sectionRun (client ring : Nat) (host : List (List Nat))
  /-- R931: The TRAIN_STEP command runs one optimiser update over up to 16 groups, then stages, commits or discards it. -/
  | trainStep (client ring : Nat)
  /-- R933: The check step validates each group's Tier 1 state against its forward section. -/
  | trainCheckStep (client ring : Nat)
  /-- R934: An initialise step rebuilds a group's state from the forward section codes. -/
  | trainInitStep (client ring : Nat)
  /-- R936: A gradient run step runs the client section once and accumulates the GRAD tokens into A. -/
  | trainRunStep (client ring : Nat) (host : List (List Nat))
  /-- R945: An update step computes the optimiser update, applies the guard and writes the new codes into S. -/
  | trainUpdateStep (client ring : Nat)
  /-- R950: The commit step writes S and its transposes into the tile buffer, so the new weights load at the next seam. -/
  | trainCommitStep (client ring : Nat)
  /-- R922: The SOLVE_QP command runs a client QP solve in the client's slots and writes the statistics and the solution. -/
  | solveQp (client ring : Nat)
  /-- R896: The READ_TRACE command writes the selected trace channels and the stamp column to host memory. -/
  | readTrace (client ring : Nat)
  /-- R658: The READ_STATS command writes a one-instant capture of the client's page counters or of a register block to host memory. -/
  | readStats (client ring : Nat)
  /-- R492: The CAL_REQUEST command of kind READ_CURVES copies one tile's 257 curves and row records to host memory. -/
  | readCurves (client ring : Nat)
  /-- R490: The CAL_REQUEST command of kind READ_MONITORS writes one tile's M0–M4 readings and references to host memory. -/
  | readMonitors (client ring : Nat)
  /-- R491: The CAL_REQUEST command of kind RECAL_ROW makes a physical row the out-of-service row at the next remap beat. -/
  | recalRow (client ring : Nat)
  /-- R661: The TABLE_WRITE command replaces one table row, which takes effect at the next frame boundary. -/
  | tableWrite (client ring : Nat)
  /-- R382: The PLAN_STAGE command empties the standby halves, copies a Maquette image into them and runs admission. -/
  | planStage (ring : Nat)
  /-- R375: A PLAN_STAGE step copies 64 KiB of the image or runs one step of the admission checks. -/
  | planStageStep (ring : Nat) (bytes : List Nat)
  /-- R384: The PLAN_ARM command re-checks and arms the main plan of the standby or active Maquette, pending until its boundary. -/
  | planArm (ring : Nat)
  /-- R227: The FW_CHUNK command erases, programs and reads back one chunk of a flash target. -/
  | fwChunk (ring : Nat)
  /-- R205: The FW_VERIFY command checks a flash target's headers, keys and SVN, and sets its VERIFIED bit. -/
  | fwVerify (ring : Nat)
  /-- R223: The FW_ACTIVATE command writes a new activation record naming a slot or a manifest copy. -/
  | fwActivate (ring : Nat)
  /-- R235: The FW_CONFIRM command writes a CONFIRMED record for the running slot and burns the SVN fuses. -/
  | fwConfirm (ring : Nat)
  /-- R398: An update command step issues or polls one flash operation or hashes 64 KiB. -/
  | flashOpStep (ok : Bool)
  /-- R234: A fuse step burns one anti-rollback fuse, reads it back and pulses it again up to three times; the pulse after which the fuse reads burned, 0 when it stays unburned. -/
  | fuseBurnStep (pulses : Nat)
  /-- R190: The OTP_OPTION_WRITE command checks a new option block and burns it into the lowest blank slot. -/
  | otpOptionWrite (ring : Nat)
  /-- R398: An option-write step burns and reads back eight fuses; bit numbers of the step's eight fuses that stay unburned. -/
  | otpBurnStep (stuck : List Nat)
  /-- R627: A write of RNG_CTL.EN = 1 enables doorbell reads if the record lies within the window and use range. -/
  | rngCtlEnable (client value : Nat)
  /-- R628: A write of CPL_CFGq.EN = 1 enables a completion ring if its set-up is valid. -/
  | cplRingEnable (client q value : Nat)
  /-- R629: A write of RING_CTLs.EN = 1 enables a submission ring in RUN if its set-up is valid. -/
  | ringEnable (client s value : Nat)
  /-- R631: A write of EN = 0 to a submission ring stops it and makes it OFF. -/
  | ringDisable (client s value : Nat)
  /-- R679: A write of RESUME returns a HALTED or STOPPED ring to RUN, with or without skipping the halted entry. -/
  | ringResume (client s value : Nat)
  /-- R680: A write of STOP sets the ring STOPPING and aborts its running and fetched commands. -/
  | ringStop (client s value : Nat)
  /-- R614: A write of HIF_USE_CTL.EN enables or disables the client's use range. -/
  | useRangeEnable (client value : Nat)
  /-- R597: Setting VF Enable enables VFs 1 to NumVFs. -/
  | vfEnableSet (numVfs : Nat)
  /-- R597: 100 ms after VF Enable is set, the VFs answer configuration requests and may be polled. -/
  | vfReady
  /-- R598: Clearing VF Enable applies a FUNCTION reach to every enabled VF. -/
  | vfEnableClear
  /-- R611: A change of a function's Bus Master Enable holds or resumes the client's host accesses. -/
  | busMasterEnableChange (fn : Nat) (on : Bool)
  /-- R623: The PF moves to D3hot or back to D0, stopping or resuming all client requests. -/
  | pfPowerStateChange (d3hot : Bool)
  /-- R245: The PCIe link reaches DL_Active, and configuration requests get CRS until FW_READY. -/
  | pcieLinkUp (speed width : Nat)
  /-- R603: An IO, AtomicOp or locked request, or a memory request to a disabled or unmatched BAR, is answered with Unsupported Request. -/
  | unsupportedRequest (fn : Nat) (hdr : List Nat)
  /-- R625: A link error such as a malformed TLP is received, discarded and logged through AER. -/
  | tlpErrorReceived (err : LinkErr) (hdr : List Nat)
  /-- R605: A vector becomes unmasked with a pending bit set, so its message is sent in the next HOUSEKEEPING slot. -/
  | msixUnmask (fn vec : Nat)
  /-- R698: A stream or AET port completes link training or lane-direct lock and comes up. -/
  | streamPortLinkUp (aet : Bool) (port : Nat)
  /-- R698: A port goes down, LINK_DOWN rises, and it retries without limit. -/
  | streamPortLinkDown (aet : Bool) (port : Nat)
  /-- R701: A detector frame arrives and is checked in order, then discarded or written as a FRAGMENT with its hits queued; `linkOk`: its FCS is right, or no block of it lies in an uncorrectable codeword; `first` the beat of its first byte; `fill` the bytes that wait in its die's ingress buffer; the frame from its destination address to before its FCS, or on a DIRECT port its blocks, each the sync header and eight bytes.. -/
  | streamFrameArrived (port : Nat) (linkOk : Bool) (first fill : Nat) (frame : List Nat)
  /-- R705: Up to 64 hits per beat per die are extracted and passed to the coincidence stage. -/
  | hitExtraction (die count : Nat)
  /-- R706: A hit not extracted within 256 beats of its frame is dropped and counted as HIT_OVF. -/
  | hitExtractTimeout (die : Nat)
  /-- R710: TIMEOUT beats pass in an open window without a frame, so the TIMEOUT fault is set. -/
  | streamWindowTimeout (stream : Nat)
  /-- R715: A window's grace ends, its status becomes final and its CLOSE record is written. -/
  | windowFinal (stream : Nat)
  /-- R730: A feature set completes 288 beats after its last window became final, and its tensor is written. -/
  | featureSetComplete
  /-- R752: A write of LAU_CTL.FREEZE = 1 freezes learning at the next boundary. -/
  | lauFreeze (m : Master) (value : Nat)
  /-- R752: A write of FREEZE = 0 clears FROZEN and AUTO at the next boundary. -/
  | lauUnfreeze (m : Master) (value : Nat)
  /-- R752: A write of ROLLBACK copies the checkpoint to the live values and freezes at the next boundary. -/
  | lauRollback (m : Master) (value : Nat)
  /-- R752: A write of REBASE restores the baseline to the live values and the checkpoint, clears the traces and freezes. -/
  | lauRebase (m : Master) (value : Nat)
  /-- R752: A write of CKPT copies the live values to the checkpoint at the next boundary. -/
  | lauCkpt (m : Master) (value : Nat)
  /-- R451: A 1 µs lock-in visit ends, the heater is corrected, and three out-of-window visits make the ring lock-lost. -/
  | lockinVisitEnd (tile index : Nat) (inWindow atEnd : Bool)
  /-- R457: The 1.5 ms sweep of the out-of-service row ends, and its curve, trims and gain are computed and checked. -/
  | sweepEnd (sweep : RowSweep)
  /-- R409: The M0 monitors are sampled, a line below 2.0 mW is flagged lost and a spare line is assigned. -/
  | m0Sample (engine : Nat) (powers : List Nat)
  /-- R468: M1–M4 are sampled every 2,500 beats, and low ratios give LOSS_WARN or a fault. -/
  | monitorSample (tile : Nat) (readings : List Nat)
  /-- R411: A light engine's bias regulator stays in current limit for 1 ms, so the engine is marked failed. -/
  | engineBiasLimit (engine : Nat)
  /-- R549: A Tier 1 stack refreshes in its fixed pattern, stalling a bank for up to 88 beats. -/
  | tier1Refresh (stack beats : Nat)
  /-- R550: A Tier 2 channel refreshes every 1.95 µs, stalling for up to 103 beats. -/
  | tier2Refresh (channel beats : Nat)
  /-- R1009: Every 2^25 beats, a channel runs ZQ calibration, ECC write-backs and patrol scrubbing. -/
  | tier2MaintenanceWindow (channel : Nat)
  /-- R557: ALERT_N reports command errors that a retry does not clear, so the channel is marked failed. -/
  | dimmAlert (channel : Nat)
  /-- R799: An event's copy into Tier 2 retention ends, and its send-queue space is freed. -/
  | retentionCopyDone (path : Nat)
  /-- R804: At a path's transmit opportunity, at most one HELLO, retransmission or new segment is sent. -/
  | pathTxOpportunity (path : Nat)
  /-- R807: An ACK for an OPEN path raises CUM, keeps the SACK bitmap and WIN, and frees retention. -/
  | ackReceived (port : Nat) (frame : List Nat)
  /-- R802: A HELLO_ACK opens the path or serves as a window-probe answer. -/
  | helloAckReceived (port : Nat) (frame : List Nat)
  /-- R817: A DECISION datagram from a RECV peer is written to the peer area. -/
  | decisionReceived (port : Nat) (frame : List Nat)
  /-- R793: A received frame that is not a valid AET datagram for the port is discarded and counted. -/
  | aetFrameDiscard (port : Nat) (frame : List Nat)
  /-- R806: A path's retransmission timeout passes without an advance of CUM, so RTO doubles and repeated timeouts re-enter HELLO. -/
  | rtoExpiry (path : Nat)
  /-- R809: An event retained for GIVEUP_MS is released with earlier events, and the path re-enters HELLO. -/
  | giveupExpiry (path : Nat)
  /-- R794: A received PFC frame pauses or resumes the port's transmit opportunities. -/
  | pfcReceived (port : Nat) (frame : List Nat)
  /-- R794: The receive buffer crosses three-quarters or one-quarter full, so PFC XOFF or XON is transmitted. -/
  | aetRxBufferLevel (port : Nat) (high : Bool)
  /-- R830: A converter word is corrected and delivered, or discarded after a sync, and a burst may end. -/
  | sadWordDelivery (ch : Nat) (raw : Int) (ovr : Bool)
  /-- R839: With no plan active, client 0 writes SAD_SYNC to sync the named channels at the next beat. -/
  | sadSyncWrite (m : Master) (value : Nat)
  /-- R839: With no plan active, client 0 writes SAD_CHn_CFG, which syncs the channel or pair. -/
  | sadCfgWrite (m : Master) (ch value : Nat)
  /-- R847: Client 0 writes SAD_URG to request urgent bursts. -/
  | sadUrgWrite (m : Master) (value : Nat)
  /-- R848: An urgent request starts a burst on an idle BURST channel, or is dropped or ignored. -/
  | urgentRequestAct (ch : Nat)
  /-- R859: A TIMER loop samples every P beats and computes or holds its output. -/
  | loopTimerSample
  /-- R862: A sample's output is applied at s + P + 30, driving SPI, PWM and DRV_EN, and writing the trace. -/
  | loopOutputBeat
  /-- R888: DRV_FAULT_N low for 25 beats drives DRV_EN low and forces SAFE_OUT. -/
  | driveFault
  /-- R875: A write of LPE_CTL.SWAP requests a bank swap at the next sample. -/
  | swap (m : Master) (value : Nat)
  /-- R887: A write of LPE_CTL.CLEAR_TRIP ends a trip, and a drive fault if DRV_FAULT_N is high. -/
  | clearTrip (m : Master) (value : Nat) (faultHigh : Bool)
  /-- R874: A host write to a loop bank is accepted for the inactive bank or discarded with BANK_REF. -/
  | lpeBankWrite (m : Master) (bank word value : Nat)
  /-- R895: A write of LPE_TRC_CTL.ARM empties the trace and starts capture, or is refused during a read. -/
  | traceArm (m : Master) (value : Nat)
  /-- R880: A loop QP solve starts 8 beats after its sample, warm or cold, or is refused as busy. -/
  | qpSolveStart
  /-- R911: A solver iteration ends, and a non-finite iterate stops the solve with OVERFLOW. -/
  | qpIterationEnd
  /-- R913: At S + SOLVE_BEATS, the solve delivers its move or OVERFLOW and writes its statistics record. -/
  | qpDelivery
  /-- R962: The thermal supervisor samples the sensors, forms T and updates the WARN, HOT and TRIP flags. -/
  | thermalSample (readings : List (Option Int)) (ref14 ref15 : Int)
  /-- R970: A control core's heartbeat does not advance for 10 ms, so a SERVICE entry is written. -/
  | heartbeatTimeout (core : Nat)
  /-- R984: The SMBus STATUS command returns the 16-byte status record. -/
  | status (req : SmbReq)
  /-- R984: The SMBus TELEMETRY command returns the 24-byte telemetry record. -/
  | telemetry (req : SmbReq)
  /-- R974: The SMBus SENSORS command returns one page of sensor readings. -/
  | sensors (req : SmbReq)
  /-- R974: The SMBus ERRLOG command returns one error-summary entry. -/
  | errlog (req : SmbReq)
  /-- R981: The SMBus ERRCLR command writes its mask to RAS_SUM. -/
  | errclr (req : SmbReq)
  /-- R999: The SMBus IDENTITY command returns the serial number, variant, stepping, SVNs and PLAN_ID. -/
  | identity (req : SmbReq)
  /-- R985: The SMBus ALERT_MASK command sets MGT_ALERT_MASK and returns the previous mask. -/
  | alertMask (req : SmbReq)
  /-- R982: The SMBus RESET_DEVICE command with key 0xA5 schedules the MGMT_CMD reset source. -/
  | resetDevice (req : SmbReq)
  /-- R982: 1 ms after an accepted RESET_DEVICE, the MGMT_CMD source of a DEVICE reach asserts. -/
  | mgmtResetAssert
  /-- R977: A REPLY block read returns the status and data of the last request, or its cached reply. -/
  | reply
  /-- R986: A read of the Alert Response Address returns 0x4A and releases SMB_ALERT_N. -/
  | alertResponse
  /-- R980: SMB_SCL held low for 35 ms resets the SMBus interface. -/
  | smbusTimeout
  /-- R987: TRST_N low puts the TAP in Test-Logic-Reset with IDCODE selected. -/
  | tapReset
  /-- R989: Loading EXTEST, CLAMP or HIGHZ hands the south-region signals to the boundary register, or loads BYPASS while a plan is active. -/
  | boundaryScanInstruction (code cells : Nat)
  /-- R991: Selecting DBG_CHAL draws a fresh nonce and presents the 48-byte challenge. -/
  | dbgChal
  /-- R992: Update-DR of DBG_RESP checks a signed response and unlocks a debug scope, or counts a failure. -/
  | dbgResp (bytes : List Nat)
  /-- R996: Update-DR of DBG_MEM makes one 32-bit PF BAR0 access as client 0. -/
  | dbgMem (update : Nat)
  /-- R998: With CORE scope, DBG_CORE halts a named control core. -/
  | dbgCoreHalt (update : Nat)
  /-- R998: With CORE scope, DBG_CORE resumes a halted control core. -/
  | dbgCoreResume (update : Nat)
  /-- R15: Writing 1 to a block's SNAP register captures its register group into shadows at one instant. -/
  | blockSnap (m : Master) (addr value : Nat)
  /-- R969: A write of 1 to a W1C bit clears it unless its source or event still sets it in that beat. -/
  | w1cWrite (m : Master) (addr value : Nat)
  /-- R10: A host or Armature write to a register with no row of its own is applied or discarded by its access code and checks. -/
  | registerWrite (m : Master) (addr size value : Nat)
  /-- R11: A host, DBG_MEM or Armature read of a register is served, latching the _HI shadow on a _LO read and recording an access error on an unsupported size or alignment. -/
  | registerRead (m : Master) (addr size : Nat)
  /-- R64: No later than 2 ms after VAUX becomes valid, the internal 1.8 V LVDS regulator is in regulation and DEC0–DEC7 go from high impedance to idle. -/
  | lvdsRegulatorInRegulation
  /-- R20: I/O die 1 finishes its start-up checks, and on failure the Sheir runs as a single-I/O-die device and reports the die failed. -/
  | ioDieStartChecks (passed : Bool)
  /-- R971: An uncorrectable error is found in the plan store, leading to HALTED for the active half or to the loss of the standby Maquette. -/
  | planStoreUncorrectableError (standby : Bool)
  /-- R973: An uncorrectable error in a control core's memory halts that core and writes a UE_INTERNAL entry. -/
  | controlCoreMemoryUe (core : Nat)
  /-- R989: An Update-IR that loads an instruction other than EXTEST, CLAMP or HIGHZ ends boundary-scan control and returns the functional outputs. -/
  | updateIr (code : Nat)
deriving DecidableEq, Repr

end Sys2Proof
end

