-- ==== Sys2Proof/Decode.lean ====
section
/-!
DEFINITION. The commands that words spell by the table's bits. The table gives no row any bits: a command reaches the
block as an event, never as a word.
-/

namespace Sys2Proof

/-- The command that a word spells; no row of the table has bits, so no word spells one. -/
def decodeTableWord (_nbits _w : Nat) : Option Instr := none

end Sys2Proof
end

