-- ==== Sys2Proof/Config.lean ====
section
/-!
DEFINITION. What the spec leaves to the outside world or leaves open. None of these has a body: nothing can be proved
of their values, and a statement holds whatever they are.
-/

namespace Sys2Proof.Config

/-- A value the spec leaves open (undefined, or not stated). The argument is the state's counter of free values. -/
opaque freeNat : Nat → Nat

/-- A byte of Tier 1 (space 1) or Tier 2 (space 2) that nothing has written since the last FULL or DEVICE reach
(R139): a free value of the reach and the address. -/
opaque freeTierByte : Nat → Nat → Nat → BitVec 8

/-- Whether such a byte is found poisoned (R1008). -/
opaque freeTierMark : Nat → Nat → Nat → Bool

/-- A byte of flash that an interrupted download left undefined (R229): a free value of the reach's beat and the address. -/
opaque freeFlashByte : Nat → Nat → BitVec 8

/-- The deviation of a converter's output code from its ideal value (R435): a free value of the counter, the vector
and the row. -/
opaque tileNoise : Nat → Nat → Nat → Int

/-- SHA-384 of a byte string: 48 bytes. The standard function, which the spec names and does not define. -/
opaque sha384 : List Nat → List Nat

/-- Whether a byte string is a valid ECDSA P-384 signature, by a public key, over a SHA-384 value (R205, R992). -/
opaque ecdsaP384 : List Nat → List Nat → List Nat → Bool

end Sys2Proof.Config
end

