-- ==== Sys2Proof/Machine/Bits.lean ====
section
/-!
DEFINITION. Bit fields, sign conversion, saturation, byte order and CRC-32C, as SCO.3 and R3 use them.
-/

namespace Sys2Proof.Machine

/-- Bits `lo` to `lo + w - 1` of a word. -/
def bits (v lo w : Nat) : Nat := (v >>> lo) % 2 ^ w

/-- One bit of a word. -/
def bitAt (v i : Nat) : Bool := decide (bits v i 1 = 1)

/-- A Bool as a one-bit value. -/
def b2n (b : Bool) : Nat := if b then 1 else 0

/-- Replace bits `lo` to `lo + w - 1` of a word. -/
def putBits (v lo w x : Nat) : Nat :=
  v % 2 ^ lo + (x % 2 ^ w) * 2 ^ lo + (v >>> (lo + w)) * 2 ^ (lo + w)

/-- Set or clear one bit. -/
def putBit (v i : Nat) (b : Bool) : Nat := putBits v i 1 (b2n b)

/-- The indices below `n` whose bit is set, rising. -/
def setBits (v n : Nat) : List Nat := (List.range n).filter (bitAt v)

/-- The two's-complement value of the low `w` bits. -/
def toInt (w v : Nat) : Int :=
  let x := v % 2 ^ w
  if x < 2 ^ (w - 1) then (x : Int) else (x : Int) - (2 ^ w : Nat)

/-- The low `w` bits of an integer. -/
def ofInt (w : Nat) (i : Int) : Nat := (i % ((2 ^ w : Nat) : Int)).toNat

/-- Saturate an integer to a range. -/
def clampInt (lo hi i : Int) : Int := if i < lo then lo else if hi < i then hi else i

/-- Saturate an integer to `w` signed bits. -/
def satS (w : Nat) (i : Int) : Int := clampInt (-((2 ^ (w - 1) : Nat) : Int)) (((2 ^ (w - 1) : Nat) : Int) - 1) i

/-- Add one to a counter that saturates at `w` bits. -/
def satInc (w v : Nat) : Nat := if v + 1 < 2 ^ w then v + 1 else 2 ^ w - 1

/-- Add `n` to a counter that saturates at `w` bits. -/
def satAdd (w v n : Nat) : Nat := min (v + n) (2 ^ w - 1)

/-- Little-endian value of a byte list (R3). -/
def leVal (l : List Nat) : Nat :=
  match l with
  | [] => 0
  | b :: r => b % 256 + 256 * leVal r

/-- Big-endian value of a byte list (R795). -/
def beVal (l : List Nat) : Nat := l.foldl (fun a b => a * 256 + b % 256) 0

/-- The `n` little-endian bytes of a value (R3). -/
def leBytes (n v : Nat) : List Nat :=
  match n with
  | 0 => []
  | n + 1 => v % 256 :: leBytes n (v / 256)

/-- The `n` big-endian bytes of a value (R795). -/
def beBytes (n v : Nat) : List Nat := (leBytes n v).reverse

/-- `n` bytes of a list from offset `o`. -/
def bytesAt (l : List Nat) (o n : Nat) : List Nat := (l.drop o).take n

/-- Byte, 16-bit, 32-bit and 64-bit little-endian fields of a byte list. -/
def u8 (l : List Nat) (o : Nat) : Nat := leVal (bytesAt l o 1)
def u16 (l : List Nat) (o : Nat) : Nat := leVal (bytesAt l o 2)
def u24 (l : List Nat) (o : Nat) : Nat := leVal (bytesAt l o 3)
def u32 (l : List Nat) (o : Nat) : Nat := leVal (bytesAt l o 4)
def u64 (l : List Nat) (o : Nat) : Nat := leVal (bytesAt l o 8)
/-- Signed little-endian fields. -/
def i8 (l : List Nat) (o : Nat) : Int := toInt 8 (u8 l o)
def i16 (l : List Nat) (o : Nat) : Int := toInt 16 (u16 l o)
def i32 (l : List Nat) (o : Nat) : Int := toInt 32 (u32 l o)
def i64 (l : List Nat) (o : Nat) : Int := toInt 64 (u64 l o)

/-- Big-endian fields of a byte list. -/
def be16 (l : List Nat) (o : Nat) : Nat := beVal (bytesAt l o 2)
def be32 (l : List Nat) (o : Nat) : Nat := beVal (bytesAt l o 4)

/-- Whether `n` bytes from offset `o` are all zero. -/
def zerosAt (l : List Nat) (o n : Nat) : Bool := (bytesAt l o n).all (fun b => b % 256 == 0)

/-- One bit step of the reflected CRC-32C (polynomial 0x1EDC6F41). -/
def crcStep (c : Nat) : Nat := if c % 2 = 1 then (c / 2) ^^^ 0x82F63B78 else c / 2

/-- One byte of CRC-32C. -/
def crcByte (c b : Nat) : Nat :=
  crcStep (crcStep (crcStep (crcStep (crcStep (crcStep (crcStep (crcStep (c ^^^ (b % 256)))))))))

/-- CRC-32C of a byte list. -/
def crc32c (l : List Nat) : Nat := (l.foldl crcByte 0xFFFFFFFF) ^^^ 0xFFFFFFFF

/-- The counter-based mix of QNT.4. -/
def mix (a b : Nat) : Nat :=
  let h := (a ^^^ (b * 0x9E3779B9)) % 2 ^ 32
  let h := h ^^^ (h >>> 16)
  let h := (h * 0x6C8E9CF5) % 2 ^ 32
  let h := h ^^^ (h >>> 13)
  let h := (h * 0xA3B195D7) % 2 ^ 32
  h ^^^ (h >>> 16)

/-- Element `i` of a list, with a default. -/
def nth {α : Type} (dflt : α) (l : List α) (i : Nat) : α := (l[i]?).getD dflt

/-- Whether a `w`-bit range [a, a + n) lies within [b, b + m). -/
def within (a n b m : Nat) : Bool := decide (b ≤ a) && decide (a + n ≤ b + m)

/-- Whether two ranges share a byte. -/
def overlaps (a n b m : Nat) : Bool := decide (a < b + m) && decide (b < a + n)

/-- Ceiling division. -/
def cdiv (a b : Nat) : Nat := (a + b - 1) / b

end Sys2Proof.Machine
end

