-- ==== Sys2Proof/Machine/Sparse.lean ====
section
/-!
DEFINITION. Sparse tables: look-up, update and the canonical form. Registers, memories, buffers and poison marks
are all held in this one form, so that equal contents are equal data.
-/

namespace Sys2Proof.Machine

/-- The value stored under a key, if an entry is listed. -/
def sfind {α : Type} (l : Sparse α) (k : Nat) : Option α :=
  match l with
  | [] => none
  | (k', v) :: r => if k' = k then some v else sfind r k

/-- The value under a key, `dflt` where no entry is listed. -/
def sget {α : Type} (dflt : α) (l : Sparse α) (k : Nat) : α :=
  (sfind l k).getD dflt

/-- Remove the entries of a key. -/
def sdel {α : Type} (l : Sparse α) (k : Nat) : Sparse α :=
  match l with
  | [] => []
  | (k', v) :: r => if k' = k then sdel r k else (k', v) :: sdel r k

/-- List an entry, keeping the keys in rising order. -/
def sins {α : Type} (l : Sparse α) (k : Nat) (v : α) : Sparse α :=
  match l with
  | [] => [(k, v)]
  | (k', v') :: r =>
    if k' < k then (k', v') :: sins r k v
    else if k' = k then (k, v) :: r
    else (k, v) :: (k', v') :: r

/-- Store a value: the entry goes when the value is the default. -/
def sput {α : Type} [DecidableEq α] (dflt : α) (l : Sparse α) (k : Nat) (v : α) : Sparse α :=
  if v = dflt then sdel l k else sins l k v

/-- Keep the entries whose key satisfies `p`. -/
def skeep {α : Type} (p : Nat → Bool) (l : Sparse α) : Sparse α :=
  l.filter (fun e => p e.1)

/-- The keys are strictly rising and all above `lo`. -/
def risingFrom {α : Type} (lo : Nat) (l : Sparse α) : Bool :=
  match l with
  | [] => true
  | (k, _) :: r => decide (lo ≤ k) && risingFrom (k + 1) r

/-- The canonical form with a constant default. -/
def swf {α : Type} [DecidableEq α] (dflt : α) (l : Sparse α) : Bool :=
  risingFrom 0 l && l.all (fun e => decide (e.2 ≠ dflt))

/-- Memory of bytes that an unlisted address reads as `dflt`. -/
abbrev ByteMem := Sparse Byte

/-- The canonical form of a byte memory whose unlisted addresses read as `dflt`. -/
def Memory.wf (dflt : Byte) (m : ByteMem) : Bool := swf dflt m

/-- Read one byte. -/
def mget (dflt : Byte) (m : ByteMem) (a : Nat) : Byte := sget dflt m a

/-- Write one byte. -/
def mput (dflt : Byte) (m : ByteMem) (a : Nat) (b : Byte) : ByteMem := sput dflt m a b

/-- Write bytes at rising addresses. -/
def mputs (dflt : Byte) (m : ByteMem) (a : Nat) (bs : List Nat) : ByteMem :=
  match bs with
  | [] => m
  | b :: r => mputs dflt (mput dflt m a (BitVec.ofNat 8 b)) (a + 1) r

/-- Read `n` bytes at rising addresses. -/
def mgets (dflt : Byte) (m : ByteMem) (a n : Nat) : List Nat :=
  match n with
  | 0 => []
  | n + 1 => (mget dflt m a).toNat :: mgets dflt m (a + 1) n

/-- Set `n` bytes back to the default. -/
def mclear (m : ByteMem) (a n : Nat) : ByteMem :=
  skeep (fun k => decide (k < a) || decide (a + n ≤ k)) m

end Sys2Proof.Machine
end

