-- ==== Sys2Proof/Machine/RegMap.lean ====
section
/-!
DEFINITION. The register fields the spec gives the block: for each its bit address in PF BAR0 (or in a
client's set-up page), width, reset value, access code, and the reach of its Cleared by column (R6, R7, R8).
-/

namespace Sys2Proof.Machine

/-- Access codes of SCO.4. `win` is a table window of MAP.5 (R1003); `snap` is the WO capture register of R15. -/
inductive Acc where
  | ro | rw | w1c | wo | boot | lock | win | snap
deriving DecidableEq, Repr

/-- The Cleared by column of a field (R6-R8): the narrowest reach named there, and whether BLOCK is named too. -/
inductive Cls where
  | sticky | full | device | warm | func | deviceBlock | warmBlock
deriving DecidableEq, Repr

/-- One register field, or an array of `count` equal fields `stride` bits apart. `bit` is 8 times the byte
address plus the lowest bit; a `_LO`, `_HI` pair is one 64-bit field. -/
structure Fld where
  bit : Nat
  w : Nat
  rst : Nat
  acc : Acc
  cls : Cls
  count : Nat := 1
  stride : Nat := 0
deriving DecidableEq, Repr

/-! Fields of 03_power_stages.md PWR.4/6/7 -/

def R.PWR_STATUS_RAILS_UP : Fld := ⟨0x100000, 1, 0, .ro, .full, 1, 0⟩
def R.PWR_STATUS_SHORTFALL : Fld := ⟨0x100001, 1, 0, .ro, .device, 1, 0⟩
def R.PWR_STATUS_SAFE_FORCED : Fld := ⟨0x100002, 1, 0, .ro, .device, 1, 0⟩
def R.PWR_STATUS_OVERRUN : Fld := ⟨0x100003, 1, 0, .w1c, .device, 1, 0⟩
def R.PWR_STATUS_CAP_ABOVE : Fld := ⟨0x100004, 1, 0, .ro, .device, 1, 0⟩
def R.PWR_STATUS_LEG_LATCHED : Fld := ⟨0x100005, 1, 0, .ro, .full, 1, 0⟩
def R.PWR_STATUS_RAIL_FAULT : Fld := ⟨0x100006, 1, 0, .ro, .full, 4, 1⟩
def R.PWR_LEG_LATCH : Fld := ⟨0x100080, 1, 0, .ro, .full, 34, 1⟩
def R.PWR_LEG_PARK : Fld := ⟨0x1000c0, 1, 0, .ro, .full, 34, 1⟩
def R.PWR_LEG_RELEASE_LEG : Fld := ⟨0x100100, 6, 0, .wo, .sticky, 1, 0⟩
def R.PWR_LEG_RELEASE_GO : Fld := ⟨0x10011f, 1, 0, .wo, .sticky, 1, 0⟩
def R.PWR_CAP_CAP_W : Fld := ⟨0x100180, 10, 0x2d0, .lock, .device, 1, 0⟩
def R.PWR_CAP_LOCK : Fld := ⟨0x10019f, 1, 0, .lock, .device, 1, 0⟩
def R.PWR_SNAP : Fld := ⟨0x100200, 1, 0, .snap, .sticky, 1, 0⟩
def R.PWR_IN_VI_MV : Fld := ⟨0x100280, 16, 0, .ro, .full, 1, 0⟩
def R.PWR_IN_VI_CUR : Fld := ⟨0x100290, 16, 0, .ro, .full, 1, 0⟩
def R.PWR_IN_P : Fld := ⟨0x1002a0, 16, 0, .ro, .full, 1, 0⟩
def R.PWR_ENERGY : Fld := ⟨0x1002c0, 64, 0, .ro, .full, 1, 0⟩
def R.PWR_RAIL_FAULT_INFO_KIND : Fld := ⟨0x100300, 3, 0, .ro, .sticky, 1, 0⟩
def R.PWR_RAIL_FAULT_INFO_RAIL : Fld := ⟨0x100304, 2, 0, .ro, .sticky, 1, 0⟩
def R.PWR_RAIL_FAULT_INFO_LEG_A : Fld := ⟨0x100308, 6, 0x3f, .ro, .sticky, 1, 0⟩
def R.PWR_RAIL_FAULT_INFO_LEG_B : Fld := ⟨0x100310, 6, 0x3f, .ro, .sticky, 1, 0⟩
def R.PWR_RAIL_FAULT_INFO_COUNT : Fld := ⟨0x100318, 8, 0, .ro, .sticky, 1, 0⟩
def R.PWR_OVERRUN_CNT : Fld := ⟨0x100320, 32, 0, .ro, .device, 1, 0⟩
def R.PWR_RAIL_VI_MV : Fld := ⟨0x100400, 16, 0, .ro, .full, 4, 64⟩
def R.PWR_RAIL_VI_CUR : Fld := ⟨0x100410, 16, 0, .ro, .full, 4, 64⟩
def R.PWR_LEG_CNT_FAULT_CYC : Fld := ⟨0x100800, 16, 0, .ro, .full, 34, 32⟩
def R.PWR_LEG_CNT_HARD_TRIPS : Fld := ⟨0x100810, 8, 0, .ro, .full, 34, 32⟩
def R.PWR_LEG_CNT_LATCHES : Fld := ⟨0x100818, 3, 0, .ro, .full, 34, 32⟩
def R.PWR_LEG_CNT_RETIRED : Fld := ⟨0x10081b, 1, 0, .ro, .full, 34, 32⟩

/-- The PF BAR0 fields of 03_power_stages.md PWR.4/6/7. -/
def fields_pwr_4_6_7_03 : List Fld :=
  [R.PWR_STATUS_RAILS_UP, R.PWR_STATUS_SHORTFALL, R.PWR_STATUS_SAFE_FORCED, R.PWR_STATUS_OVERRUN, R.PWR_STATUS_CAP_ABOVE, R.PWR_STATUS_LEG_LATCHED, R.PWR_STATUS_RAIL_FAULT, R.PWR_LEG_LATCH, R.PWR_LEG_PARK, R.PWR_LEG_RELEASE_LEG, R.PWR_LEG_RELEASE_GO, R.PWR_CAP_CAP_W, R.PWR_CAP_LOCK, R.PWR_SNAP, R.PWR_IN_VI_MV, R.PWR_IN_VI_CUR, R.PWR_IN_P, R.PWR_ENERGY, R.PWR_RAIL_FAULT_INFO_KIND, R.PWR_RAIL_FAULT_INFO_RAIL, R.PWR_RAIL_FAULT_INFO_LEG_A, R.PWR_RAIL_FAULT_INFO_LEG_B, R.PWR_RAIL_FAULT_INFO_COUNT, R.PWR_OVERRUN_CNT, R.PWR_RAIL_VI_MV, R.PWR_RAIL_VI_CUR, R.PWR_LEG_CNT_FAULT_CYC, R.PWR_LEG_CNT_HARD_TRIPS, R.PWR_LEG_CNT_LATCHES, R.PWR_LEG_CNT_RETIRED]

/-! Fields of 04_reset.md RST.2/4/5/7/8 -/

def R.RST_CAUSE : Fld := ⟨0x80000, 12, 1, .w1c, .sticky, 1, 0⟩
def R.RST_EPISODE_REACH : Fld := ⟨0x80020, 3, 1, .ro, .sticky, 1, 0⟩
def R.RST_EPISODE_COUNT : Fld := ⟨0x80028, 8, 1, .ro, .sticky, 1, 0⟩
def R.RST_EPISODE_CAUSES : Fld := ⟨0x80030, 12, 1, .ro, .sticky, 1, 0⟩
def R.RST_HOST_CMD_KEY : Fld := ⟨0x80080, 8, 0, .wo, .sticky, 1, 0⟩
def R.RST_HOST_CMD_REACH : Fld := ⟨0x80088, 2, 0, .wo, .sticky, 1, 0⟩
def R.RST_HOST_CMD_GO : Fld := ⟨0x8009f, 1, 0, .wo, .sticky, 1, 0⟩
def R.RST_BLK_MODE : Fld := ⟨0x80100, 14, 0x40, .rw, .warm, 1, 0⟩
def R.RST_BLK_CTL_BLOCK : Fld := ⟨0x80120, 4, 0, .wo, .sticky, 1, 0⟩
def R.RST_BLK_CTL_GO : Fld := ⟨0x8013f, 1, 0, .wo, .sticky, 1, 0⟩
def R.RST_BLK_STATUS_BUSY : Fld := ⟨0x80140, 1, 0, .ro, .warm, 1, 0⟩
def R.RST_BLK_STATUS_DONE : Fld := ⟨0x80141, 1, 0, .w1c, .warm, 1, 0⟩
def R.RST_BLK_STATUS_FORCED : Fld := ⟨0x80142, 1, 0, .w1c, .warm, 1, 0⟩
def R.RST_BLK_STATUS_REFUSED : Fld := ⟨0x80143, 1, 0, .w1c, .warm, 1, 0⟩
def R.RST_BLK_STATUS_REASON : Fld := ⟨0x80144, 2, 0, .ro, .warm, 1, 0⟩
def R.RST_BLK_STATUS_LAST : Fld := ⟨0x80148, 4, 0, .ro, .warm, 1, 0⟩
def R.RST_BLK_IDLE_TO : Fld := ⟨0x80160, 10, 0x64, .rw, .device, 1, 0⟩
def R.RST_STRAP_BOOT_SRC : Fld := ⟨0x80180, 2, 0, .ro, .device, 1, 0⟩
def R.RST_STRAP_CLK_MODE : Fld := ⟨0x80182, 2, 0, .ro, .device, 1, 0⟩
def R.RST_STRAP_REFCLK_OK : Fld := ⟨0x80184, 1, 0, .ro, .device, 1, 0⟩
def R.RST_STRAP_RETRIES : Fld := ⟨0x80188, 8, 0, .ro, .device, 1, 0⟩
def R.OTP_OPT_STATUS_SLOT : Fld := ⟨0x200000, 3, 0, .ro, .device, 1, 0⟩
def R.OTP_OPT_STATUS_DEFAULTS : Fld := ⟨0x200003, 1, 1, .ro, .device, 1, 0⟩
def R.OTP_OPT_STATUS_GEN : Fld := ⟨0x200008, 16, 0, .ro, .device, 1, 0⟩
def R.OTP_OPT_STATUS_INVALID : Fld := ⟨0x200018, 8, 0, .ro, .device, 1, 0⟩
def R.OTP_OPT_BYTE : Fld := ⟨0x200800, 8, 0, .ro, .device, 256, 8⟩

/-- The PF BAR0 fields of 04_reset.md RST.2/4/5/7/8. -/
def fields_rst_2_4_5_7_8_04 : List Fld :=
  [R.RST_CAUSE, R.RST_EPISODE_REACH, R.RST_EPISODE_COUNT, R.RST_EPISODE_CAUSES, R.RST_HOST_CMD_KEY, R.RST_HOST_CMD_REACH, R.RST_HOST_CMD_GO, R.RST_BLK_MODE, R.RST_BLK_CTL_BLOCK, R.RST_BLK_CTL_GO, R.RST_BLK_STATUS_BUSY, R.RST_BLK_STATUS_DONE, R.RST_BLK_STATUS_FORCED, R.RST_BLK_STATUS_REFUSED, R.RST_BLK_STATUS_REASON, R.RST_BLK_STATUS_LAST, R.RST_BLK_IDLE_TO, R.RST_STRAP_BOOT_SRC, R.RST_STRAP_CLK_MODE, R.RST_STRAP_REFCLK_OK, R.RST_STRAP_RETRIES, R.OTP_OPT_STATUS_SLOT, R.OTP_OPT_STATUS_DEFAULTS, R.OTP_OPT_STATUS_GEN, R.OTP_OPT_STATUS_INVALID, R.OTP_OPT_BYTE]

/-! Fields of 05_boot_update.md BOT.3/BOT.7 -/

def R.BTP_STATUS_STEP : Fld := ⟨0x280000, 4, 0, .ro, .warm, 1, 0⟩
def R.BTP_STATUS_BOOTED : Fld := ⟨0x280004, 2, 3, .ro, .warm, 1, 0⟩
def R.BTP_STATUS_TRIAL : Fld := ⟨0x280006, 1, 0, .ro, .warm, 1, 0⟩
def R.BTP_STATUS_TRIALS_USED : Fld := ⟨0x280007, 2, 0, .ro, .warm, 1, 0⟩
def R.BTP_STATUS_FALLBACK : Fld := ⟨0x280009, 1, 0, .ro, .warm, 1, 0⟩
def R.BTP_STATUS_MAN_SRC : Fld := ⟨0x28000a, 2, 0, .ro, .warm, 1, 0⟩
def R.BTP_STATUS_MAN_UNSIGNED : Fld := ⟨0x28000c, 1, 0, .ro, .warm, 1, 0⟩
def R.BTP_STATUS_KEY_SLOT : Fld := ⟨0x28000d, 2, 0, .ro, .warm, 1, 0⟩
def R.BTP_STATUS_STRAP_RSVD : Fld := ⟨0x28000f, 1, 0, .ro, .warm, 1, 0⟩
def R.BTP_STATUS_FW_READY : Fld := ⟨0x280010, 1, 0, .ro, .warm, 1, 0⟩
def R.BTP_SEAL : Fld := ⟨0x280020, 1, 0, .boot, .warm, 1, 0⟩
def R.BTP_SVN_FUSES : Fld := ⟨0x280040, 7, 0, .ro, .sticky, 1, 0⟩
def R.BTP_SVN_IMG_SVN : Fld := ⟨0x280048, 7, 0, .ro, .warm, 1, 0⟩
def R.BTP_SVN_BURN_PENDING : Fld := ⟨0x280050, 1, 0, .ro, .warm, 1, 0⟩
def R.BTP_SVN_BURN_FAIL : Fld := ⟨0x280051, 1, 0, .w1c, .warm, 1, 0⟩
def R.BTP_UPD_VERIFIED : Fld := ⟨0x280060, 1, 0, .ro, .warm, 4, 1⟩
def R.BTP_UPD_BUSY : Fld := ⟨0x280068, 1, 0, .ro, .warm, 1, 0⟩
def R.BTP_BOOT_FAIL : Fld := ⟨0x280080, 1, 0, .ro, .sticky, 2, 1⟩
def R.BTP_RCV_ADDR : Fld := ⟨0x280100, 64, 0, .rw, .warm, 1, 0⟩
def R.BTP_RCV_LEN : Fld := ⟨0x280140, 23, 0, .rw, .warm, 1, 0⟩
def R.BTP_RCV_CTL_GO : Fld := ⟨0x280160, 1, 0, .wo, .warm, 1, 0⟩
def R.BTP_RCV_CTL_DONE : Fld := ⟨0x280161, 1, 0, .ro, .warm, 1, 0⟩
def R.BTP_RCV_CTL_ERR : Fld := ⟨0x280162, 1, 0, .ro, .warm, 1, 0⟩
def R.RES_STREAM_LANES : Fld := ⟨0x287800, 32, 0, .boot, .warm, 1, 0⟩
def R.RES_AET_LANES : Fld := ⟨0x287820, 32, 0, .boot, .warm, 1, 0⟩
def R.RES_DEC_MASK : Fld := ⟨0x287840, 8, 0, .boot, .warm, 1, 0⟩
def R.RES_DRV_MASK : Fld := ⟨0x287848, 8, 0, .boot, .warm, 1, 0⟩
def R.RES_SA_MASK : Fld := ⟨0x287850, 16, 0, .boot, .warm, 1, 0⟩
def R.RES_T1_BASE : Fld := ⟨0x287880, 64, 0, .boot, .warm, 1, 0⟩
def R.RES_T1_SIZE : Fld := ⟨0x2878c0, 64, 0, .boot, .warm, 1, 0⟩
def R.RES_T2_BASE : Fld := ⟨0x287900, 64, 0, .boot, .warm, 1, 0⟩
def R.RES_T2_SIZE : Fld := ⟨0x287940, 64, 0, .boot, .warm, 1, 0⟩
def R.ENT_CLIENT : Fld := ⟨0x288000, 16, 0, .boot, .warm, 257, 512⟩
def R.ENT_RIGHTS : Fld := ⟨0x288010, 16, 0, .boot, .warm, 257, 512⟩
def R.ENT_T1_BASE : Fld := ⟨0x288040, 64, 0, .boot, .warm, 257, 512⟩
def R.ENT_T1_SIZE : Fld := ⟨0x288080, 64, 0, .boot, .warm, 257, 512⟩
def R.ENT_T2_BASE : Fld := ⟨0x2880c0, 64, 0, .boot, .warm, 257, 512⟩
def R.ENT_T2_SIZE : Fld := ⟨0x288100, 64, 0, .boot, .warm, 257, 512⟩
def R.ENT_HOST_BASE : Fld := ⟨0x288140, 64, 0, .boot, .warm, 257, 512⟩
def R.ENT_HOST_SIZE : Fld := ⟨0x288180, 64, 0, .boot, .warm, 257, 512⟩

/-- The PF BAR0 fields of 05_boot_update.md BOT.3/BOT.7. -/
def fields_bot_3_bot_7_05 : List Fld :=
  [R.BTP_STATUS_STEP, R.BTP_STATUS_BOOTED, R.BTP_STATUS_TRIAL, R.BTP_STATUS_TRIALS_USED, R.BTP_STATUS_FALLBACK, R.BTP_STATUS_MAN_SRC, R.BTP_STATUS_MAN_UNSIGNED, R.BTP_STATUS_KEY_SLOT, R.BTP_STATUS_STRAP_RSVD, R.BTP_STATUS_FW_READY, R.BTP_SEAL, R.BTP_SVN_FUSES, R.BTP_SVN_IMG_SVN, R.BTP_SVN_BURN_PENDING, R.BTP_SVN_BURN_FAIL, R.BTP_UPD_VERIFIED, R.BTP_UPD_BUSY, R.BTP_BOOT_FAIL, R.BTP_RCV_ADDR, R.BTP_RCV_LEN, R.BTP_RCV_CTL_GO, R.BTP_RCV_CTL_DONE, R.BTP_RCV_CTL_ERR, R.RES_STREAM_LANES, R.RES_AET_LANES, R.RES_DEC_MASK, R.RES_DRV_MASK, R.RES_SA_MASK, R.RES_T1_BASE, R.RES_T1_SIZE, R.RES_T2_BASE, R.RES_T2_SIZE, R.ENT_CLIENT, R.ENT_RIGHTS, R.ENT_T1_BASE, R.ENT_T1_SIZE, R.ENT_T2_BASE, R.ENT_T2_SIZE, R.ENT_HOST_BASE, R.ENT_HOST_SIZE]

/-! Fields of 06_first_second.md FST.1 -/

def R.GLB_START_FW_READY : Fld := ⟨0x200, 1, 0, .ro, .warm, 1, 0⟩
def R.GLB_START_T1_TRAINED : Fld := ⟨0x201, 1, 0, .ro, .device, 1, 0⟩
def R.GLB_START_T2_DONE : Fld := ⟨0x202, 1, 0, .ro, .device, 1, 0⟩
def R.GLB_START_OPT_STAGE : Fld := ⟨0x203, 3, 0, .ro, .device, 1, 0⟩
def R.GLB_START_READY : Fld := ⟨0x206, 1, 0, .ro, .warm, 1, 0⟩
def R.GLB_START_PHASE_VALID : Fld := ⟨0x207, 1, 0, .ro, .warm, 1, 0⟩
def R.GLB_START_EVENTS_ON : Fld := ⟨0x208, 1, 0, .ro, .warm, 1, 0⟩
def R.GLB_START_STARTUP_TL : Fld := ⟨0x209, 1, 0, .ro, .warm, 1, 0⟩
def R.GLB_START_TILE_FAIL : Fld := ⟨0x210, 1, 0, .ro, .device, 16, 1⟩
def R.GLB_START_TIME_FW_READY_MS : Fld := ⟨0x220, 16, 0, .ro, .warm, 1, 0⟩
def R.GLB_START_TIME_READY_MS : Fld := ⟨0x230, 16, 0, .ro, .warm, 1, 0⟩

/-- The PF BAR0 fields of 06_first_second.md FST.1. -/
def fields_fst_1_06 : List Fld :=
  [R.GLB_START_FW_READY, R.GLB_START_T1_TRAINED, R.GLB_START_T2_DONE, R.GLB_START_OPT_STAGE, R.GLB_START_READY, R.GLB_START_PHASE_VALID, R.GLB_START_EVENTS_ON, R.GLB_START_STARTUP_TL, R.GLB_START_TILE_FAIL, R.GLB_START_TIME_FW_READY_MS, R.GLB_START_TIME_READY_MS]

/-! Fields of 07_phase_timebase.md CAD.4/CAD.6 -/

def R.CAD_CTL_SRC : Fld := ⟨0x300000, 2, 0, .rw, .warmBlock, 1, 0⟩
def R.CAD_CTL_ENC_INV : Fld := ⟨0x300002, 1, 0, .rw, .warmBlock, 1, 0⟩
def R.CAD_CTL_HWM_SET : Fld := ⟨0x300003, 1, 0, .wo, .sticky, 1, 0⟩
def R.CAD_CTL_SYNC_EDGE : Fld := ⟨0x300004, 2, 0, .rw, .warmBlock, 1, 0⟩
def R.CAD_STATUS_MOTION : Fld := ⟨0x300020, 2, 1, .ro, .warmBlock, 1, 0⟩
def R.CAD_STATUS_VALID : Fld := ⟨0x300022, 1, 0, .ro, .warmBlock, 1, 0⟩
def R.CAD_STATUS_ENC_VALID : Fld := ⟨0x300023, 1, 0, .ro, .warmBlock, 1, 0⟩
def R.CAD_STATUS_TF_VALID : Fld := ⟨0x300024, 1, 0, .ro, .warmBlock, 1, 0⟩
def R.CAD_STATUS_PULSE_VALID : Fld := ⟨0x300025, 1, 0, .ro, .warmBlock, 1, 0⟩
def R.CAD_STATUS_HOLD_TIMING : Fld := ⟨0x300026, 1, 0, .ro, .warmBlock, 1, 0⟩
def R.CAD_STATUS_WIN_ANY : Fld := ⟨0x300027, 1, 0, .ro, .warmBlock, 1, 0⟩
def R.CAD_STATUS_HELD : Fld := ⟨0x300028, 1, 0, .ro, .warmBlock, 1, 0⟩
def R.CAD_FILT : Fld := ⟨0x300040, 14, 0x14, .rw, .warmBlock, 1, 0⟩
def R.CAD_STALL_TO : Fld := ⟨0x300060, 17, 0x3e8, .rw, .warmBlock, 1, 0⟩
def R.CAD_ENC_N : Fld := ⟨0x300080, 25, 0x1000, .rw, .warmBlock, 1, 0⟩
def R.CAD_ENC_CFG_MAXRATE : Fld := ⟨0x3000a0, 8, 0x32, .rw, .warmBlock, 1, 0⟩
def R.CAD_ENC_CFG_DIR_HYST : Fld := ⟨0x3000a8, 8, 4, .rw, .warmBlock, 1, 0⟩
def R.CAD_ENC_CFG_IDX_WIN : Fld := ⟨0x3000b0, 16, 4, .rw, .warmBlock, 1, 0⟩
def R.CAD_TF_CFG_LAT_NS : Fld := ⟨0x3000c0, 16, 0, .rw, .warmBlock, 1, 0⟩
def R.CAD_TF_CFG_TO_US : Fld := ⟨0x3000d0, 12, 0x64, .rw, .warmBlock, 1, 0⟩
def R.CAD_TF_CFG_JUMP : Fld := ⟨0x3000dc, 4, 8, .rw, .warmBlock, 1, 0⟩
def R.CAD_PULSE_PMIN : Fld := ⟨0x3000e0, 32, 0xfa, .rw, .warmBlock, 1, 0⟩
def R.CAD_PULSE_PMAX : Fld := ⟨0x300100, 32, 0xffffffff, .rw, .warmBlock, 1, 0⟩
def R.CAD_TMR_PERIOD : Fld := ⟨0x300120, 32, 0x3d090, .rw, .warmBlock, 1, 0⟩
def R.CAD_FSTART_EN : Fld := ⟨0x300140, 1, 0, .rw, .warmBlock, 1, 0⟩
def R.CAD_FSTART_TOL : Fld := ⟨0x300148, 8, 8, .rw, .warmBlock, 1, 0⟩
def R.CAD_PHASE : Fld := ⟨0x300180, 64, 0, .ro, .warmBlock, 1, 0⟩
def R.CAD_HWM : Fld := ⟨0x3001c0, 64, 0, .ro, .warmBlock, 1, 0⟩
def R.CAD_SNAP : Fld := ⟨0x300200, 2, 0, .snap, .sticky, 1, 0⟩
def R.CAD_ENC_POS : Fld := ⟨0x300220, 24, 0, .ro, .warmBlock, 1, 0⟩
def R.CAD_PERIOD : Fld := ⟨0x300240, 32, 0xffffffff, .ro, .warmBlock, 1, 0⟩
def R.CAD_LOOP_HOLD : Fld := ⟨0x300260, 32, 0, .ro, .warmBlock, 1, 0⟩
def R.CAD_SETP_PERIOD : Fld := ⟨0x300280, 32, 0, .ro, .warmBlock, 1, 0⟩
def R.CAD_CNT_QUAD_ERR : Fld := ⟨0x300400, 16, 0, .ro, .warmBlock, 1, 0⟩
def R.CAD_CNT_RATE_ERR : Fld := ⟨0x300410, 16, 0, .ro, .warmBlock, 1, 0⟩
def R.CAD_CNT_IDX_ERR : Fld := ⟨0x300420, 16, 0, .ro, .warmBlock, 1, 0⟩
def R.CAD_CNT_IDX_CORR : Fld := ⟨0x300430, 16, 0, .ro, .warmBlock, 1, 0⟩
def R.CAD_CNT_TF_CRC : Fld := ⟨0x300440, 16, 0, .ro, .warmBlock, 1, 0⟩
def R.CAD_CNT_TF_DEC : Fld := ⟨0x300450, 16, 0, .ro, .warmBlock, 1, 0⟩
def R.CAD_CNT_TF_MISS : Fld := ⟨0x300460, 16, 0, .ro, .warmBlock, 1, 0⟩
def R.CAD_CNT_PULSE_SHORT : Fld := ⟨0x300470, 16, 0, .ro, .warmBlock, 1, 0⟩
def R.CAD_CNT_FS_HELD : Fld := ⟨0x300480, 16, 0, .ro, .warmBlock, 1, 0⟩
def R.CAD_CNT_FS_UNANCH : Fld := ⟨0x300490, 16, 0, .ro, .warmBlock, 1, 0⟩
def R.CAD_CNT_WIN_TRUNC : Fld := ⟨0x3004a0, 16, 0, .ro, .warmBlock, 1, 0⟩
def R.CAD_CNT_WIN_SKIP : Fld := ⟨0x3004b0, 16, 0, .ro, .warmBlock, 1, 0⟩
def R.CAD_CNT_FIRE_MERGE : Fld := ⟨0x3004c0, 16, 0, .ro, .warmBlock, 1, 0⟩
def R.CAD_CNT_RESYNC : Fld := ⟨0x3004d0, 16, 0, .ro, .warmBlock, 1, 0⟩
def R.CAD_LOG_WR_NEXT : Fld := ⟨0x300500, 8, 0, .ro, .warmBlock, 1, 0⟩
def R.CAD_LOG_WR_LOST : Fld := ⟨0x300510, 16, 0, .ro, .warmBlock, 1, 0⟩
def R.CAD_LOG_RD : Fld := ⟨0x300520, 8, 0, .rw, .warmBlock, 1, 0⟩
def R.CAD_LOG_PHASE : Fld := ⟨0x308000, 64, 0, .ro, .warmBlock, 256, 128⟩
def R.CAD_LOG_ROW : Fld := ⟨0x308040, 16, 0, .ro, .warmBlock, 256, 128⟩
def R.CAD_LOG_KIND : Fld := ⟨0x308050, 8, 0, .ro, .warmBlock, 256, 128⟩
def R.CAD_LOG_DIR : Fld := ⟨0x308058, 8, 0, .ro, .warmBlock, 256, 128⟩
def R.CAD_LOG_ARG : Fld := ⟨0x308060, 32, 0, .ro, .warmBlock, 256, 128⟩
def R.PEVT_FRAC : Fld := ⟨0x1000000, 24, 0, .win, .warmBlock, 1024, 128⟩
def R.PEVT_ACTION : Fld := ⟨0x1000018, 8, 0, .win, .warmBlock, 1024, 128⟩
def R.PEVT_DIV : Fld := ⟨0x1000020, 16, 0, .win, .warmBlock, 1024, 128⟩
def R.PEVT_FLAGS : Fld := ⟨0x1000030, 8, 0, .win, .warmBlock, 1024, 128⟩
def R.PEVT_CYC_MASK : Fld := ⟨0x1000040, 16, 0, .win, .warmBlock, 1024, 128⟩
def R.PEVT_CYC_MATCH : Fld := ⟨0x1000050, 16, 0, .win, .warmBlock, 1024, 128⟩
def R.PEVT_ARG : Fld := ⟨0x1000060, 32, 0, .win, .warmBlock, 1024, 128⟩

/-- The PF BAR0 fields of 07_phase_timebase.md CAD.4/CAD.6. -/
def fields_cad_4_cad_6_07 : List Fld :=
  [R.CAD_CTL_SRC, R.CAD_CTL_ENC_INV, R.CAD_CTL_HWM_SET, R.CAD_CTL_SYNC_EDGE, R.CAD_STATUS_MOTION, R.CAD_STATUS_VALID, R.CAD_STATUS_ENC_VALID, R.CAD_STATUS_TF_VALID, R.CAD_STATUS_PULSE_VALID, R.CAD_STATUS_HOLD_TIMING, R.CAD_STATUS_WIN_ANY, R.CAD_STATUS_HELD, R.CAD_FILT, R.CAD_STALL_TO, R.CAD_ENC_N, R.CAD_ENC_CFG_MAXRATE, R.CAD_ENC_CFG_DIR_HYST, R.CAD_ENC_CFG_IDX_WIN, R.CAD_TF_CFG_LAT_NS, R.CAD_TF_CFG_TO_US, R.CAD_TF_CFG_JUMP, R.CAD_PULSE_PMIN, R.CAD_PULSE_PMAX, R.CAD_TMR_PERIOD, R.CAD_FSTART_EN, R.CAD_FSTART_TOL, R.CAD_PHASE, R.CAD_HWM, R.CAD_SNAP, R.CAD_ENC_POS, R.CAD_PERIOD, R.CAD_LOOP_HOLD, R.CAD_SETP_PERIOD, R.CAD_CNT_QUAD_ERR, R.CAD_CNT_RATE_ERR, R.CAD_CNT_IDX_ERR, R.CAD_CNT_IDX_CORR, R.CAD_CNT_TF_CRC, R.CAD_CNT_TF_DEC, R.CAD_CNT_TF_MISS] ++
  [R.CAD_CNT_PULSE_SHORT, R.CAD_CNT_FS_HELD, R.CAD_CNT_FS_UNANCH, R.CAD_CNT_WIN_TRUNC, R.CAD_CNT_WIN_SKIP, R.CAD_CNT_FIRE_MERGE, R.CAD_CNT_RESYNC, R.CAD_LOG_WR_NEXT, R.CAD_LOG_WR_LOST, R.CAD_LOG_RD, R.CAD_LOG_PHASE, R.CAD_LOG_ROW, R.CAD_LOG_KIND, R.CAD_LOG_DIR, R.CAD_LOG_ARG, R.PEVT_FRAC, R.PEVT_ACTION, R.PEVT_DIV, R.PEVT_FLAGS, R.PEVT_CYC_MASK, R.PEVT_CYC_MATCH, R.PEVT_ARG]

/-! Fields of 08_plans.md PLN.8 -/

def R.SEQ_STATUS_STATE : Fld := ⟨0x380000, 3, 0, .ro, .warmBlock, 1, 0⟩
def R.SEQ_STATUS_FORM15 : Fld := ⟨0x380003, 1, 0, .ro, .warmBlock, 1, 0⟩
def R.SEQ_STATUS_STANDBY : Fld := ⟨0x380004, 1, 0, .ro, .warmBlock, 1, 0⟩
def R.SEQ_STATUS_STAGING : Fld := ⟨0x380005, 1, 0, .ro, .warmBlock, 1, 0⟩
def R.SEQ_STATUS_VARIANT : Fld := ⟨0x380008, 4, 0, .ro, .warmBlock, 1, 0⟩
def R.SEQ_STATUS_SAFE_PENDING : Fld := ⟨0x38000c, 1, 0, .ro, .warmBlock, 1, 0⟩
def R.SEQ_STATUS_ACTIVE : Fld := ⟨0x38000d, 1, 0, .ro, .warmBlock, 1, 0⟩
def R.SEQ_PLAN_ARM_PENDING : Fld := ⟨0x380020, 1, 0, .ro, .warmBlock, 1, 0⟩
def R.SEQ_PLAN_ARM_TARGET : Fld := ⟨0x380021, 1, 0, .ro, .warmBlock, 1, 0⟩
def R.SEQ_PLAN_ARM_WAIT : Fld := ⟨0x380022, 2, 0, .ro, .warmBlock, 1, 0⟩
def R.SEQ_REFUSE : Fld := ⟨0x380040, 32, 0, .ro, .warm, 1, 0⟩
def R.SEQ_PLAN_ID : Fld := ⟨0x380060, 32, 0, .ro, .warm, 1, 0⟩
def R.SEQ_LAT : Fld := ⟨0x380080, 32, 0, .ro, .warm, 1, 0⟩
def R.SEQ_FRAME_STAT : Fld := ⟨0x3800a0, 6, 0, .ro, .warm, 1, 0⟩
def R.SEQ_FRAME : Fld := ⟨0x3800c0, 64, 0, .ro, .warm, 1, 0⟩
def R.SEQ_SNAP : Fld := ⟨0x380100, 1, 0, .snap, .sticky, 1, 0⟩
def R.SEQ_CNT_DEGRADED : Fld := ⟨0x380180, 16, 0, .ro, .warm, 1, 0⟩
def R.SEQ_CNT_LATE : Fld := ⟨0x380190, 16, 0, .ro, .warm, 1, 0⟩
def R.SEQ_CNT_ECC : Fld := ⟨0x3801a0, 16, 0, .ro, .warm, 1, 0⟩
def R.SEQ_CNT_CUT : Fld := ⟨0x3801b0, 16, 0, .ro, .warm, 1, 0⟩
def R.SEQ_CNT_SWITCHES : Fld := ⟨0x3801c0, 16, 0, .ro, .warm, 1, 0⟩
def R.SEQ_CNT_FORCED : Fld := ⟨0x3801d0, 16, 0, .ro, .warm, 1, 0⟩

/-- The PF BAR0 fields of 08_plans.md PLN.8. -/
def fields_pln_8_08 : List Fld :=
  [R.SEQ_STATUS_STATE, R.SEQ_STATUS_FORM15, R.SEQ_STATUS_STANDBY, R.SEQ_STATUS_STAGING, R.SEQ_STATUS_VARIANT, R.SEQ_STATUS_SAFE_PENDING, R.SEQ_STATUS_ACTIVE, R.SEQ_PLAN_ARM_PENDING, R.SEQ_PLAN_ARM_TARGET, R.SEQ_PLAN_ARM_WAIT, R.SEQ_REFUSE, R.SEQ_PLAN_ID, R.SEQ_LAT, R.SEQ_FRAME_STAT, R.SEQ_FRAME, R.SEQ_SNAP, R.SEQ_CNT_DEGRADED, R.SEQ_CNT_LATE, R.SEQ_CNT_ECC, R.SEQ_CNT_CUT, R.SEQ_CNT_SWITCHES, R.SEQ_CNT_FORCED]

/-! Fields of 09_orchard.md ORC.6 -/

def R.OPT_ENG_ON : Fld := ⟨0x400000, 1, 0, .ro, .device, 2, 8⟩
def R.OPT_ENG_FAIL : Fld := ⟨0x400001, 1, 0, .ro, .device, 2, 8⟩
def R.OPT_ENG_LOSS : Fld := ⟨0x400002, 1, 0, .ro, .device, 2, 8⟩
def R.OPT_ENG_SPARES : Fld := ⟨0x400003, 2, 0, .ro, .device, 2, 8⟩
def R.OPT_SNAP : Fld := ⟨0x400080, 1, 0, .snap, .sticky, 1, 0⟩
def R.OPT_VEC : Fld := ⟨0x4000c0, 64, 0, .ro, .warmBlock, 1, 0⟩
def R.OPT_TILE_CLIP : Fld := ⟨0x400200, 16, 0, .ro, .warmBlock, 16, 32⟩
def R.OPT_TILE_INVALID : Fld := ⟨0x400210, 16, 0, .ro, .warmBlock, 16, 32⟩
def R.OPT_TILE_ITEMS : Fld := ⟨0x400400, 32, 0, .ro, .warmBlock, 16, 32⟩

/-- The PF BAR0 fields of 09_orchard.md ORC.6. -/
def fields_orc_6_09 : List Fld :=
  [R.OPT_ENG_ON, R.OPT_ENG_FAIL, R.OPT_ENG_LOSS, R.OPT_ENG_SPARES, R.OPT_SNAP, R.OPT_VEC, R.OPT_TILE_CLIP, R.OPT_TILE_INVALID, R.OPT_TILE_ITEMS]

/-! Fields of 10_holding_calibration.md HLD.3/HLD.7 -/

def R.CAL_STATUS_HEARTBEAT : Fld := ⟨0x480000, 16, 0, .ro, .deviceBlock, 1, 0⟩
def R.CAL_STATUS_DEGRADED_ANY : Fld := ⟨0x480010, 1, 0, .ro, .deviceBlock, 1, 0⟩
def R.CAL_STATUS_FAILED_ANY : Fld := ⟨0x480011, 1, 0, .ro, .deviceBlock, 1, 0⟩
def R.CAL_PAGE : Fld := ⟨0x480020, 4, 0, .rw, .warmBlock, 1, 0⟩
def R.CAL_SNAP : Fld := ⟨0x480040, 1, 0, .snap, .sticky, 1, 0⟩
def R.CAL_ENG_MAP_SP64_CH : Fld := ⟨0x480080, 7, 0x7f, .ro, .deviceBlock, 2, 32⟩
def R.CAL_ENG_MAP_SP64_LOCK : Fld := ⟨0x480087, 1, 0, .ro, .deviceBlock, 2, 32⟩
def R.CAL_ENG_MAP_SP65_CH : Fld := ⟨0x480088, 7, 0x7f, .ro, .deviceBlock, 2, 32⟩
def R.CAL_ENG_MAP_SP65_LOCK : Fld := ⟨0x48008f, 1, 0, .ro, .deviceBlock, 2, 32⟩
def R.CAL_ENG_MAP_LAST_LOST : Fld := ⟨0x480090, 7, 0x7f, .ro, .deviceBlock, 2, 32⟩
def R.CAL_ENG_MAP_LOST_CNT : Fld := ⟨0x480098, 8, 0, .ro, .deviceBlock, 2, 32⟩
def R.CAL_ADV : Fld := ⟨0x480100, 64, 0, .ro, .deviceBlock, 1, 0⟩
def R.CAL_CNT_LOCK_LOSS : Fld := ⟨0x480180, 16, 0, .ro, .deviceBlock, 1, 0⟩
def R.CAL_CNT_LINE_REPL : Fld := ⟨0x480190, 16, 0, .ro, .deviceBlock, 1, 0⟩
def R.CAL_CNT_MOD_REPL : Fld := ⟨0x4801a0, 16, 0, .ro, .deviceBlock, 1, 0⟩
def R.CAL_CNT_ROW_FAIL : Fld := ⟨0x4801b0, 16, 0, .ro, .deviceBlock, 1, 0⟩
def R.CAL_CNT_CURVE_REJ : Fld := ⟨0x4801c0, 16, 0, .ro, .deviceBlock, 1, 0⟩
def R.CAL_CNT_LOSS_WARN : Fld := ⟨0x4801d0, 16, 0, .ro, .deviceBlock, 1, 0⟩
def R.CAL_TILE_STATE : Fld := ⟨0x480800, 2, 0, .ro, .deviceBlock, 16, 32⟩
def R.CAL_TILE_ROTATING : Fld := ⟨0x480802, 1, 0, .ro, .deviceBlock, 16, 32⟩
def R.CAL_TILE_OOS_ROW : Fld := ⟨0x480804, 9, 0x100, .ro, .deviceBlock, 16, 32⟩
def R.CAL_TILE_MOD_SP : Fld := ⟨0x480810, 2, 0, .ro, .deviceBlock, 16, 32⟩
def R.CAL_TILE_REASON : Fld := ⟨0x480818, 8, 0, .ro, .deviceBlock, 16, 32⟩
def R.CAL_MODMAP_SB64_CH : Fld := ⟨0x480a00, 7, 0x7f, .ro, .deviceBlock, 16, 32⟩
def R.CAL_MODMAP_SB64_LOCK : Fld := ⟨0x480a07, 1, 0, .ro, .deviceBlock, 16, 32⟩
def R.CAL_MODMAP_SB65_CH : Fld := ⟨0x480a08, 7, 0x7f, .ro, .deviceBlock, 16, 32⟩
def R.CAL_MODMAP_SB65_LOCK : Fld := ⟨0x480a0f, 1, 0, .ro, .deviceBlock, 16, 32⟩
def R.CAL_TILE_PASS : Fld := ⟨0x480c00, 16, 0, .ro, .deviceBlock, 16, 32⟩
def R.CAL_TILE_FAIL_ROW : Fld := ⟨0x480c10, 16, 0xffff, .ro, .deviceBlock, 16, 32⟩

/-- The PF BAR0 fields of 10_holding_calibration.md HLD.3/HLD.7. -/
def fields_hld_3_hld_7_10 : List Fld :=
  [R.CAL_STATUS_HEARTBEAT, R.CAL_STATUS_DEGRADED_ANY, R.CAL_STATUS_FAILED_ANY, R.CAL_PAGE, R.CAL_SNAP, R.CAL_ENG_MAP_SP64_CH, R.CAL_ENG_MAP_SP64_LOCK, R.CAL_ENG_MAP_SP65_CH, R.CAL_ENG_MAP_SP65_LOCK, R.CAL_ENG_MAP_LAST_LOST, R.CAL_ENG_MAP_LOST_CNT, R.CAL_ADV, R.CAL_CNT_LOCK_LOSS, R.CAL_CNT_LINE_REPL, R.CAL_CNT_MOD_REPL, R.CAL_CNT_ROW_FAIL, R.CAL_CNT_CURVE_REJ, R.CAL_CNT_LOSS_WARN, R.CAL_TILE_STATE, R.CAL_TILE_ROTATING, R.CAL_TILE_OOS_ROW, R.CAL_TILE_MOD_SP, R.CAL_TILE_REASON, R.CAL_MODMAP_SB64_CH, R.CAL_MODMAP_SB64_LOCK, R.CAL_MODMAP_SB65_CH, R.CAL_MODMAP_SB65_LOCK, R.CAL_TILE_PASS, R.CAL_TILE_FAIL_ROW]

/-! Fields of 11_quantisation.md QNT.8 -/

def R.QNT_SNAP : Fld := ⟨0x500000, 1, 0, .snap, .sticky, 1, 0⟩
def R.QNT_ELEM : Fld := ⟨0x500040, 64, 0, .ro, .warmBlock, 1, 0⟩
def R.QNT_CLIP : Fld := ⟨0x500080, 64, 0, .ro, .warmBlock, 1, 0⟩
def R.QNT_ESC : Fld := ⟨0x5000c0, 64, 0, .ro, .warmBlock, 1, 0⟩
def R.QNT_CNT_NONFINITE : Fld := ⟨0x500100, 16, 0, .ro, .warmBlock, 1, 0⟩
def R.QNT_CNT_SAT_ITEMS : Fld := ⟨0x500110, 16, 0, .ro, .warmBlock, 1, 0⟩
def R.QNT_CNT_ORPHAN : Fld := ⟨0x500120, 16, 0, .ro, .warmBlock, 1, 0⟩
def R.QNT_CNT_INVALID_IN : Fld := ⟨0x500130, 16, 0, .ro, .warmBlock, 1, 0⟩

/-- The PF BAR0 fields of 11_quantisation.md QNT.8. -/
def fields_qnt_8_11 : List Fld :=
  [R.QNT_SNAP, R.QNT_ELEM, R.QNT_CLIP, R.QNT_ESC, R.QNT_CNT_NONFINITE, R.QNT_CNT_SAT_ITEMS, R.QNT_CNT_ORPHAN, R.QNT_CNT_INVALID_IN]

/-! Fields of 12_memory.md MEM.7 -/

def R.MEM_T1_STATUS_TRAINED : Fld := ⟨0x580000, 1, 0, .ro, .device, 6, 1⟩
def R.MEM_T1_STATUS_FAILED : Fld := ⟨0x580008, 1, 0, .ro, .device, 6, 1⟩
def R.MEM_T2_STATUS_ACTIVE : Fld := ⟨0x580020, 1, 0, .ro, .device, 8, 1⟩
def R.MEM_T2_STATUS_FAILED : Fld := ⟨0x580028, 1, 0, .ro, .device, 8, 1⟩
def R.MEM_T2_STATUS_ABSENT : Fld := ⟨0x580030, 1, 0, .ro, .device, 8, 1⟩
def R.MEM_T2_SIZE : Fld := ⟨0x580080, 10, 0, .ro, .device, 8, 32⟩
def R.MEM_SNAP : Fld := ⟨0x580200, 1, 0, .snap, .sticky, 1, 0⟩
def R.MEM_CNT_T1_CE : Fld := ⟨0x580280, 16, 0, .ro, .warm, 1, 0⟩
def R.MEM_CNT_T1_UE : Fld := ⟨0x580290, 16, 0, .ro, .warm, 1, 0⟩
def R.MEM_CNT_T2_CE : Fld := ⟨0x5802a0, 16, 0, .ro, .warm, 1, 0⟩
def R.MEM_CNT_T2_UE : Fld := ⟨0x5802b0, 16, 0, .ro, .warm, 1, 0⟩
def R.MEM_CNT_SRAM_CE : Fld := ⟨0x5802c0, 16, 0, .ro, .warm, 1, 0⟩
def R.MEM_CNT_SRAM_UE : Fld := ⟨0x5802d0, 16, 0, .ro, .warm, 1, 0⟩
def R.MEM_CNT_RETRY : Fld := ⟨0x5802e0, 16, 0, .ro, .warm, 1, 0⟩
def R.MEM_CNT_POISON_RD : Fld := ⟨0x5802f0, 16, 0, .ro, .warm, 1, 0⟩
def R.MEM_CNT_RAW_OVR : Fld := ⟨0x580300, 16, 0, .ro, .warm, 1, 0⟩
def R.MEM_CNT_WIN_VIOL : Fld := ⟨0x580310, 16, 0, .ro, .warm, 1, 0⟩
def R.MEM_LAST_UE_OFFSET : Fld := ⟨0x580340, 62, 0, .ro, .warm, 1, 0⟩
def R.MEM_LAST_UE_SPACE : Fld := ⟨0x58037e, 2, 0, .ro, .warm, 1, 0⟩
def R.MEM_RAW_WP : Fld := ⟨0x580800, 64, 0, .ro, .warm, 16, 64⟩
def R.MEM_SEQ_H : Fld := ⟨0x581000, 64, 0, .ro, .warm, 16, 64⟩
def R.DMU_SNAP : Fld := ⟨0x600000, 1, 0, .snap, .sticky, 1, 0⟩
def R.DMU_ITEMS : Fld := ⟨0x600080, 32, 0, .ro, .warm, 1, 0⟩
def R.DMU_NAN : Fld := ⟨0x6000a0, 16, 0, .ro, .warm, 1, 0⟩
def R.VU_NAN : Fld := ⟨0x6000b0, 16, 0, .ro, .warm, 1, 0⟩
def R.VU_ITEMS : Fld := ⟨0x600200, 32, 0, .ro, .warm, 8, 32⟩

/-- The PF BAR0 fields of 12_memory.md MEM.7. -/
def fields_mem_7_12 : List Fld :=
  [R.MEM_T1_STATUS_TRAINED, R.MEM_T1_STATUS_FAILED, R.MEM_T2_STATUS_ACTIVE, R.MEM_T2_STATUS_FAILED, R.MEM_T2_STATUS_ABSENT, R.MEM_T2_SIZE, R.MEM_SNAP, R.MEM_CNT_T1_CE, R.MEM_CNT_T1_UE, R.MEM_CNT_T2_CE, R.MEM_CNT_T2_UE, R.MEM_CNT_SRAM_CE, R.MEM_CNT_SRAM_UE, R.MEM_CNT_RETRY, R.MEM_CNT_POISON_RD, R.MEM_CNT_RAW_OVR, R.MEM_CNT_WIN_VIOL, R.MEM_LAST_UE_OFFSET, R.MEM_LAST_UE_SPACE, R.MEM_RAW_WP, R.MEM_SEQ_H, R.DMU_SNAP, R.DMU_ITEMS, R.DMU_NAN, R.VU_NAN, R.VU_ITEMS]

/-! Fields of 13_host_link.md HIF.4/HIF.7 -/

def R.HIF_LINK_SPEED : Fld := ⟨0x680000, 4, 0, .ro, .warm, 1, 0⟩
def R.HIF_LINK_WIDTH : Fld := ⟨0x680004, 5, 0, .ro, .warm, 1, 0⟩
def R.HIF_LINK_DL_UP : Fld := ⟨0x680009, 1, 0, .ro, .warm, 1, 0⟩
def R.HIF_LINK_CRS : Fld := ⟨0x68000a, 1, 0, .ro, .warm, 1, 0⟩
def R.HIF_LINK_D3HOT : Fld := ⟨0x68000b, 1, 0, .ro, .warm, 1, 0⟩
def R.HIF_LINK_NUMVFS : Fld := ⟨0x68000c, 9, 0, .ro, .warm, 1, 0⟩
def R.HIF_EVT_VEC_VEC : Fld := ⟨0x680080, 6, 0, .rw, .warm, 8, 8⟩
def R.HIF_EVT_VEC_EN : Fld := ⟨0x680087, 1, 0, .rw, .warm, 8, 8⟩
def R.HIF_EVT_PEND : Fld := ⟨0x6800c0, 1, 0, .w1c, .warm, 8, 1⟩
def R.HIF_CNT_HOST_DENY : Fld := ⟨0x680200, 16, 0, .ro, .warmBlock, 1, 0⟩
def R.HIF_CNT_RIGHT_DENY : Fld := ⟨0x680210, 16, 0, .ro, .warmBlock, 1, 0⟩
def R.HIF_CNT_CPL_TO : Fld := ⟨0x680220, 16, 0, .ro, .warmBlock, 1, 0⟩
def R.HIF_CNT_CPL_ERR : Fld := ⟨0x680230, 16, 0, .ro, .warmBlock, 1, 0⟩
def R.HIF_CNT_FLR : Fld := ⟨0x680240, 16, 0, .ro, .warmBlock, 1, 0⟩
def R.HIF_CNT_HOT_BLOCK : Fld := ⟨0x680250, 16, 0, .ro, .warmBlock, 1, 0⟩
def R.HIF_LAST_DENY_CLIENT : Fld := ⟨0x680280, 9, 0, .ro, .warmBlock, 1, 0⟩
def R.HIF_LAST_DENY_ADDR : Fld := ⟨0x68028c, 52, 0, .ro, .warmBlock, 1, 0⟩
def R.MSIX_ADDR : Fld := ⟨0xf00000, 64, 0, .rw, .warm, 64, 128⟩
def R.MSIX_DATA : Fld := ⟨0xf00040, 32, 0, .rw, .warm, 64, 128⟩
def R.MSIX_MASK : Fld := ⟨0xf00060, 1, 1, .rw, .warm, 64, 128⟩
def R.MSIX_PBA : Fld := ⟨0xf80000, 1, 0, .ro, .warm, 64, 1⟩
def R.HIF_VF_ID_CLIENT : Fld := ⟨0x0, 9, 0, .ro, .sticky, 1, 0⟩
def R.HIF_VF_ID_LEASED : Fld := ⟨0x9, 1, 0, .ro, .warm, 1, 0⟩
def R.HIF_VF_ID_AREA : Fld := ⟨0xa, 1, 0, .ro, .warm, 1, 0⟩
def R.HIF_VF_ID_POLL_FRAMES : Fld := ⟨0x10, 16, 0, .ro, .warm, 1, 0⟩

/-- The PF BAR0 fields of 13_host_link.md HIF.4/HIF.7. -/
def fields_hif_4_hif_7_13 : List Fld :=
  [R.HIF_LINK_SPEED, R.HIF_LINK_WIDTH, R.HIF_LINK_DL_UP, R.HIF_LINK_CRS, R.HIF_LINK_D3HOT, R.HIF_LINK_NUMVFS, R.HIF_EVT_VEC_VEC, R.HIF_EVT_VEC_EN, R.HIF_EVT_PEND, R.HIF_CNT_HOST_DENY, R.HIF_CNT_RIGHT_DENY, R.HIF_CNT_CPL_TO, R.HIF_CNT_CPL_ERR, R.HIF_CNT_FLR, R.HIF_CNT_HOT_BLOCK, R.HIF_LAST_DENY_CLIENT, R.HIF_LAST_DENY_ADDR, R.MSIX_ADDR, R.MSIX_DATA, R.MSIX_MASK, R.MSIX_PBA]

/-- The set-up page fields of 13_host_link.md HIF.4/HIF.7. -/
def pageFields_hif_4_hif_7_13 : List Fld :=
  [R.HIF_VF_ID_CLIENT, R.HIF_VF_ID_LEASED, R.HIF_VF_ID_AREA, R.HIF_VF_ID_POLL_FRAMES]

/-! Fields of 14_rings_commands.md RNG.1 -/

def R.RNG_DB_ADDR : Fld := ⟨0x800, 64, 0, .rw, .func, 1, 0⟩
def R.RNG_EPOCH : Fld := ⟨0x840, 32, 0, .rw, .func, 1, 0⟩
def R.RNG_POLL : Fld := ⟨0x860, 8, 1, .rw, .func, 1, 0⟩
def R.RNG_CTL_EN : Fld := ⟨0x880, 1, 0, .rw, .func, 1, 0⟩
def R.RNG_CTL_CRC_REQ : Fld := ⟨0x881, 1, 0, .rw, .func, 1, 0⟩
def R.RNG_CTL_ERR : Fld := ⟨0x882, 1, 0, .ro, .func, 1, 0⟩
def R.RNG_STATUS_HALTED : Fld := ⟨0x8a0, 1, 0, .ro, .func, 8, 1⟩
def R.RNG_STATUS_STOPPED : Fld := ⟨0x8a8, 1, 0, .ro, .func, 8, 1⟩
def R.RNG_STATUS_RUN : Fld := ⟨0x8b0, 1, 0, .ro, .func, 8, 1⟩
def R.RNG_SNAP : Fld := ⟨0x8c0, 1, 0, .snap, .sticky, 1, 0⟩
def R.RNG_CNT_DUP : Fld := ⟨0x900, 16, 0, .ro, .func, 1, 0⟩
def R.RNG_CNT_MALF : Fld := ⟨0x910, 16, 0, .ro, .func, 1, 0⟩
def R.RNG_CNT_EPOCH_MISS : Fld := ⟨0x920, 16, 0, .ro, .func, 1, 0⟩
def R.RNG_CNT_DB_BAD : Fld := ⟨0x930, 16, 0, .ro, .func, 1, 0⟩
def R.RNG_CMDS : Fld := ⟨0x940, 32, 0, .ro, .func, 1, 0⟩
def R.RNG_STEPS : Fld := ⟨0x960, 32, 0, .ro, .func, 1, 0⟩
def R.RNG_DONE : Fld := ⟨0x980, 32, 0, .ro, .func, 8, 32⟩
def R.RING_BASE : Fld := ⟨0x1000, 64, 0, .rw, .func, 8, 256⟩
def R.RING_CFG_LOG2 : Fld := ⟨0x1040, 5, 6, .rw, .func, 8, 256⟩
def R.RING_CFG_CPL : Fld := ⟨0x1048, 3, 0, .rw, .func, 8, 256⟩
def R.RING_CTL_EN : Fld := ⟨0x1060, 1, 0, .rw, .func, 8, 256⟩
def R.RING_CTL_RESUME : Fld := ⟨0x1061, 1, 0, .wo, .sticky, 8, 256⟩
def R.RING_CTL_SKIP : Fld := ⟨0x1062, 1, 0, .wo, .sticky, 8, 256⟩
def R.RING_CTL_STOP : Fld := ⟨0x1063, 1, 0, .wo, .sticky, 8, 256⟩
def R.RING_CTL_STATE : Fld := ⟨0x1064, 3, 0, .ro, .func, 8, 256⟩
def R.RING_CTL_ERR : Fld := ⟨0x1067, 1, 0, .ro, .func, 8, 256⟩
def R.RING_CONS : Fld := ⟨0x1080, 32, 0, .ro, .func, 8, 256⟩
def R.RING_HALT : Fld := ⟨0x10a0, 32, 0, .ro, .func, 8, 256⟩
def R.CPL_BASE : Fld := ⟨0x1800, 64, 0, .rw, .func, 8, 256⟩
def R.CPL_CFG_LOG2 : Fld := ⟨0x1840, 5, 6, .rw, .func, 8, 256⟩
def R.CPL_CFG_MODE : Fld := ⟨0x1848, 1, 0, .rw, .func, 8, 256⟩
def R.CPL_CFG_VEC : Fld := ⟨0x1850, 3, 0, .rw, .func, 8, 256⟩
def R.CPL_CFG_IEN : Fld := ⟨0x1853, 1, 0, .rw, .func, 8, 256⟩
def R.CPL_CFG_ERR : Fld := ⟨0x185e, 1, 0, .ro, .func, 8, 256⟩
def R.CPL_CFG_EN : Fld := ⟨0x185f, 1, 0, .rw, .func, 8, 256⟩
def R.CPL_MOD_COUNT : Fld := ⟨0x1860, 8, 1, .rw, .func, 8, 256⟩
def R.CPL_MOD_TIME_US : Fld := ⟨0x1870, 16, 0, .rw, .func, 8, 256⟩
def R.CPL_TAIL : Fld := ⟨0x1880, 32, 0, .ro, .func, 8, 256⟩
def R.HIF_USE_BASE : Fld := ⟨0x8000, 64, 0, .rw, .func, 1, 0⟩
def R.HIF_USE_SIZE : Fld := ⟨0x8040, 64, 0, .rw, .func, 1, 0⟩
def R.HIF_USE_CTL_EN : Fld := ⟨0x8080, 1, 0, .rw, .func, 1, 0⟩
def R.HIF_USE_CTL_ERR : Fld := ⟨0x8081, 1, 0, .ro, .func, 1, 0⟩
def R.VMSIX_ADDR : Fld := ⟨0x70000, 64, 0, .rw, .func, 8, 128⟩
def R.VMSIX_DATA : Fld := ⟨0x70040, 32, 0, .rw, .func, 8, 128⟩
def R.VMSIX_MASK : Fld := ⟨0x70060, 1, 1, .rw, .func, 8, 128⟩
def R.VMSIX_PBA : Fld := ⟨0x78000, 1, 0, .ro, .func, 8, 1⟩

/-- The set-up page fields of 14_rings_commands.md RNG.1. -/
def pageFields_rng_1_14 : List Fld :=
  [R.RNG_DB_ADDR, R.RNG_EPOCH, R.RNG_POLL, R.RNG_CTL_EN, R.RNG_CTL_CRC_REQ, R.RNG_CTL_ERR, R.RNG_STATUS_HALTED, R.RNG_STATUS_STOPPED, R.RNG_STATUS_RUN, R.RNG_SNAP, R.RNG_CNT_DUP, R.RNG_CNT_MALF, R.RNG_CNT_EPOCH_MISS, R.RNG_CNT_DB_BAD, R.RNG_CMDS, R.RNG_STEPS, R.RNG_DONE, R.RING_BASE, R.RING_CFG_LOG2, R.RING_CFG_CPL, R.RING_CTL_EN, R.RING_CTL_RESUME, R.RING_CTL_SKIP, R.RING_CTL_STOP, R.RING_CTL_STATE, R.RING_CTL_ERR, R.RING_CONS, R.RING_HALT, R.CPL_BASE, R.CPL_CFG_LOG2, R.CPL_CFG_MODE, R.CPL_CFG_VEC, R.CPL_CFG_IEN, R.CPL_CFG_ERR, R.CPL_CFG_EN, R.CPL_MOD_COUNT, R.CPL_MOD_TIME_US, R.CPL_TAIL, R.HIF_USE_BASE, R.HIF_USE_SIZE] ++
  [R.HIF_USE_CTL_EN, R.HIF_USE_CTL_ERR, R.VMSIX_ADDR, R.VMSIX_DATA, R.VMSIX_MASK, R.VMSIX_PBA]

/-! Fields of 15_stream_ingress.md ING.3/ING.6 -/

def R.FORMAT_WORD : Fld := ⟨0x1080000, 32, 0, .win, .warmBlock, 1024, 32⟩
def R.STP_SNAP : Fld := ⟨0x700000, 1, 0, .snap, .sticky, 1, 0⟩
def R.STP_SIGNAL : Fld := ⟨0x700020, 1, 0, .ro, .warmBlock, 32, 1⟩
def R.STP_FILL : Fld := ⟨0x700040, 16, 0, .ro, .warmBlock, 2, 16⟩
def R.STP_STATUS_LINK : Fld := ⟨0x700800, 2, 0, .ro, .warmBlock, 16, 256⟩
def R.STP_STATUS_MODE : Fld := ⟨0x700802, 3, 0, .ro, .warmBlock, 16, 256⟩
def R.STP_STATUS_WIN : Fld := ⟨0x700805, 1, 0, .ro, .warmBlock, 16, 256⟩
def R.STP_STATUS_GRACE : Fld := ⟨0x700806, 1, 0, .ro, .warmBlock, 16, 256⟩
def R.STP_STATUS_SYNC : Fld := ⟨0x700807, 1, 0, .ro, .warmBlock, 16, 256⟩
def R.STP_STATUS_LAST : Fld := ⟨0x700808, 8, 0, .ro, .warmBlock, 16, 256⟩
def R.STP_CNT_FCS_ERR : Fld := ⟨0x700820, 16, 0, .ro, .warmBlock, 16, 256⟩
def R.STP_CNT_ADDR_MISS : Fld := ⟨0x700830, 16, 0, .ro, .warmBlock, 16, 256⟩
def R.STP_CNT_LEN_ERR : Fld := ⟨0x700840, 16, 0, .ro, .warmBlock, 16, 256⟩
def R.STP_CNT_CRC_ERR : Fld := ⟨0x700850, 16, 0, .ro, .warmBlock, 16, 256⟩
def R.STP_CNT_SEQ_GAP : Fld := ⟨0x700860, 16, 0, .ro, .warmBlock, 16, 256⟩
def R.STP_CNT_SEQ_OLD : Fld := ⟨0x700870, 16, 0, .ro, .warmBlock, 16, 256⟩
def R.STP_CNT_OUT_WIN : Fld := ⟨0x700880, 16, 0, .ro, .warmBlock, 16, 256⟩
def R.STP_CNT_TS_ERR : Fld := ⟨0x700890, 16, 0, .ro, .warmBlock, 16, 256⟩
def R.STP_CNT_TIMEOUT : Fld := ⟨0x7008a0, 16, 0, .ro, .warmBlock, 16, 256⟩
def R.STP_CNT_PAUSE : Fld := ⟨0x7008b0, 16, 0, .ro, .warmBlock, 16, 256⟩
def R.STP_CNT_HIT_BAD : Fld := ⟨0x7008c0, 16, 0, .ro, .warmBlock, 16, 256⟩
def R.STP_CNT_HIT_OVF : Fld := ⟨0x7008d0, 16, 0, .ro, .warmBlock, 16, 256⟩
def R.STP_CNT_DROP : Fld := ⟨0x7008e0, 16, 0, .ro, .warmBlock, 16, 256⟩
def R.STP_CNT_LINK_DOWN : Fld := ⟨0x7008f0, 16, 0, .ro, .warmBlock, 16, 256⟩
def R.STP_FRAMES : Fld := ⟨0x701800, 64, 0, .ro, .warmBlock, 16, 64⟩
def R.STP_FEC_CW : Fld := ⟨0x701c00, 32, 0, .ro, .warmBlock, 16, 64⟩
def R.STP_FEC_UNC : Fld := ⟨0x701c20, 32, 0, .ro, .warmBlock, 16, 64⟩

/-- The PF BAR0 fields of 15_stream_ingress.md ING.3/ING.6. -/
def fields_ing_3_ing_6_15 : List Fld :=
  [R.FORMAT_WORD, R.STP_SNAP, R.STP_SIGNAL, R.STP_FILL, R.STP_STATUS_LINK, R.STP_STATUS_MODE, R.STP_STATUS_WIN, R.STP_STATUS_GRACE, R.STP_STATUS_SYNC, R.STP_STATUS_LAST, R.STP_CNT_FCS_ERR, R.STP_CNT_ADDR_MISS, R.STP_CNT_LEN_ERR, R.STP_CNT_CRC_ERR, R.STP_CNT_SEQ_GAP, R.STP_CNT_SEQ_OLD, R.STP_CNT_OUT_WIN, R.STP_CNT_TS_ERR, R.STP_CNT_TIMEOUT, R.STP_CNT_PAUSE, R.STP_CNT_HIT_BAD, R.STP_CNT_HIT_OVF, R.STP_CNT_DROP, R.STP_CNT_LINK_DOWN, R.STP_FRAMES, R.STP_FEC_CW, R.STP_FEC_UNC]

/-! Fields of 16_coincidence_lau.md COI.4/COI.6 -/

def R.RULE_EVENT : Fld := ⟨0x1100000, 8, 0, .win, .warm, 64, 128⟩
def R.RULE_TARGET : Fld := ⟨0x1100008, 8, 0, .win, .warm, 64, 128⟩
def R.RULE_X_LO : Fld := ⟨0x1100010, 8, 0, .win, .warm, 64, 128⟩
def R.RULE_X_HI : Fld := ⟨0x1100018, 8, 0, .win, .warm, 64, 128⟩
def R.RULE_CH_FIRST : Fld := ⟨0x1100020, 16, 0, .win, .warm, 64, 128⟩
def R.RULE_CH_LAST : Fld := ⟨0x1100030, 16, 0, .win, .warm, 64, 128⟩
def R.RULE_STEP : Fld := ⟨0x1100040, 16, 0, .win, .warm, 64, 128⟩
def R.RULE_SHIFT : Fld := ⟨0x1100050, 8, 0, .win, .warm, 64, 128⟩
def R.RULE_FLAGS : Fld := ⟨0x1100058, 8, 0, .win, .warm, 64, 128⟩
def R.LAU_CTL_FREEZE : Fld := ⟨0x780000, 1, 0, .rw, .warmBlock, 1, 0⟩
def R.LAU_CTL_ROLLBACK : Fld := ⟨0x780001, 1, 0, .wo, .sticky, 1, 0⟩
def R.LAU_CTL_REBASE : Fld := ⟨0x780002, 1, 0, .wo, .sticky, 1, 0⟩
def R.LAU_CTL_CKPT : Fld := ⟨0x780003, 1, 0, .wo, .sticky, 1, 0⟩
def R.LAU_STATUS_LEARNING : Fld := ⟨0x780020, 1, 0, .ro, .warmBlock, 1, 0⟩
def R.LAU_STATUS_FROZEN : Fld := ⟨0x780021, 1, 0, .ro, .warmBlock, 1, 0⟩
def R.LAU_STATUS_AUTO : Fld := ⟨0x780022, 1, 0, .ro, .warmBlock, 1, 0⟩
def R.LAU_STATUS_PENDING : Fld := ⟨0x780023, 1, 0, .ro, .warmBlock, 1, 0⟩
def R.LAU_STATUS_CKPT_AGE : Fld := ⟨0x780030, 16, 0, .ro, .warmBlock, 1, 0⟩
def R.LAU_SNAP : Fld := ⟨0x780040, 1, 0, .snap, .sticky, 1, 0⟩
def R.LAU_COMMIT : Fld := ⟨0x780080, 64, 0, .ro, .warmBlock, 1, 0⟩
def R.LAU_SET_STAT_INVALID : Fld := ⟨0x7800c0, 1, 0, .ro, .warmBlock, 1, 0⟩
def R.LAU_SET_STAT_NOWIN : Fld := ⟨0x7800c1, 1, 0, .ro, .warmBlock, 1, 0⟩
def R.LAU_SET_STAT_FAULT : Fld := ⟨0x7800c2, 1, 0, .ro, .warmBlock, 1, 0⟩
def R.LAU_SET_STAT_LATE : Fld := ⟨0x7800c3, 1, 0, .ro, .warmBlock, 1, 0⟩
def R.LAU_SET_STAT_ABANDONED : Fld := ⟨0x7800c4, 1, 0, .ro, .warmBlock, 1, 0⟩
def R.LAU_SET_STAT_SLICES : Fld := ⟨0x7800d0, 16, 0, .ro, .warmBlock, 1, 0⟩
def R.LAU_CNT_NO_CH : Fld := ⟨0x780100, 16, 0, .ro, .warmBlock, 1, 0⟩
def R.LAU_CNT_LATE_HIT : Fld := ⟨0x780110, 16, 0, .ro, .warmBlock, 1, 0⟩
def R.LAU_CNT_FEAT_LATE : Fld := ⟨0x780120, 16, 0, .ro, .warmBlock, 1, 0⟩
def R.LAU_CNT_ABANDON : Fld := ⟨0x780130, 16, 0, .ro, .warmBlock, 1, 0⟩
def R.LAU_CNT_ACC_SAT : Fld := ⟨0x780140, 16, 0, .ro, .warmBlock, 1, 0⟩
def R.LAU_CNT_LEARN_SKIP : Fld := ⟨0x780150, 16, 0, .ro, .warmBlock, 1, 0⟩
def R.LAU_CNT_CLAMPS : Fld := ⟨0x780160, 16, 0, .ro, .warmBlock, 1, 0⟩
def R.LAU_CNT_GUARD_TRIPS : Fld := ⟨0x780170, 16, 0, .ro, .warmBlock, 1, 0⟩
def R.LAU_CH_W : Fld := ⟨0x1200000, 8, 0, .win, .warm, 4096, 128⟩
def R.LAU_CH_CKPT_W : Fld := ⟨0x1200008, 8, 0, .win, .warm, 4096, 128⟩
def R.LAU_CH_D : Fld := ⟨0x1200010, 16, 0, .win, .warm, 4096, 128⟩
def R.LAU_CH_CKPT_D : Fld := ⟨0x1200020, 16, 0, .win, .warm, 4096, 128⟩
def R.LAU_CH_X : Fld := ⟨0x1200030, 8, 0, .win, .warm, 4096, 128⟩
def R.LAU_CH_FLAGS : Fld := ⟨0x1200038, 8, 0, .win, .warm, 4096, 128⟩
def R.LAU_CH_S : Fld := ⟨0x1200040, 16, 0, .win, .warm, 4096, 128⟩
def R.LAU_CH_FEAT : Fld := ⟨0x1200050, 16, 0, .win, .warm, 4096, 128⟩
def R.LAU_CH_W0 : Fld := ⟨0x1200060, 8, 0, .win, .warm, 4096, 128⟩
def R.LAU_CH_D0 : Fld := ⟨0x1200070, 16, 0, .win, .warm, 4096, 128⟩

/-- The PF BAR0 fields of 16_coincidence_lau.md COI.4/COI.6. -/
def fields_coi_4_coi_6_16 : List Fld :=
  [R.RULE_EVENT, R.RULE_TARGET, R.RULE_X_LO, R.RULE_X_HI, R.RULE_CH_FIRST, R.RULE_CH_LAST, R.RULE_STEP, R.RULE_SHIFT, R.RULE_FLAGS, R.LAU_CTL_FREEZE, R.LAU_CTL_ROLLBACK, R.LAU_CTL_REBASE, R.LAU_CTL_CKPT, R.LAU_STATUS_LEARNING, R.LAU_STATUS_FROZEN, R.LAU_STATUS_AUTO, R.LAU_STATUS_PENDING, R.LAU_STATUS_CKPT_AGE, R.LAU_SNAP, R.LAU_COMMIT, R.LAU_SET_STAT_INVALID, R.LAU_SET_STAT_NOWIN, R.LAU_SET_STAT_FAULT, R.LAU_SET_STAT_LATE, R.LAU_SET_STAT_ABANDONED, R.LAU_SET_STAT_SLICES, R.LAU_CNT_NO_CH, R.LAU_CNT_LATE_HIT, R.LAU_CNT_FEAT_LATE, R.LAU_CNT_ABANDON, R.LAU_CNT_ACC_SAT, R.LAU_CNT_LEARN_SKIP, R.LAU_CNT_CLAMPS, R.LAU_CNT_GUARD_TRIPS, R.LAU_CH_W, R.LAU_CH_CKPT_W, R.LAU_CH_D, R.LAU_CH_CKPT_D, R.LAU_CH_X, R.LAU_CH_FLAGS] ++
  [R.LAU_CH_S, R.LAU_CH_FEAT, R.LAU_CH_W0, R.LAU_CH_D0]

/-! Fields of 17_trigger_service.md TRG.6 -/

def R.TRG_STATUS_RUN : Fld := ⟨0x800000, 1, 0, .ro, .warmBlock, 1, 0⟩
def R.TRG_STATUS_LAG : Fld := ⟨0x800001, 3, 0, .ro, .warmBlock, 1, 0⟩
def R.TRG_STATUS_BUILD : Fld := ⟨0x800004, 1, 0, .ro, .warmBlock, 1, 0⟩
def R.TRG_STATUS_STALL : Fld := ⟨0x800005, 1, 0, .ro, .warmBlock, 1, 0⟩
def R.TRG_STATUS_QUEUE : Fld := ⟨0x800008, 8, 0, .ro, .warmBlock, 1, 0⟩
def R.TRG_STATUS_LINES : Fld := ⟨0x800010, 8, 0, .ro, .warmBlock, 1, 0⟩
def R.TRG_SNAP : Fld := ⟨0x800020, 1, 0, .snap, .sticky, 1, 0⟩
def R.TRG_SET : Fld := ⟨0x800040, 64, 0, .ro, .warmBlock, 1, 0⟩
def R.TRG_EVT : Fld := ⟨0x800080, 64, 0, .ro, .warmBlock, 1, 0⟩
def R.TRG_BYTES : Fld := ⟨0x8000c0, 64, 0, .ro, .warmBlock, 1, 0⟩
def R.TRG_VALID : Fld := ⟨0x800100, 32, 0, .ro, .warmBlock, 1, 0⟩
def R.TRG_INVALID : Fld := ⟨0x800120, 32, 0, .ro, .warmBlock, 1, 0⟩
def R.TRG_QFULL : Fld := ⟨0x800140, 32, 0, .ro, .warmBlock, 1, 0⟩
def R.TRG_PARTIAL : Fld := ⟨0x800160, 32, 0, .ro, .warmBlock, 1, 0⟩
def R.TRG_BDROP : Fld := ⟨0x800180, 32, 0, .ro, .warmBlock, 1, 0⟩
def R.TRG_BIT_FIRE : Fld := ⟨0x800800, 32, 0, .ro, .warmBlock, 16, 64⟩
def R.TRG_BIT_PASS : Fld := ⟨0x800820, 32, 0, .ro, .warmBlock, 16, 64⟩
def R.TRG_DEC_STROBES : Fld := ⟨0x801000, 32, 0, .ro, .warmBlock, 8, 64⟩
def R.TRG_DEC_OVERRUN : Fld := ⟨0x801020, 32, 0, .ro, .warmBlock, 8, 64⟩
def R.TRG_LAST : Fld := ⟨0x801800, 32, 0, .ro, .warmBlock, 16, 32⟩

/-- The PF BAR0 fields of 17_trigger_service.md TRG.6. -/
def fields_trg_6_17 : List Fld :=
  [R.TRG_STATUS_RUN, R.TRG_STATUS_LAG, R.TRG_STATUS_BUILD, R.TRG_STATUS_STALL, R.TRG_STATUS_QUEUE, R.TRG_STATUS_LINES, R.TRG_SNAP, R.TRG_SET, R.TRG_EVT, R.TRG_BYTES, R.TRG_VALID, R.TRG_INVALID, R.TRG_QFULL, R.TRG_PARTIAL, R.TRG_BDROP, R.TRG_BIT_FIRE, R.TRG_BIT_PASS, R.TRG_DEC_STROBES, R.TRG_DEC_OVERRUN, R.TRG_LAST]

/-! Fields of 18_event_transport.md AET.5/AET.6 -/

def R.PEER_AREA : Fld := ⟨0x1180000, 32, 0, .win, .warmBlock, 16384, 32⟩
def R.AET_SNAP : Fld := ⟨0x880000, 1, 0, .snap, .sticky, 1, 0⟩
def R.AET_CNT_UNKNOWN : Fld := ⟨0x880020, 16, 0, .ro, .warmBlock, 1, 0⟩
def R.AET_CNT_BAD : Fld := ⟨0x880030, 16, 0, .ro, .warmBlock, 1, 0⟩
def R.AET_CNT_PEER_RX : Fld := ⟨0x880040, 16, 0, .ro, .warmBlock, 1, 0⟩
def R.AET_CNT_PEER_BAD : Fld := ⟨0x880050, 16, 0, .ro, .warmBlock, 1, 0⟩
def R.AET_PORT_LINK : Fld := ⟨0x880200, 2, 0, .ro, .warmBlock, 16, 32⟩
def R.AET_PORT_PFC_RX : Fld := ⟨0x880208, 8, 0, .ro, .warmBlock, 16, 32⟩
def R.AET_PORT_PAUSE : Fld := ⟨0x880210, 16, 0, .ro, .warmBlock, 16, 32⟩
def R.AET_PATH_STATE : Fld := ⟨0x880800, 2, 0, .ro, .warmBlock, 32, 512⟩
def R.AET_PATH_FULL : Fld := ⟨0x880802, 1, 0, .ro, .warmBlock, 32, 512⟩
def R.AET_PATH_WINDOW : Fld := ⟨0x880803, 1, 0, .ro, .warmBlock, 32, 512⟩
def R.AET_PATH_PAUSED : Fld := ⟨0x880804, 1, 0, .ro, .warmBlock, 32, 512⟩
def R.AET_PATH_RTO_X : Fld := ⟨0x880808, 4, 0, .ro, .warmBlock, 32, 512⟩
def R.AET_PATH_SESSION : Fld := ⟨0x880820, 32, 0, .ro, .warmBlock, 32, 512⟩
def R.AET_PATH_CUM : Fld := ⟨0x880840, 32, 0, .ro, .warmBlock, 32, 512⟩
def R.AET_PATH_NEXT : Fld := ⟨0x880860, 32, 0, .ro, .warmBlock, 32, 512⟩
def R.AET_PATH_RET : Fld := ⟨0x880880, 64, 0, .ro, .warmBlock, 32, 512⟩
def R.AET_PATH_RETX_TO : Fld := ⟨0x8808c0, 16, 0, .ro, .warmBlock, 32, 512⟩
def R.AET_PATH_RETX_SACK : Fld := ⟨0x8808d0, 16, 0, .ro, .warmBlock, 32, 512⟩
def R.AET_PATH_BAD_ACK : Fld := ⟨0x8808e0, 16, 0, .ro, .warmBlock, 32, 512⟩
def R.AET_PATH_REHELLO : Fld := ⟨0x8808f0, 16, 0, .ro, .warmBlock, 32, 512⟩
def R.AET_PATH_LOST : Fld := ⟨0x880900, 32, 0, .ro, .warmBlock, 32, 512⟩
def R.AET_PATH_SENT : Fld := ⟨0x880940, 64, 0, .ro, .warmBlock, 32, 512⟩

/-- The PF BAR0 fields of 18_event_transport.md AET.5/AET.6. -/
def fields_aet_5_aet_6_18 : List Fld :=
  [R.PEER_AREA, R.AET_SNAP, R.AET_CNT_UNKNOWN, R.AET_CNT_BAD, R.AET_CNT_PEER_RX, R.AET_CNT_PEER_BAD, R.AET_PORT_LINK, R.AET_PORT_PFC_RX, R.AET_PORT_PAUSE, R.AET_PATH_STATE, R.AET_PATH_FULL, R.AET_PATH_WINDOW, R.AET_PATH_PAUSED, R.AET_PATH_RTO_X, R.AET_PATH_SESSION, R.AET_PATH_CUM, R.AET_PATH_NEXT, R.AET_PATH_RET, R.AET_PATH_RETX_TO, R.AET_PATH_RETX_SACK, R.AET_PATH_BAD_ACK, R.AET_PATH_REHELLO, R.AET_PATH_LOST, R.AET_PATH_SENT]

/-! Fields of 19_sensing_adc.md SAD.6/8 -/

def R.SAD_STATUS_CONV : Fld := ⟨0xa00000, 1, 0, .ro, .warmBlock, 16, 1⟩
def R.SAD_STATUS_DISC : Fld := ⟨0xa00010, 1, 0, .ro, .warmBlock, 12, 1⟩
def R.SAD_SYNC : Fld := ⟨0xa00020, 12, 0, .wo, .sticky, 1, 0⟩
def R.SAD_URG : Fld := ⟨0xa00040, 12, 0, .wo, .sticky, 1, 0⟩
def R.SAD_SNAP : Fld := ⟨0xa00060, 1, 0, .snap, .sticky, 1, 0⟩
def R.SAD_URG_DROP : Fld := ⟨0xa00080, 32, 0, .ro, .warmBlock, 1, 0⟩
def R.SAD_CNT0_URG_BAD : Fld := ⟨0xa000a0, 16, 0, .ro, .warmBlock, 1, 0⟩
def R.SAD_CNT0_RESTART : Fld := ⟨0xa000b0, 16, 0, .ro, .warmBlock, 1, 0⟩
def R.SAD_CFG_MODE : Fld := ⟨0xa00800, 2, 0, .rw, .warm, 12, 256⟩
def R.SAD_CFG_DIFF : Fld := ⟨0xa00804, 1, 0, .rw, .warm, 12, 256⟩
def R.SAD_CFG_LEFT : Fld := ⟨0xa00805, 1, 0, .rw, .warm, 12, 256⟩
def R.SAD_CFG_PAIR : Fld := ⟨0xa00806, 1, 0, .rw, .warm, 12, 256⟩
def R.SAD_CFG_OSR : Fld := ⟨0xa00808, 3, 0, .rw, .warm, 12, 256⟩
def R.SAD_CFG_BURST_N : Fld := ⟨0xa00810, 16, 0, .rw, .warm, 12, 256⟩
def R.SAD_OFS : Fld := ⟨0xa00820, 24, 0, .rw, .warm, 12, 256⟩
def R.SAD_GAIN : Fld := ⟨0xa00840, 24, 0x800000, .rw, .warm, 12, 256⟩
def R.SAD_DATA : Fld := ⟨0xa00860, 32, 0, .ro, .warmBlock, 12, 256⟩
def R.SAD_STAMP : Fld := ⟨0xa00880, 32, 0, .ro, .warmBlock, 12, 256⟩
def R.SAD_WORDS : Fld := ⟨0xa008a0, 32, 0, .ro, .warmBlock, 12, 256⟩
def R.SAD_CNT_OVR : Fld := ⟨0xa008c0, 16, 0, .ro, .warmBlock, 12, 256⟩
def R.SAD_CNT_CLIP : Fld := ⟨0xa008d0, 16, 0, .ro, .warmBlock, 12, 256⟩
def R.SADS_CFG_MODE : Fld := ⟨0xa01400, 2, 1, .ro, .full, 4, 256⟩
def R.SADS_CFG_OSR12 : Fld := ⟨0xa01408, 3, 0, .ro, .full, 2, 256⟩
def R.SADS_CFG_OSR14 : Fld := ⟨0xa01608, 3, 4, .ro, .full, 2, 256⟩
def R.SADS_OFS : Fld := ⟨0xa01420, 24, 0, .ro, .full, 4, 256⟩
def R.SADS_GAIN : Fld := ⟨0xa01440, 24, 0x800000, .ro, .full, 4, 256⟩
def R.SADS_DATA : Fld := ⟨0xa01460, 32, 0, .ro, .full, 4, 256⟩
def R.SADS_STAMP : Fld := ⟨0xa01480, 32, 0, .ro, .full, 4, 256⟩
def R.SADS_WORDS : Fld := ⟨0xa014a0, 32, 0, .ro, .full, 4, 256⟩
def R.SADS_CNT_OVR : Fld := ⟨0xa014c0, 16, 0, .ro, .full, 4, 256⟩
def R.SADS_CNT_CLIP : Fld := ⟨0xa014d0, 16, 0, .ro, .full, 4, 256⟩

/-- The PF BAR0 fields of 19_sensing_adc.md SAD.6/8. -/
def fields_sad_6_8_19 : List Fld :=
  [R.SAD_STATUS_CONV, R.SAD_STATUS_DISC, R.SAD_SYNC, R.SAD_URG, R.SAD_SNAP, R.SAD_URG_DROP, R.SAD_CNT0_URG_BAD, R.SAD_CNT0_RESTART, R.SAD_CFG_MODE, R.SAD_CFG_DIFF, R.SAD_CFG_LEFT, R.SAD_CFG_PAIR, R.SAD_CFG_OSR, R.SAD_CFG_BURST_N, R.SAD_OFS, R.SAD_GAIN, R.SAD_DATA, R.SAD_STAMP, R.SAD_WORDS, R.SAD_CNT_OVR, R.SAD_CNT_CLIP, R.SADS_CFG_MODE, R.SADS_CFG_OSR12, R.SADS_CFG_OSR14, R.SADS_OFS, R.SADS_GAIN, R.SADS_DATA, R.SADS_STAMP, R.SADS_WORDS, R.SADS_CNT_OVR, R.SADS_CNT_CLIP]

/-! Fields of 20_loop_engine.md LPE.9 -/

def R.LPE_CTL_SWAP : Fld := ⟨0x900000, 1, 0, .wo, .sticky, 1, 0⟩
def R.LPE_CTL_CLEAR_TRIP : Fld := ⟨0x900001, 1, 0, .wo, .sticky, 1, 0⟩
def R.LPE_STATUS_STATE : Fld := ⟨0x900020, 2, 0, .ro, .warmBlock, 1, 0⟩
def R.LPE_STATUS_BANK : Fld := ⟨0x900022, 1, 0, .ro, .warmBlock, 1, 0⟩
def R.LPE_STATUS_SWAP_PEND : Fld := ⟨0x900023, 1, 0, .ro, .warmBlock, 1, 0⟩
def R.LPE_STATUS_SWAP_ERR : Fld := ⟨0x900024, 1, 0, .ro, .warmBlock, 1, 0⟩
def R.LPE_STATUS_TRIP : Fld := ⟨0x900025, 1, 0, .ro, .warmBlock, 1, 0⟩
def R.LPE_STATUS_FAULT : Fld := ⟨0x900026, 1, 0, .ro, .warmBlock, 1, 0⟩
def R.LPE_STATUS_HOLD : Fld := ⟨0x900027, 1, 0, .ro, .warmBlock, 1, 0⟩
def R.LPE_STATUS_DRV_EN : Fld := ⟨0x900028, 1, 0, .ro, .warmBlock, 1, 0⟩
def R.LPE_SNAP : Fld := ⟨0x900040, 1, 0, .snap, .sticky, 1, 0⟩
def R.LPE_SETPOINT : Fld := ⟨0x900060, 32, 0, .rw, .warmBlock, 1, 0⟩
def R.LPE_OUT : Fld := ⟨0x900080, 32, 0, .ro, .warmBlock, 1, 0⟩
def R.LPE_SAMPLES : Fld := ⟨0x9000a0, 32, 0, .ro, .warmBlock, 1, 0⟩
def R.LPE_CNT0_HELD : Fld := ⟨0x900100, 16, 0, .ro, .warmBlock, 1, 0⟩
def R.LPE_CNT0_EARLY : Fld := ⟨0x900110, 16, 0, .ro, .warmBlock, 1, 0⟩
def R.LPE_CNT1_SAT : Fld := ⟨0x900120, 16, 0, .ro, .warmBlock, 1, 0⟩
def R.LPE_CNT1_RATE : Fld := ⟨0x900130, 16, 0, .ro, .warmBlock, 1, 0⟩
def R.LPE_CNT2_FALLBACK : Fld := ⟨0x900140, 16, 0, .ro, .warmBlock, 1, 0⟩
def R.LPE_CNT2_OSC_TRIPS : Fld := ⟨0x900150, 16, 0, .ro, .warmBlock, 1, 0⟩
def R.LPE_CNT3_DRV_FAULT : Fld := ⟨0x900160, 16, 0, .ro, .warmBlock, 1, 0⟩
def R.LPE_CNT3_BANK_REF : Fld := ⟨0x900170, 16, 0, .ro, .warmBlock, 1, 0⟩
def R.LPE_CNT4_ACC_SAT : Fld := ⟨0x900180, 16, 0, .ro, .warmBlock, 1, 0⟩
def R.LPE_CNT4_ARM_REF : Fld := ⟨0x900190, 16, 0, .ro, .warmBlock, 1, 0⟩
def R.LPE_TRC_CTL_ARM : Fld := ⟨0x900200, 1, 0, .wo, .sticky, 1, 0⟩
def R.LPE_TRC_CTL_TRIG : Fld := ⟨0x900201, 2, 0, .rw, .warmBlock, 1, 0⟩
def R.LPE_TRC_CTL_TRIG_CH : Fld := ⟨0x900203, 3, 0, .rw, .warmBlock, 1, 0⟩
def R.LPE_TRC_CTL_EDGE : Fld := ⟨0x900206, 2, 0, .rw, .warmBlock, 1, 0⟩
def R.LPE_TRC_CTL_PRE : Fld := ⟨0x900208, 13, 0, .rw, .warmBlock, 1, 0⟩
def R.LPE_TRC_SEL : Fld := ⟨0x900220, 8, 0, .rw, .warmBlock, 8, 8⟩
def R.LPE_TRC_LEVEL : Fld := ⟨0x900260, 32, 0, .rw, .warmBlock, 1, 0⟩
def R.LPE_TRC_STATUS_STATE : Fld := ⟨0x900280, 3, 0, .ro, .warmBlock, 1, 0⟩
def R.LPE_TRC_STATUS_SHORT : Fld := ⟨0x900283, 1, 0, .ro, .warmBlock, 1, 0⟩
def R.LPE_TRC_STATUS_READING : Fld := ⟨0x900284, 1, 0, .ro, .warmBlock, 1, 0⟩
def R.LPE_TRC_STATUS_ENTRIES : Fld := ⟨0x900290, 16, 0, .ro, .warmBlock, 1, 0⟩
def R.LPE_BANK_A : Fld := ⟨0x908000, 32, 0, .rw, .warmBlock, 96, 32⟩
def R.LPE_BANK_B : Fld := ⟨0x909000, 32, 0, .rw, .warmBlock, 96, 32⟩
def R.LPE_CURVE : Fld := ⟨0x1280000, 32, 0, .win, .warmBlock, 256, 32⟩
def R.LPE_PROFILE : Fld := ⟨0x1288000, 32, 0, .win, .warmBlock, 256, 32⟩

/-- The PF BAR0 fields of 20_loop_engine.md LPE.9. -/
def fields_lpe_9_20 : List Fld :=
  [R.LPE_CTL_SWAP, R.LPE_CTL_CLEAR_TRIP, R.LPE_STATUS_STATE, R.LPE_STATUS_BANK, R.LPE_STATUS_SWAP_PEND, R.LPE_STATUS_SWAP_ERR, R.LPE_STATUS_TRIP, R.LPE_STATUS_FAULT, R.LPE_STATUS_HOLD, R.LPE_STATUS_DRV_EN, R.LPE_SNAP, R.LPE_SETPOINT, R.LPE_OUT, R.LPE_SAMPLES, R.LPE_CNT0_HELD, R.LPE_CNT0_EARLY, R.LPE_CNT1_SAT, R.LPE_CNT1_RATE, R.LPE_CNT2_FALLBACK, R.LPE_CNT2_OSC_TRIPS, R.LPE_CNT3_DRV_FAULT, R.LPE_CNT3_BANK_REF, R.LPE_CNT4_ACC_SAT, R.LPE_CNT4_ARM_REF, R.LPE_TRC_CTL_ARM, R.LPE_TRC_CTL_TRIG, R.LPE_TRC_CTL_TRIG_CH, R.LPE_TRC_CTL_EDGE, R.LPE_TRC_CTL_PRE, R.LPE_TRC_SEL, R.LPE_TRC_LEVEL, R.LPE_TRC_STATUS_STATE, R.LPE_TRC_STATUS_SHORT, R.LPE_TRC_STATUS_READING, R.LPE_TRC_STATUS_ENTRIES, R.LPE_BANK_A, R.LPE_BANK_B, R.LPE_CURVE, R.LPE_PROFILE]

/-! Fields of 21_qp_solver.md QPS.7 -/

def R.QPS_STATUS_STATE : Fld := ⟨0x980000, 2, 0, .ro, .warmBlock, 1, 0⟩
def R.QPS_STATUS_WARM_OK : Fld := ⟨0x980002, 1, 0, .ro, .warmBlock, 1, 0⟩
def R.QPS_STATUS_IT : Fld := ⟨0x980008, 8, 0, .ro, .warmBlock, 1, 0⟩
def R.QPS_STATUS_CLIENT : Fld := ⟨0x980010, 9, 0, .ro, .warmBlock, 1, 0⟩
def R.QPS_SNAP : Fld := ⟨0x980020, 1, 0, .snap, .sticky, 1, 0⟩
def R.QPS_SOLVES : Fld := ⟨0x980040, 32, 0, .ro, .warmBlock, 1, 0⟩
def R.QPS_CNT0_OVERFLOW : Fld := ⟨0x980060, 16, 0, .ro, .warmBlock, 1, 0⟩
def R.QPS_CNT0_BUSY : Fld := ⟨0x980070, 16, 0, .ro, .warmBlock, 1, 0⟩
def R.QPS_CNT1_ABANDON : Fld := ⟨0x980080, 16, 0, .ro, .warmBlock, 1, 0⟩
def R.QPS_CNT1_PIVSOLVES : Fld := ⟨0x980090, 16, 0, .ro, .warmBlock, 1, 0⟩
def R.QPS_PIVOTS : Fld := ⟨0x9800a0, 32, 0, .ro, .warmBlock, 1, 0⟩
def R.QPS_SOLVE_BEATS : Fld := ⟨0x9800c0, 32, 0, .ro, .warmBlock, 1, 0⟩
def R.QPS_LAST : Fld := ⟨0x980800, 32, 0, .ro, .warmBlock, 16, 32⟩

/-- The PF BAR0 fields of 21_qp_solver.md QPS.7. -/
def fields_qps_7_21 : List Fld :=
  [R.QPS_STATUS_STATE, R.QPS_STATUS_WARM_OK, R.QPS_STATUS_IT, R.QPS_STATUS_CLIENT, R.QPS_SNAP, R.QPS_SOLVES, R.QPS_CNT0_OVERFLOW, R.QPS_CNT0_BUSY, R.QPS_CNT1_ABANDON, R.QPS_CNT1_PIVSOLVES, R.QPS_PIVOTS, R.QPS_SOLVE_BEATS, R.QPS_LAST]

/-! Fields of 23_supervision.md RAS.1-4 -/

def R.RAS_SUM : Fld := ⟨0xa80000, 13, 0, .w1c, .device, 1, 0⟩
def R.RAS_SNAP : Fld := ⟨0xa80020, 1, 0, .snap, .sticky, 1, 0⟩
def R.RAS_LOG_WR_NEXT : Fld := ⟨0xa80040, 8, 0, .ro, .device, 1, 0⟩
def R.RAS_LOG_WR_LOST : Fld := ⟨0xa80050, 16, 0, .ro, .device, 1, 0⟩
def R.RAS_LOG_RD : Fld := ⟨0xa80060, 8, 0, .rw, .device, 1, 0⟩
def R.RAS_CE0_PLAN_CE : Fld := ⟨0xa80080, 16, 0, .ro, .device, 1, 0⟩
def R.RAS_CE0_TILE_CE : Fld := ⟨0xa80090, 16, 0, .ro, .device, 1, 0⟩
def R.RAS_CE1_ARM_CE : Fld := ⟨0xa800a0, 16, 0, .ro, .device, 1, 0⟩
def R.RAS_HB : Fld := ⟨0xa80100, 8, 0, .ro, .device, 4, 8⟩
def R.RAS_LOG_STAMP : Fld := ⟨0xa88000, 32, 0, .ro, .device, 256, 128⟩
def R.RAS_LOG_CLASS : Fld := ⟨0xa88020, 8, 0, .ro, .device, 256, 128⟩
def R.RAS_LOG_BLOCK : Fld := ⟨0xa88028, 8, 0, .ro, .device, 256, 128⟩
def R.RAS_LOG_CLIENT : Fld := ⟨0xa88030, 16, 0, .ro, .device, 256, 128⟩
def R.RAS_LOG_COUNT : Fld := ⟨0xa88040, 8, 0, .ro, .device, 256, 128⟩
def R.RAS_LOG_DETAIL : Fld := ⟨0xa88060, 32, 0, .ro, .device, 256, 128⟩

/-- The PF BAR0 fields of 23_supervision.md RAS.1-4. -/
def fields_ras_1_4_23 : List Fld :=
  [R.RAS_SUM, R.RAS_SNAP, R.RAS_LOG_WR_NEXT, R.RAS_LOG_WR_LOST, R.RAS_LOG_RD, R.RAS_CE0_PLAN_CE, R.RAS_CE0_TILE_CE, R.RAS_CE1_ARM_CE, R.RAS_HB, R.RAS_LOG_STAMP, R.RAS_LOG_CLASS, R.RAS_LOG_BLOCK, R.RAS_LOG_CLIENT, R.RAS_LOG_COUNT, R.RAS_LOG_DETAIL]

/-! Fields of 23_supervision.md MGT.2-5 -/

def R.MGT_STATUS_ALERT : Fld := ⟨0xb00000, 1, 0, .ro, .full, 1, 0⟩
def R.MGT_STATUS_PENDING : Fld := ⟨0xb00001, 1, 0, .ro, .full, 1, 0⟩
def R.MGT_STATUS_LASTCMD : Fld := ⟨0xb00008, 8, 0, .ro, .full, 1, 0⟩
def R.MGT_STATUS_SEQ : Fld := ⟨0xb00010, 8, 0, .ro, .full, 1, 0⟩
def R.MGT_ALERT_MASK : Fld := ⟨0xb00020, 14, 0x3ff8, .rw, .full, 1, 0⟩
def R.MGT_CNT0_PEC_ERR : Fld := ⟨0xb00040, 16, 0, .ro, .full, 1, 0⟩
def R.MGT_CNT0_NACK : Fld := ⟨0xb00050, 16, 0, .ro, .full, 1, 0⟩
def R.MGT_CNT1_REPEAT : Fld := ⟨0xb00060, 16, 0, .ro, .full, 1, 0⟩
def R.MGT_CNT1_TIMEOUT : Fld := ⟨0xb00070, 16, 0, .ro, .full, 1, 0⟩
def R.MGT_DBG_SCOPE : Fld := ⟨0xb00080, 2, 0, .ro, .warm, 1, 0⟩
def R.MGT_DBG_BY_OPTION : Fld := ⟨0xb00082, 1, 0, .ro, .warm, 1, 0⟩
def R.MGT_DBG_FAILS : Fld := ⟨0xb00083, 2, 0, .ro, .device, 1, 0⟩
def R.MGT_DBG_LOCKOUT : Fld := ⟨0xb00085, 1, 0, .ro, .device, 1, 0⟩
def R.MGT_DBG_SCAN_REF : Fld := ⟨0xb00086, 1, 0, .ro, .warm, 1, 0⟩
def R.MGT_DBG_HALTED : Fld := ⟨0xb00088, 4, 0, .ro, .warm, 1, 0⟩

/-- The PF BAR0 fields of 23_supervision.md MGT.2-5. -/
def fields_mgt_2_5_23 : List Fld :=
  [R.MGT_STATUS_ALERT, R.MGT_STATUS_PENDING, R.MGT_STATUS_LASTCMD, R.MGT_STATUS_SEQ, R.MGT_ALERT_MASK, R.MGT_CNT0_PEC_ERR, R.MGT_CNT0_NACK, R.MGT_CNT1_REPEAT, R.MGT_CNT1_TIMEOUT, R.MGT_DBG_SCOPE, R.MGT_DBG_BY_OPTION, R.MGT_DBG_FAILS, R.MGT_DBG_LOCKOUT, R.MGT_DBG_SCAN_REF, R.MGT_DBG_HALTED]

/-! Fields of 24_register_map.md GLB -/

def R.GLB_SERIAL : Fld := ⟨0x0, 32, 0, .ro, .sticky, 4, 32⟩
def R.GLB_ID_VARIANT : Fld := ⟨0x80, 2, 0, .ro, .sticky, 1, 0⟩
def R.GLB_ID_STEPPING : Fld := ⟨0x88, 8, 0, .ro, .sticky, 1, 0⟩
def R.GLB_ID_STACKS : Fld := ⟨0x90, 3, 0, .ro, .sticky, 1, 0⟩
def R.GLB_ID_IODIES : Fld := ⟨0x94, 2, 0, .ro, .sticky, 1, 0⟩

/-- The PF BAR0 fields of 24_register_map.md GLB. -/
def fields_glb_24 : List Fld :=
  [R.GLB_SERIAL, R.GLB_ID_VARIANT, R.GLB_ID_STEPPING, R.GLB_ID_STACKS, R.GLB_ID_IODIES]

/-! Fields of 23_supervision.md THM -/

def R.THM_STATUS_STATE : Fld := ⟨0x180000, 2, 0, .ro, .full, 1, 0⟩
def R.THM_STATUS_XCHECK_PHO : Fld := ⟨0x180002, 1, 0, .ro, .full, 1, 0⟩
def R.THM_STATUS_XCHECK_PLI : Fld := ⟨0x180003, 1, 0, .ro, .full, 1, 0⟩
def R.THM_STATUS_SENS_DEGRADED : Fld := ⟨0x180004, 1, 0, .ro, .full, 1, 0⟩
def R.THM_STATUS_EXCLUDED : Fld := ⟨0x180008, 6, 0, .ro, .full, 1, 0⟩
def R.THM_STATUS_T : Fld := ⟨0x180010, 16, 0, .ro, .full, 1, 0⟩
def R.THM_SNAP : Fld := ⟨0x180020, 1, 0, .snap, .sticky, 1, 0⟩
def R.THM_SENS_READING : Fld := ⟨0x180800, 16, 0, .ro, .full, 48, 32⟩
def R.THM_SENS_INVALID : Fld := ⟨0x180810, 1, 0, .ro, .full, 48, 32⟩
def R.THM_SENS_EXCL : Fld := ⟨0x180811, 1, 0, .ro, .full, 48, 32⟩
def R.THM_SENS_ABSENT : Fld := ⟨0x180812, 1, 0, .ro, .full, 48, 32⟩

/-- The PF BAR0 fields of 23_supervision.md THM. -/
def fields_thm_23 : List Fld :=
  [R.THM_STATUS_STATE, R.THM_STATUS_XCHECK_PHO, R.THM_STATUS_XCHECK_PLI, R.THM_STATUS_SENS_DEGRADED, R.THM_STATUS_EXCLUDED, R.THM_STATUS_T, R.THM_SNAP, R.THM_SENS_READING, R.THM_SENS_INVALID, R.THM_SENS_EXCL, R.THM_SENS_ABSENT]

/-- Every register field of PF BAR0 (MAP.2-MAP.5). -/
def pfFields : List Fld :=
  fields_pwr_4_6_7_03 ++
  fields_rst_2_4_5_7_8_04 ++
  fields_bot_3_bot_7_05 ++
  fields_fst_1_06 ++
  fields_cad_4_cad_6_07 ++
  fields_pln_8_08 ++
  fields_orc_6_09 ++
  fields_hld_3_hld_7_10 ++
  fields_qnt_8_11 ++
  fields_mem_7_12 ++
  fields_hif_4_hif_7_13 ++
  fields_ing_3_ing_6_15 ++
  fields_coi_4_coi_6_16 ++
  fields_trg_6_17 ++
  fields_aet_5_aet_6_18 ++
  fields_sad_6_8_19 ++
  fields_lpe_9_20 ++
  fields_qps_7_21 ++
  fields_ras_1_4_23 ++
  fields_mgt_2_5_23 ++
  fields_glb_24 ++
  fields_thm_23

/-- Every field of a client set-up page (MAP.6). -/
def pageFieldsAll : List Fld :=
  pageFields_hif_4_hif_7_13 ++
  pageFields_rng_1_14

end Sys2Proof.Machine
end

