-- ==== Sys2Proof/Machine/State.lean ====
section
/-!
DEFINITION. The state of the block as plain data, its value after reset, and the two closed types of the reasons a
step can stop. Register fields live in one sparse table (`Dev.regs`, RegMap.lean); every other piece of state the
spec gives has a field in the structure of its chapter. The default of every field is its value at reset.
-/

namespace Sys2Proof.Machine

/-- Reaches that an episode can have, wide to narrow (R7, RST.1). -/
inductive Reach where
  | full | device | warm
deriving DecidableEq, Repr

/-- One rail in the up and down sequences of PWR.3. -/
inductive RailState where
  | off | ramping | up | discharging
deriving DecidableEq, Repr

/-- What the power sequencer is doing (R109, R112, R128). -/
inductive PwrSeq where
  | idle
  | rising (retry : Bool)
  | falling
deriving DecidableEq, Repr

/-- On-module power delivery beyond its registers (chapter 03). Rails 0 VCORE, 1 VSRAM, 2 VHEAT, 3 VPHO. -/
structure Power where
  /-- VAUX is valid (R99). -/
  vaux : Bool := false
  /-- VIN12 is valid (R97). -/
  vin12 : Bool := false
  /-- VIN12 has been valid since VAUX last became valid (RST.2, R98). -/
  vin12Seen : Bool := false
  /-- The LVDS regulator is in regulation (R64). -/
  lvds : Bool := false
  /-- The four rails. -/
  rails : List RailState := [.off, .off, .off, .off]
  /-- The up or down sequence in progress. -/
  seq : PwrSeq := .idle
  /-- Consecutive faulted cycles of each leg (R117). -/
  consec : List Nat := List.replicate 34 0
  /-- Number of the last faulted switching cycle of each leg, one based; 0 for none. -/
  lastCycle : List Nat := List.replicate 34 0
  /-- Beat of each leg's last fault instant (R115). -/
  faultAt : List (Option Nat) := List.replicate 34 none
  /-- Legs released by PWR_LEG_RELEASE that return at the next seam (R120). -/
  returning : List Nat := []
  /-- nFAULT is asserted (R124). -/
  nFault : Bool := false
  /-- Rail whose RAIL_RETRY up sequence is running (R128). -/
  retry : Option Nat := none
  /-- A leg latched and the rail's capacity has not been compared yet (R118). -/
  rebalancing : List Nat := []
deriving DecidableEq, Repr

/-- Sources of FULL, DEVICE and WARM reach, in the order of their RST_CAUSE bits (RST.2). -/
inductive Src where
  | por | bor | pin | mgmt | host | therm | regFault | wdogBoot | wdogFw | perst | hot | ldn
deriving DecidableEq, Repr

/-- Where an episode stands: its hold, then the exit sequence of its reach (RST.3, RST.7). -/
inductive EpPhase where
  | hold | softStart | otp | strap | strapHalted | romWait | rom
deriving DecidableEq, Repr

/-- An episode in progress (R153-R159). -/
structure Episode where
  /-- E0, as a beat. -/
  start : Nat
  reach : Reach
  /-- RST_CAUSE bits of the sources that joined. -/
  joined : Nat
  phase : EpPhase
  /-- H, as a beat; 0 during the hold. -/
  h : Nat := 0
deriving DecidableEq, Repr

/-- A block reset: asked to idle, or in reset (R169-R172). -/
inductive BlkPhase where
  | requested | inReset
deriving DecidableEq, Repr

/-- Reset control beyond its registers (chapter 04). -/
structure Rst where
  /-- The episode in progress; after power-on the FULL episode of VAUX. -/
  ep : Option Episode := none
  /-- Level sources now asserted. -/
  asserted : List Src := []
  /-- PERST_N level recognised after its filter. -/
  perstHigh : Bool := false
  /-- PERST_N seen high since the last FULL or DEVICE reach (R146). -/
  perstSeen : Bool := false
  /-- nRST_IN level recognised after its filter. -/
  nrstHigh : Bool := true
  /-- The block reset requested through RST_BLK_CTL. -/
  blk : Option (Nat × BlkPhase) := none
  /-- The BLOCK reach of HIF of R149 (R1010). -/
  hot : Option BlkPhase := none
  /-- Clients in a FUNCTION reach (R141). -/
  flr : List Nat := []
  /-- Clients whose Function Level Reset waits for the end of a BLOCK reset of HIF (R174). -/
  flrDue : List Nat := []
  /-- Clients whose FUNCTION reach has come to its own end during a reset of HIF (R620). -/
  flrEnd : List Nat := []
  /-- Beats at which the block reset, and the BLOCK reach of HIF of R149, entered reset. -/
  blkAt : Nat := 0
  hotAt : Nat := 0
  /-- Beat at which the last episode ended (R250). -/
  endAt : Nat := 0
  /-- REFCLK is watched (R182). -/
  refWatch : Bool := false
  /-- REFCLK was lost outside a FULL or DEVICE exit sequence (MOD.4). -/
  refLost : Bool := false
  /-- The last strap step failed for CLK_MODE 0b11 (R83), or for REFCLK (R84). -/
  strapInvalid : Bool := false
  refclkFail : Bool := false
  /-- The selected option block, 256 bytes; empty for the built-in defaults (R185, R186). -/
  opt : List Nat := []
  /-- I/O die 1 failed its start-up checks (R20). -/
  ioDie1Failed : Bool := false
deriving DecidableEq, Repr

/-- The boot watchdog (R195, R196). -/
inductive Wdog where
  | off | running | suspended
deriving DecidableEq, Repr

/-- One step class of a running update command (BOT.5, PLN.7). -/
inductive UpdPhase where
  | erase | program | readBack | hashing | record | fuses | otpBurn
deriving DecidableEq, Repr

/-- The update command in progress: its ring, what it does, and how far it is (R226). -/
structure UpdJob where
  /-- OPCODE of the command; 0 for the firmware's own fallback record or automatic confirmation. -/
  op : Nat
  ring : Nat
  target : Nat := 0
  offset : Nat := 0
  data : List Nat := []
  /-- Bytes of the chunk, of the record or of the fuses already done. -/
  pos : Nat := 0
  phase : UpdPhase
  result : Nat := 0
deriving DecidableEq, Repr

/-- Boot and update beyond their registers (chapter 05). -/
structure Boot where
  wdog : Wdog := .off
  /-- Slot chosen by the boot ROM: 0 A, 1 B, 2 the recovery bundle. -/
  sel : Option Nat := none
  /-- The recovery bundle that was read (R203). -/
  bundle : List Nat := []
  /-- A recovery read is outstanding. -/
  rcvBusy : Bool := false
  /-- SHA-384 of each target's header at its last FW_VERIFY (FW_ACTIVATE refusals). -/
  verifiedHash : List (List Nat) := [[], [], [], []]
  /-- The update command in progress. -/
  job : Option UpdJob := none
  /-- Control cores that stopped reporting: halted by an uncorrectable error (R973). -/
  dead : List Nat := []
  /-- A fallback record is still to be written before FW_READY (R231). -/
  fallbackDue : Bool := false
  /-- Control cores are running. -/
  cores : Bool := false
  /-- Firmware memory holds the bundle rather than a slot (R204). -/
  fromHost : Bool := false
deriving DecidableEq, Repr

/-- The optical start and the start-up timeline beyond GLB_START (chapter 06). -/
structure Start where
  /-- Quick calibration passes done (R261). -/
  passes : Nat := 0
  /-- Quick calibration has ended since the last optical start. -/
  qcalDone : Bool := false
deriving DecidableEq, Repr

/-- A good timing frame: its phase and the instant in ns it refers to (R282, R293). -/
structure TfMark where
  phase : Nat
  at_ : Nat
deriving DecidableEq, Repr

/-- An accepted input edge, or a good timing frame, that has not taken effect yet (R273, R290). -/
inductive EdgeKind where
  | count (forward pinB : Bool) (stamp : Nat)
  | index
  | pulse
  | sync (rising : Bool)
  | frame (m : TfMark)
deriving DecidableEq, Repr

/-- An edge and the beat from which it affects the phase word. -/
structure Edge where
  eff : Nat
  kind : EdgeKind
deriving DecidableEq, Repr

/-- One phase source (CAD.3): motion state (0 FORWARD, 1 STALLED, 2 REVERSE), runs of forward and reverse steps, and
the beat of its last step. -/
structure PSrc where
  motion : Nat := 1
  fwdRun : Nat := 0
  revRun : Nat := 0
  stepBeat : Nat := 0
deriving DecidableEq, Repr

/-- A row that fired and whose action is still to take effect (R316): the firing beat, whether the state in which the
action comes is FORWARD and phase-valid, and the row's bytes. -/
structure Fired where
  row : Nat
  beat : Nat
  fwd : Bool
  bytes : List Nat
deriving DecidableEq, Repr

/-- Phase timebase beyond its registers (chapter 07). -/
structure Cad where
  /-- Decoding has begun (R250). -/
  acq : Bool := false
  /-- Source that drives the phase word (R308): 0 timer, 1 encoder, 2 timing frame, 3 pulse. -/
  src : Nat := 0
  /-- A host wrote CAD_CTL.SRC, to act at the next start-up frame boundary (R308). -/
  srcPending : Bool := false
  /-- The four sources, by the code of CAD_CTL.SRC. -/
  srcs : List PSrc := [{ motion := 0 }, {}, {}, {}]
  /-- Edges that wait to take effect, oldest first (R273). -/
  edges : List Edge := []
  /-- Pin (true CAD_B) and stamp in ns of the last accepted edge that is still alone (R275). -/
  encEdge : Option (Bool × Nat) := none
  /-- Encoder cycle count; the position is CAD_ENC_POS. -/
  encCycle : Nat := 0
  /-- Beats of the last nine forward counts at most since the measurement restarted, newest first (R292). -/
  encMarks : List Nat := []
  /-- Beat at which the last count took effect. -/
  encBeat : Nat := 0
  /-- The interpolation e kept while not FORWARD, in 2^-16 (R292). -/
  encE : Nat := 0
  /-- Counts accepted in the current 250-beat window, and in the one before (R277). -/
  encRate : Nat := 0
  encRateEnd : Nat := 0
  /-- Consecutive indexes that failed the window check (R280). -/
  idxMiss : Nat := 0
  /-- Good timing frames in a row with consecutive cycle counts, the last CYCLE, and the beat from which TO_US runs
  (R251, R283). -/
  tfRun : Nat := 0
  tfCycle : Option Nat := none
  tfBeat : Nat := 0
  /-- The last good frame, and the last two that advanced, newest first (R293). -/
  tfMark : Option TfMark := none
  tfAdv : List TfMark := []
  /-- Pulse input: cycle count, beat of the last accepted pulse, last period, periods in range (R285, R286, R295). -/
  plCycle : Nat := 0
  plBeat : Option Nat := none
  plPeriod : Option Nat := none
  plGood : Nat := 0
  /-- Internal timer: cycle and beats since the cycle began (R287). -/
  tmCycle : Nat := 0
  tmBeat : Nat := 0
  /-- Beat of the last change of source or return to phase-valid, for CAD_PERIOD. -/
  perRef : Nat := 0
  /-- The next change of the phase word takes its new value and fires no row (R1016). -/
  noFire : Bool := true
  /-- The high-water mark takes the phase word of the next beat (R301, R1016). -/
  hwmSet : Bool := false
  /-- Stamp in ns of the last SETP_P edge (R288). -/
  setpEdge : Option Nat := none
  /-- Beat at which it was accepted. -/
  setpAt : Option Nat := none
  /-- Rows that fired and whose action is still to take effect, in the order of R315. -/
  fired : List Fired := []
  /-- Beat of the last LOOP_SAMPLE firing, and of the last counting one (R331). -/
  loopFire : Option Nat := none
  loopCount : Option Nat := none
  /-- HOLD_TIMING: F of R331, the beat of the entry, and of the last held sample. -/
  holdF : Nat := 0
  holdAt : Nat := 0
  holdLast : Option Nat := none
  /-- Beat of the firing whose frame start is due or held (R322). -/
  due : Option Nat := none
  /-- A PLAN_ARM row has acted since the pending arm was admitted (R334). -/
  armGate : Bool := false
  /-- Beat of the first firing of a FRAME_START row of the target (R1014). -/
  targetGate : Option Nat := none
  /-- The phase event table in force: 16-byte rows, all-zero rows not listed. -/
  table : Sparse (List Nat) := []
deriving DecidableEq, Repr

/-- A token of the running frame (R370, R371). -/
inductive TokenState where
  | empty | valid | invalid
deriving DecidableEq, Repr

/-- The pending PLAN_ARM (R384-R387). -/
structure Arm where
  ring : Nat
  /-- Its command's sequence number. -/
  seqNo : Nat
  /-- Admission steps still to run (PLN.7). -/
  steps : Nat := 0
  /-- 0 the standby Maquette, 1 the active one. -/
  target : Nat
  /-- 0 admission, 1 frame boundary, 2 PLAN_ARM row, 3 FRAME_START row. -/
  wait : Nat
deriving DecidableEq, Repr

/-- A PLAN_STAGE in progress (R382). -/
structure Staging where
  ring : Nat
  seqNo : Nat
  /-- Admission steps run (PLN.7). -/
  checks : Nat := 0
deriving DecidableEq, Repr

/-- A row change that waits for the next frame boundary, in the order in which the commands started (R318, R660,
R661). -/
structure TableChange where
  client : Nat
  /-- Sequence number of its command. -/
  seqNo : Nat
  tbl : Nat
  row : Nat
  /-- The row; empty until it has been read. -/
  bytes : List Nat
deriving DecidableEq, Repr

/-- Plans, frames, slots and seams beyond the SEQ registers (chapter 08). -/
structure Seq where
  /-- The active and standby Maquettes: the image from the first byte of its header, empty for none. -/
  active : List Nat := []
  standby : List Nat := []
  /-- For main, safe and cool of each Maquette, the plan index chosen at staging (R379). -/
  actForms : List Nat := []
  sbyForms : List Nat := []
  /-- Index of the running plan, and whether a plan runs. -/
  plan : Nat := 0
  /-- Physical tile of each logical tile of the running form (R378). -/
  tileMap : List Nat := []
  /-- Frames begun since the running plan took effect (R389). -/
  frameNo : Nat := 0
  /-- First beat of the frame in which the running plan took effect (R804). -/
  planAt : Nat := 0
  /-- First beat of the running frame; none between frames. -/
  frameAt : Option Nat := none
  /-- Beat at which the last frame ended. -/
  frameEnd : Nat := 0
  /-- Status bits of the running frame (PLN.4). -/
  status : Nat := 0
  /-- Tokens of the running frame. -/
  tokens : Sparse TokenState := []
  /-- Buffer slot taken by each token of the running frame, plus one (R540). -/
  slots : Sparse Nat := []
  /-- FETCH items issued and not yet arrived, each with the head H of its window at its START (R573). -/
  inflight : List (Nat × Nat) := []
  /-- Block shifts of the quantised tokens of the running frame: those of the scale token each was made with. -/
  scales : Sparse (List Nat) := []
  /-- Items done in the running frame. -/
  doneItems : List Nat := []
  /-- The seam in progress: its first beat. -/
  seamAt : Option Nat := none
  /-- This seam cuts the frame and moves to the safe plan, or enters HALTED. -/
  moving : Bool := false
  halting : Bool := false
  /-- HOT was entered and the cool move waits for the frame boundary (R43). -/
  coolPending : Bool := false
  /-- HALTED at the next frame boundary, for the plan store (R971). -/
  haltPending : Bool := false
  /-- The active move to the safe plan is due to a shortfall (SAFE_FORCED). -/
  shortfallMove : Bool := false
  arm : Option Arm := none
  staging : Option Staging := none
  /-- Table changes that wait for the frame boundary. -/
  changes : List TableChange := []
  /-- PLAN_ARM commands whose completion waits for the first HOUSEKEEPING slot (R391): sequence number and result. -/
  armDone : List (Nat × Nat) := []
  /-- Beat of the frame up to which steps have used the housekeeping engine (key 0) and client c's slots (key c + 1). -/
  used : Sparse Nat := []
  /-- Last step of each client in HOUSEKEEPING slots (key 2c + 1), in its CLIENT slots (key 2c) and in the calibration
  reserve (key 1000 + c): beat at which it began, and ring (R399, R670). -/
  turn : Sparse (Nat × Nat) := []
  /-- The fixed items of the frame's first HOUSEKEEPING slot have run (R358). -/
  hkpDone : Bool := false
  /-- Client commands whose tile steps were assigned at the last seam (R938): client and sequence number. -/
  assigned : List (Nat × Nat) := []
  /-- STARTs of the HOUSEKEEPING slots of this frame in which a commit step has run (R950). -/
  commits : List Nat := []
deriving DecidableEq, Repr

/-- Orchard tiles beyond the OPT registers (chapter 09). -/
structure Opt where
  /-- Carrier line of each channel, for each engine (R405). -/
  chanMap : List (List Nat) := [List.range 64, List.range 64]
  /-- Content of the WEIGHTS section in the active and in the shadow DAC registers of each physical tile (R421);
  empty where none was loaded. -/
  act : List (List Nat) := List.replicate 16 []
  shadow : List (Option (List Nat)) := List.replicate 16 none
  /-- Drive codes in the active and in the shadow registers (R421, R423): 64 for each of the 257 physical rows; empty
  where undefined. -/
  drive : List (List Nat) := List.replicate 16 []
  shDrive : List (List Nat) := List.replicate 16 []
  /-- Section index each tile holds, plus one. -/
  actSec : List Nat := List.replicate 16 0
  shSec : List Nat := List.replicate 16 0
  /-- Tiles whose buffer had an uncorrectable error in the last seam's drain (R972). -/
  spoiled : List Nat := []
deriving DecidableEq, Repr


/-- A line replacement (a spare line takes a channel of an engine) or a modulator replacement (a standby takes a
channel of a tile) in progress (R471-R476). -/
structure Repl where
  /-- A modulator of tile `unit`, else a line of engine `unit`. -/
  modulator : Bool
  unit : Nat
  channel : Nat
  /-- Spare line or standby modulator, 64 or 65. -/
  spare : Nat
  /-- Beat of the flag or fault. -/
  at_ : Nat
  /-- Seam A has passed. -/
  moved : Bool := false
  /-- Rings that have had their two consecutive in-window visits since seam A, and those that have had one: 16512
  times the tile, plus the ring's index. -/
  holds : List Nat := []
  once : List Nat := []
  /-- Visits of each ring since seam A. -/
  visits : Sparse Nat := []
deriving DecidableEq, Repr

/-- Holding, rotation and monitors beyond the CAL registers (chapter 10). Rows are keyed by 257 times the tile plus the
physical row, held rings by 16512 times the tile plus the index of R446. -/
structure Cal where
  /-- Curves (256 entries of 16 bits), row gains times 16384, and the pass count when each was written. -/
  curves : Sparse (List Nat) := []
  gains : Sparse Nat := []
  passAt : Sparse Nat := []
  /-- Curve and gain of the swept row that wait to be written, and the reserve beats spent on them (R458). -/
  swept : List (Option (List Nat × Nat)) := List.replicate 16 none
  spent : List Nat := List.replicate 16 0
  /-- The writes of the dwell are complete (R459). -/
  written : List Bool := List.replicate 16 false
  /-- Beat at which the dwell of each tile began; none when it begins at the next remap beat (R456, R494). -/
  dwellAt : List (Option Nat) := List.replicate 16 none
  /-- Consecutive out-of-window visits of each held ring (R451). -/
  outRun : Sparse Nat := []
  /-- Consecutive M0 samples of each line below 2.0 mW, and the lines flagged lost: 66 times the engine plus the line. -/
  m0Run : Sparse Nat := []
  lost : List Nat := []
  repls : List Repl := []
  /-- Modulators that failed: 66 times the tile plus the modulator. -/
  modFailed : List Nat := []
  /-- Row of each tile whose fault waits for the next seam, with the beat of the fault (R479). -/
  rowDue : List (Option (Nat × Nat)) := List.replicate 16 none
  /-- Last readings in microwatt: 66 lines of each engine, 276 monitors of each tile (M1, M2, M3 groups, M4 rows). -/
  m0 : List (List Nat) := [[], []]
  mon : List (List Nat) := List.replicate 16 []
  /-- References (R467): the reading of each monitor and that of its denominator, by 276 times the tile plus the
  monitor; and of each line by 66 times the engine plus the line. -/
  refNum : Sparse Nat := []
  refDen : Sparse Nat := []
  refM0 : Sparse Nat := []
  /-- Consecutive samples of each ratio at least 1.0 dB and 3.0 dB low (R468). -/
  warnRun : Sparse Nat := []
  faultRun : Sparse Nat := []
  /-- RECAL_ROW commands that wait for the remap beat: client, sequence number, tile and row. -/
  recal : List (Nat × Nat × Nat × Nat) := []
deriving DecidableEq, Repr
/-- Memories beyond the MEM and DMU registers (chapter 12). Tier bytes not written since the last FULL or DEVICE
reach are undefined: they read as a free value of that reach (R139, R1008). -/
structure Mem where
  /-- Tier 1 and Tier 2 bytes written since the last FULL or DEVICE reach, and that reach's number. -/
  t1 : Sparse Byte := []
  t2 : Sparse Byte := []
  era : Nat := 0
  /-- Staging SRAM, buffer area; zero where not listed. -/
  stg : Sparse Byte := []
  /-- Poisoned 64-byte granules, by granule number (R567): tiers hold a mark for each written granule. -/
  t1Mark : Sparse Bool := []
  t2Mark : Sparse Bool := []
  stgMark : Sparse Bool := []
  /-- Active and standby halves of the tile buffers: tile t at 0x80000 * t; zero where not listed. -/
  tileAct : Sparse Byte := []
  tileSby : Sparse Byte := []
  /-- Uncorrectable errors seen on each Tier 2 channel and Tier 1 stack with their beats, newest first (R557, R558). -/
  t2Errs : List (Nat × Nat) := []
  t1Errs : List (Nat × Nat) := []
  /-- Correctable Tier 2 errors that wait for a maintenance window: byte offsets, oldest first (R1009). -/
  writeBacks : List Nat := []
  /-- Beats until which a stack, or a channel, stalls for refresh or maintenance. -/
  t1Stall : List Nat := [0, 0, 0, 0, 0, 0]
  t2Stall : List Nat := [0, 0, 0, 0, 0, 0, 0, 0]
  /-- Beat at which each Tier 2 channel's training ended (R1009). -/
  t2Trained : List Nat := [0, 0, 0, 0, 0, 0, 0, 0]
deriving DecidableEq, Repr

/-- Errors logged through AER (HIF.6). -/
inductive AerErr where
  | receiver | badTlp | badDllp | replayTimeout | replayRollover
  | dataLink | flowControl | overflow | malformed
  | poisoned | cplTimeout | unexpectedCpl | unsupported | hdrOverflow
deriving DecidableEq, Repr

/-- The configuration registers of one function that the rules use (HIF.2, HIF.4-HIF.6). -/
structure Fn where
  /-- Bus Master Enable, Memory Space Enable. -/
  bme : Bool := false
  mse : Bool := false
  /-- MSI-X Enable and Function Mask. -/
  msixEn : Bool := false
  fmask : Bool := false
  /-- Max_Payload_Size and Max_Read_Request_Size (R591, R596). -/
  mps : Nat := 128
  mrrs : Nat := 512
  /-- AER status bits set, and the first header logged. -/
  aer : List AerErr := []
  hdr : Option (List Nat) := none
deriving DecidableEq, Repr

/-- Host link and functions beyond the HIF registers (chapter 13). -/
structure Hif where
  /-- Configuration registers of the functions that differ from their defaults; 0 the PF, n VF n. -/
  fns : Sparse Fn := []
  /-- VF Enable, NumVFs as written, and whether the enabled VFs answer yet (R597). -/
  vfEnable : Bool := false
  numVfs : Nat := 0
  vfReady : Bool := false
  /-- The link has been DL_Active since the last reset exit (R148). -/
  dlSeen : Bool := false
  /-- Event classes with an event since the last message (R607). -/
  evtDue : Nat := 0
  /-- Vectors whose completion-ring interrupt is due: (function, vector). -/
  vecDue : List (Nat × Nat) := []
  /-- A BLOCK reach of HIF has come from the link: the PF answers without CRS once the link is up (R622). -/
  noCrs : Bool := false
deriving DecidableEq, Repr

/-- How far a fetched command is (R643, R668). -/
inductive CmdPhase where
  /-- Read issued; arrived and ready; started with steps left; finished its steps and waiting for a boundary. -/
  | issued | ready | running | waiting
  /-- Decided: its completion waits to be posted. -/
  | done
deriving DecidableEq, Repr

/-- What a TRAIN_STEP has counted (RTN.5): valid and invalid runs, groups initialised as a mask, elements clipped and not
finite, codes changed, and its outcome. -/
structure TrainProg where
  valid : Nat := 0
  invalid : Nat := 0
  reinit : Nat := 0
  aClip : Nat := 0
  wClip : Nat := 0
  mClip : Nat := 0
  vClip : Nat := 0
  nonfinite : Nat := 0
  changed : Nat := 0
deriving DecidableEq, Repr

/-- A command from its descriptor read to its completion record (R641-R651). -/
structure Cmd where
  ring : Nat
  /-- Consumer index of the descriptor (R642). -/
  index : Nat
  /-- The client's sequence number. -/
  seqNo : Nat
  desc : List Nat := []
  phase : CmdPhase := .issued
  /-- Steps used and bytes moved or runs done. -/
  steps : Nat := 0
  pos : Nat := 0
  /-- Bytes of the host reads issued and not yet answered. -/
  awaiting : Nat := 0
  /-- Data held for the command: a section image, a table row, the codes of a group. -/
  data : List Nat := []
  /-- Sub-state of a long command: which step comes next. -/
  stage : Nat := 0
  /-- A result of it was invalid (OK_DEGRADED). -/
  degraded : Bool := false
  /-- Beat at which its descriptor arrived (R643). -/
  readyAt : Nat := 0
  /-- Bytes that the present transfer moves. -/
  total : Nat := 0
  /-- Counts of a TRAIN_STEP. -/
  tr : TrainProg := {}
  /-- Host writes to be issued with its completion record, before it (R650). -/
  outs : List (Nat × List Nat) := []
  status : Nat := 0
  result : Nat := 0
  detail : Nat := 0
  stamp : Nat := 0
  halt : Bool := false
  /-- Entered in the tag window when posted (R676). -/
  tagged : Bool := true
deriving DecidableEq, Repr

/-- One entry of a ring's tag window (R674, R675). -/
structure TagEntry where
  ring : Nat
  tag : Nat
  status : Nat
  result : Nat
deriving DecidableEq, Repr

/-- Rings, doorbells and commands of one client beyond its set-up page (chapter 14). -/
structure Client where
  /-- Fetched commands not yet posted, in sequence order. -/
  cmds : List Cmd := []
  nextSeq : Nat := 0
  /-- Tag windows, newest first. -/
  tags : List TagEntry := []
  /-- Producer indexes of the last record that was accepted. -/
  pi : List Nat := [0, 0, 0, 0, 0, 0, 0, 0]
  /-- A doorbell read is outstanding (R636), and a record that arrived waits (R637). -/
  polling : Bool := false
  record : Option (List Nat) := none
  /-- Poll occasions since RNG_CTL.EN became 1 (R635). -/
  occasions : Nat := 0
  /-- Rings that become OFF on reaching STOPPED (R631). -/
  offAfter : List Nat := []
  /-- For each completion ring: records since its last message, beat of the oldest, IRQ_NOW seen (R685). -/
  unrep : List Nat := [0, 0, 0, 0, 0, 0, 0, 0]
  oldest : List (Option Nat) := [none, none, none, none, none, none, none, none]
  irqNow : List Bool := [false, false, false, false, false, false, false, false]
deriving DecidableEq, Repr


/-- A capture window that is not final yet (ING.4). -/
structure Win where
  num : Nat
  openAt : Nat
  openPhase : Nat
  startWp : Nat
  /-- Feature set of the window: frame of the running plan in which it opened; none when it contributes no hits. -/
  set : Option Nat
  closeAt : Option Nat := none
  closePhase : Nat := 0
  closeSeq : Nat := 0
  grace : Nat := 0
  frames : Nat := 0
  bytes : Nat := 0
  missing : Nat := 0
  status : Nat := 0
  /-- Beat from which the TIMEOUT count of R710 runs. -/
  mark : Nat
deriving DecidableEq, Repr

/-- A hit on its way to the coincidence stage (R705, R706). -/
structure Hit where
  stream : Nat
  win : Nat
  set : Option Nat
  ch : Nat
  t : Nat
  amp : Nat
  /-- Beat of its frame's arrival, and the raw ring and position of its FRAGMENT record. -/
  at_ : Nat
  ring : Nat
  pos : Nat
deriving DecidableEq, Repr

/-- One stream beyond its STP registers. -/
structure Stream where
  wins : List Win := []
  nextWin : Nat := 0
  /-- X of R702. -/
  expect : Nat := 0
deriving DecidableEq, Repr

/-- Stream ingress beyond the STP registers (chapter 15). -/
structure Ing where
  streams : List Stream := List.replicate 16 {}
  /-- Hits of each I/O die that wait for extraction, oldest first. -/
  queues : List (List Hit) := [[], []]
  /-- Format table in force, the beat from which it is, and the table before it (R699). -/
  formatsAt : Nat := 0
  formatsOld : List (List Nat) := []
  formats : List (List Nat) := []
deriving DecidableEq, Repr

/-- Learned state of one channel (COI.3, COI.5). -/
structure LauCh where
  w : Int := 0
  d : Nat := 0
  cw : Int := 0
  cd : Nat := 0
  x : Nat := 0
  s : Nat := 0
deriving DecidableEq, Repr

/-- A hit in a feature set: channel, corrected time, and the amplitude of R732 (R726, R727). -/
structure SetHit where
  ch : Nat
  u : Nat
  a : Nat
deriving DecidableEq, Repr

/-- A feature set from the opening of its first window to its commit (COI.2-COI.5). -/
structure FSet where
  n : Nat
  /-- Phase word at the opening of its first window. -/
  phase : Nat := 0
  hasWin : Bool := false
  /-- Windows of the set that are not final, and the beat at which the last became final. -/
  live : Nat := 0
  lastFinal : Nat := 0
  /-- REQUIRED streams of which a window opened, as a mask, and whether a window of one was faulted. -/
  opened : Nat := 0
  faulted : Bool := false
  hits : List SetHit := []
  /-- Weights and delays in force for its hits (R728). -/
  chans : List (Int × Nat) := []
  /-- Frame n is UNANCHORED. -/
  unanch : Bool := false
  /-- Elements counted in ACC_SAT. -/
  sat : Nat := 0
  complete : Bool := false
  abandoned : Bool := false
  invalid : Bool := false
  /-- The set was evaluated at a boundary (R747). -/
  evaluated : Bool := false
  late : Bool := false
deriving DecidableEq, Repr

/-- The updates of a set that wait for their commit (R748): the set, the new weight and delay of each channel, and the
channels that counted in CLAMPS. -/
structure LauPend where
  n : Nat
  vals : List (Int × Nat)
  clamps : Nat
deriving DecidableEq, Repr

/-- Coincidence stage and LAU beyond the LAU registers (chapter 16). -/
structure Lau where
  chans : List LauCh := []
  sets : List FSet := []
  pend : List LauPend := []
  /-- Traces and stamps that the evaluations since the last boundary leave (R740, R741, R756). -/
  traces : Option (List (Nat × Nat)) := none
  /-- Rule rows in force. -/
  rules : List (List Nat) := []
  /-- LAU_CTL writes that wait for the next boundary (R752). -/
  freeze : Option Bool := none
  rollback : Bool := false
  rebase : Bool := false
  ckpt : Bool := false
  /-- A block reset acts at the next boundary (R757). -/
  blockDue : Bool := false
deriving DecidableEq, Repr

/-- One segment of a path, from its event's copy into retention until CUM passes it (R798-R801). -/
structure AetSeg where
  num : Nat
  /-- The event: its count in the flow, and its EVENT number. -/
  ev : Nat
  evNo : Nat
  off : Nat
  len : Nat
  first : Bool
  last : Bool
  /-- Position of its bytes in the retention region, and the beat at which its copy ended. -/
  pos : Nat
  retAt : Nat
  /-- Beat at which it was last sent. -/
  sentAt : Option Nat := none
  /-- Due for retransmission: 0 not, 1 by a timeout, 2 by a SACK bitmap (R805). -/
  due : Nat := 0
deriving DecidableEq, Repr

/-- One AET path beyond its AET registers. -/
structure AetPath where
  segs : List AetSeg := []
  /-- Number of the next segment cut from an event. -/
  newNum : Nat := 0
  /-- SACK bitmap and WIN of the last ACK; no WIN has come yet. -/
  sack : Nat := 0
  win : Option Nat := none
  /-- Consecutive timeouts with no advance of CUM (R803). -/
  timeouts : Nat := 0
  /-- Beat of the last HELLO since HELLO was entered, and of the last datagram sent. -/
  helloAt : Option Nat := none
  lastTx : Nat := 0
  /-- Write position of the retention region. -/
  wpos : Nat := 0
deriving DecidableEq, Repr

/-- An event in a flow's send queue (R797, R798): its count, EVENT number, queue position and length. -/
structure AetEvt where
  ev : Nat
  evNo : Nat
  pos : Nat
  len : Nat
deriving DecidableEq, Repr

/-- One AET flow. -/
structure AetFlow where
  queue : List AetEvt := []
  /-- Count e of the next event, and write position of the send queue. -/
  count : Nat := 0
  wpos : Nat := 0
deriving DecidableEq, Repr

/-- Event transport beyond the AET registers (chapter 18). -/
structure Aet where
  paths : List AetPath := List.replicate 32 {}
  flows : List AetFlow := List.replicate 8 {}
  /-- Beat until which PFC pauses each port (R794). -/
  paused : List Nat := List.replicate 16 0
deriving DecidableEq, Repr

/-- A stream's part of a trigger set's ledger (TRG.5): windows of one frame, START_WP of the first, and the position
past the CLOSE record of the last; none while that window is not final. -/
structure Ledg where
  frame : Nat
  stream : Nat
  ring : Nat
  first : Nat
  last : Nat
  start : Nat
  endP : Option Nat := none
deriving DecidableEq, Repr

/-- A set in the build queue (R778). -/
structure QSet where
  /-- Frame of the running plan in which it was decided; none once another plan runs. -/
  decFrame : Option Nat
  /-- Decision record, PLAN_ID, and EVENT number. -/
  rec_ : List Nat
  planId : Nat
  event : Nat
  unanch : Bool
  degraded : Bool := false
  /-- BUILD_STREAMS and the ledger of its windows. -/
  streams : Nat
  ledger : List Ledg
  /-- Frame of the running plan whose windows it names; none once another plan runs. -/
  setFrame : Option Nat
deriving DecidableEq, Repr

/-- How far the event at the head of the queue is built: bytes after its header, the next stream, and of the stream's
block its records' bytes, their number, the ring position and whether one was left out. -/
structure Bld where
  begun : Bool := false
  out : List Nat := []
  stream : Nat := 0
  inBlock : Bool := false
  recs : List Nat := []
  nrec : Nat := 0
  pos : Nat := 0
  partBlock : Bool := false
  part : Bool := false
deriving DecidableEq, Repr

/-- The decision of the running frame until its decision beat (R769). -/
structure Decided where
  rec_ : List Nat
  lines : Nat
  accepted : Bool
  valid : Bool
  early : Bool
deriving DecidableEq, Repr

/-- Trigger service beyond the TRG registers (chapter 17). -/
structure Trg where
  /-- Fire counts k_b and the INVAL_KEEP count (R764, R778). -/
  fires : List Nat := List.replicate 16 0
  keep : Nat := 0
  decided : Option Decided := none
  /-- Values that PHASE lines hold (R770). -/
  held : List (Option Bool) := List.replicate 8 none
  /-- End of the pulse on each line; none while the line is idle. -/
  pulses : List (Option Nat) := List.replicate 8 none
  /-- Ledger of the windows of the last frames, and stamp and UNANCHORED of those frames. -/
  ledger : List Ledg := []
  frames : List (Nat × Nat × Bool) := []
  queue : List QSet := []
  /-- Events queued since the last WARM or wider reach. -/
  events : Nat := 0
  bld : Bld := {}
  /-- Bytes a BUILD item may still move beyond what it moved, below one unit. -/
  credit : Nat := 0
deriving DecidableEq, Repr

/-- One channel of SA0-SA11 (SAD.4): first beat of its conversion since the last sync (none while it does not
convert), converter words since then, words delivered since then, and whether a burst runs. -/
structure SadCh where
  edge0 : Option Nat := none
  words : Nat := 0
  sent : Nat := 0
  burst : Bool := false
  /-- Beat of the last word's delivery since the last sync. -/
  lastAt : Nat := 0
deriving DecidableEq, Repr

/-- An urgent request that has not been acted on (R847): its channel, the beat of the request, and whether the Loop
Engine made it. -/
structure UrgReq where
  ch : Nat
  at_ : Nat
  loop : Bool
deriving DecidableEq, Repr

/-- Sensing ADC beyond the SAD registers (chapter 19). -/
structure Sad where
  chans : List SadCh := List.replicate 12 {}
  urg : List UrgReq := []
  /-- Words delivered on SA12-SA15 since they began, modulo 8. -/
  supSeq : List Nat := [0, 0, 0, 0]
  /-- Phase stamps of the last beats, newest first: what a word's instant is stamped with (R830). -/
  stamps : List (Nat × Nat) := []
deriving DecidableEq, Repr

/-- A running solve (QPS.2, QPS.3): its problem section, parameters, the iterates as binary32 patterns, and what its
statistics record will hold. -/
structure QRun where
  /-- Client and sequence number of its command; none for a loop solve. -/
  owner : Option (Nat × Nat)
  sec : List Nat
  theta : List Nat
  /-- Start beat S, and phase stamp of the sample. -/
  start : Nat
  stamp : Nat := 0
  it : Nat := 0
  z : List Nat := []
  y : List Nat := []
  s : List Nat := []
  /-- Stopped by R911. -/
  overflow : Bool := false
  pivots : Nat := 0
  firstReg : Option Nat := none
  mu : Nat := 0
  rp : Nat := 0
  rd : Nat := 0
  alpha : Nat := 0
deriving DecidableEq, Repr

/-- QP Solver beyond the QPS registers (chapter 21): the running solve, and z of the last loop solve that ended OK. -/
structure Qps where
  run : Option QRun := none
  warm : Option (List Nat) := none
deriving DecidableEq, Repr

/-- States of the loop's law (LPE.4): biquad histories, integrator and previous v. -/
structure LpLaw where
  x1 : List Int := List.replicate 8 0
  x2 : List Int := List.replicate 8 0
  w1 : List Int := List.replicate 8 0
  w2 : List Int := List.replicate 8 0
  i : Int := 0
  vPrev : Int := 0
deriving DecidableEq, Repr

/-- A sample whose output beat has not come (LPE.1). -/
structure LpSample where
  beat : Nat
  due : Nat
  stamp : Nat
  /-- 0 computed, 1 held, 2 held and ramping to SAFE_OUT, 3 held at SAFE_OUT by a drive fault. -/
  kind : Nat
  /-- A swap at this sample cleared the law's states. -/
  clear : Bool := false
  r : Int := 0
  y : Int := 0
  e : Int := 0
  aux0 : Int := 0
  aux1 : Int := 0
  raw : Nat := 0
  /-- Active bank's bytes, and whether it is bank B. -/
  bank : List Nat := []
  bankB : Bool := false
  hold : Bool := false
  trip : Bool := false
  fault : Bool := false
  /-- The move of an MPC sample: 0 none needed, 1 awaited, 2 delivered, 3 replaced by the FALLBACK. -/
  move : Nat := 0
  m : Nat := 0
  /-- Its solve has started. -/
  solving : Bool := false
  /-- Resolved, with its output and the words of the trace nodes 0-19. -/
  done : Bool := false
  out : Int := 0
  nodes : List Nat := []
deriving DecidableEq, Repr

/-- The trace (LPE.7): entries of eight words and a stamp, whether the trigger has come, and the last entry before it. -/
structure LpTrace where
  entries : List (List Nat) := []
  triggered : Bool := false
  prev : Option (List Nat) := none
deriving DecidableEq, Repr

/-- Loop Engine beyond the LPE registers (chapter 20). -/
structure Lpe where
  /-- First beat of the plan's first frame, and beat of the last sample. -/
  b0 : Nat := 0
  lastS : Option Nat := none
  pend : List LpSample := []
  /-- Output of the last resolved sample (R884), with its law value, move, biquad outputs and flags. -/
  prevOut : Int := 0
  limHi : Bool := false
  limLo : Bool := false
  uLaw : Int := 0
  m : Nat := 0
  law : LpLaw := {}
  /-- Oscillation detector: samples and sign changes of the window, windows in a row, e of the last computed sample. -/
  oscN : Nat := 0
  oscC : Nat := 0
  oscM : Nat := 0
  ePrev : Option Int := none
  /-- Action of the trip in force: 0 none, 1 FREEZE, 2 RAMP_TO_SAFE, 3 SWAP_TO_B; and its swap still to come. -/
  tripAct : Nat := 0
  toB : Bool := false
  /-- DRV_FAULT_N is low, as last recognised. -/
  faultLow : Bool := false
  trace : LpTrace := {}
deriving DecidableEq, Repr
/-- Thermal supervisor beyond THM (SUP.1, SUP.2). -/
structure Thm where
  /-- Flags of WARN, HOT and TRIP, with their enter and leave counts (R962). -/
  flags : List Bool := [false, false, false]
  enter : List Nat := [0, 0, 0]
  leave : List Nat := [0, 0, 0]
  /-- Runs of invalid and of valid readings of each sensor (R958). -/
  badRun : List Nat := List.replicate 48 0
  goodRun : List Nat := List.replicate 48 0
  /-- Samples in a row above, and within, 5 degrees of the reference, for SA14 and SA15 (R959). -/
  xAbove : List Nat := [0, 0]
  xWithin : List Nat := [0, 0]
  /-- The first sample has been taken (R957). -/
  began : Bool := false
deriving DecidableEq, Repr

/-- Error summary beyond RAS (R967). -/
structure Ras where
  /-- Beat of the first event of the newest entry. -/
  newest : Option Nat := none
  /-- The newest entry may take merged events. -/
  merge : Bool := false
  /-- Beat of the last event, and the bits of RAS_SUM set at that beat (R969). -/
  sumAt : Nat := 0
  sumBits : Nat := 0
deriving DecidableEq, Repr

/-- The last SMBus request acted on and its reply (R977, R978). -/
structure SmbReply where
  code : Nat
  payload : List Nat
  status : Nat
  data : List Nat
deriving DecidableEq, Repr

/-- SMBus management beyond MGT (SUP.4). -/
structure Mgt where
  cached : Option SmbReply := none
  /-- Beat at which VAUX became valid (R242). -/
  vauxAt : Nat := 0
  /-- RESET_DEVICE was accepted and its source is due (R982). -/
  resetDue : Bool := false
deriving DecidableEq, Repr

/-- The JTAG TAP and the debug unit beyond MGT_DBG (SUP.5). -/
structure Dbg where
  /-- Instruction selected; 1 is IDCODE. -/
  ir : Nat := 1
  /-- The unspent nonce of the last DBG_CHAL (R991, R992). -/
  nonce : Option (List Nat) := none
  /-- Data that the next Capture-DR of DBG_MEM returns (R996). -/
  mem : Nat := 0
  /-- The control core last named by DBG_CORE. -/
  core : Nat := 0
  /-- The boundary register drives the signals of R988, with its 84 cells. -/
  scan : Bool := false
  cells : Nat := 0
deriving DecidableEq, Repr

/-- What the block puts on its boundary, newest first (the model's own record of its outputs). -/
inductive Out where
  /-- Data returned to a register read. -/
  | readData (value size : Nat)
  /-- A request answered with Unsupported Request, or with CRS. -/
  | unsupported (fn : Nat)
  | crs (fn : Nat)
  /-- A posted write to host memory for a client. -/
  | hostWrite (client addr : Nat) (bytes : List Nat)
  /-- A read request to host memory for a client. -/
  | hostRead (client addr len : Nat)
  /-- An MSI-X message of a function. -/
  | msix (fn vec addr data : Nat)
  /-- An SMBus reply block, without its PEC, and a NACK. -/
  | smbus (bytes : List Nat)
  | smbNack
  /-- Bits shifted out of a captured JTAG data register. -/
  | tdo (bits : List Nat)
  /-- An Ethernet frame transmitted on a port: the stream's index, or 16 plus an AET port's, and the frame from its
  destination address. -/
  | frame (port : Nat) (bytes : List Nat)
  /-- A UDP datagram of an AET port: next-hop MAC address, destination address and port, and the UDP payload. -/
  | udp (port : Nat) (nhMac dstIp : List Nat) (dstPort : Nat) (payload : List Nat)
  /-- A PFC XOFF (true) or XON frame on a port. -/
  | pfc (port : Nat) (xoff : Bool)
  /-- A word on the SPI drive, a PWM setting, and the AER message of an error. -/
  | spi (word : Nat)
  | pwm (a b : Nat)
  | aer (fn : Nat) (e : AerErr)
deriving DecidableEq, Repr

/-- Non-volatile memories: what no reset reach and no loss of supply changes. -/
structure Nv where
  /-- OTP bytes, 32 KiB; an unburned fuse reads 0 (RST.8). -/
  otp : Sparse Byte := [(16, 2), (17, 0xB1)]
  /-- Flash bytes, 64 MiB; an erased byte reads 0xFF (BOT.4). -/
  flash : Sparse Byte := []
deriving DecidableEq, Repr

/-- Everything of the block but its non-volatile memories and its command queue. -/
@[ext] structure Dev where
  /-- Time in beats of 4 ns since power-on. -/
  beat : Nat := 0
  /-- Index of the next free value (Config). -/
  free : Nat := 0
  /-- Register fields, by bit address; a field not listed is at its reset value (RegMap.lean). -/
  regs : Sparse Nat := []
  /-- _HI shadows of R11: key 2^32 * master code + word address. -/
  hi : Sparse Nat := []
  /-- Register values captured by SNAP, per block code plus one for each client page (R15). -/
  snaps : List (Nat × Sparse Nat) := []
  /-- Beat and word address of the last Armature write (R17). -/
  armWrite : Option (Nat × Nat) := none
  /-- Flash ranges whose contents are undefined (R229): offset, length, and the beat of the reach that left them so. No
  reach and no loss of supply changes them. -/
  flashUndef : List (Nat × Nat × Nat) := []
  /-- What left the block, newest first. -/
  out : List Out := []
  pw : Power := {}
  rst : Rst := {}
  boot : Boot := {}
  st : Start := {}
  cad : Cad := {}
  sq : Seq := {}
  opt : Opt := {}
  mem : Mem := {}
  hif : Hif := {}
  /-- Rings of each client (0-256). -/
  clients : Sparse Client := []
  cal : Cal := {}
  ing : Ing := {}
  lau : Lau := {}
  aet : Aet := {}
  trg : Trg := {}
  sad : Sad := {}
  qps : Qps := {}
  lpe : Lpe := {}
  thm : Thm := {}
  ras : Ras := {}
  mgt : Mgt := {}
  dbg : Dbg := {}
deriving DecidableEq, Repr

/-- The state of the block: the device, its non-volatile memories, and the commands that wait, first in, first out. -/
structure State where
  dev : Dev := {}
  nv : Nv := {}
  pending : List Instr := []
deriving DecidableEq, Repr

/-- Why a step stops. -/
inductive Fault where
  /-- A command names a unit the spec does not give the block (a rail, leg, tile, stream, path, client ...). Raised by
  the meaning of the command (safe: the block has no such unit to act on). -/
  | noSuchUnit
deriving DecidableEq, Repr

/-- Why a step is refused. -/
inductive Refusal where
  /-- No meaning is given to the command yet. Raised by an arm of exec (safe). -/
  | notModelled (mnemonic : String)
deriving DecidableEq, Repr

/-- The module before its supplies are applied: every field at its power-on value, no command waiting. -/
def State.reset : State := {}

end Sys2Proof.Machine
end

