-- ==== Sys2Proof/Machine/Ops.lean ====
section
/-!
DEFINITION. The named operations over the device: reading and writing register fields, counters, free values, what
leaves the block, PF event classes (R607), alerts (R985), the error summary (R966-R968) and the Cadence log (R338).
-/

namespace Sys2Proof.Machine

/-- Bit address of element `i` of a field. -/
def Fld.key (f : Fld) (i : Nat) : Nat := f.bit + i * f.stride

/-- Key of the first bit of client `c`'s set-up page in the register table. -/
def pageBit (c : Nat) : Nat := 8 * (0x1000000 + 0x10000 * c)

/-- The field of client `c`'s set-up page. -/
def Fld.page (f : Fld) (c : Nat) : Fld := { f with bit := f.bit + pageBit c }

/-- Value of element `i` of a field. -/
def Dev.rdi (d : Dev) (f : Fld) (i : Nat) : Nat := sget f.rst d.regs (f.key i) % 2 ^ f.w

/-- Value of a field. -/
def Dev.rd (d : Dev) (f : Fld) : Nat := d.rdi f 0

/-- Give element `i` of a field a value, cut to the field's width. -/
def Dev.wri (d : Dev) (f : Fld) (i v : Nat) : Dev :=
  { d with regs := sput f.rst d.regs (f.key i) (v % 2 ^ f.w) }

/-- Give a field a value. -/
def Dev.wr (d : Dev) (f : Fld) (v : Nat) : Dev := d.wri f 0 v

/-- Set or clear element `i` of a one-bit field. -/
def Dev.flagi (d : Dev) (f : Fld) (i : Nat) (b : Bool) : Dev := d.wri f i (b2n b)

/-- Set or clear a one-bit field. -/
def Dev.flag (d : Dev) (f : Fld) (b : Bool) : Dev := d.wr f (b2n b)

/-- Whether element `i` of a one-bit field is 1. -/
def Dev.isSeti (d : Dev) (f : Fld) (i : Nat) : Bool := decide (d.rdi f i = 1)

/-- Whether a one-bit field is 1. -/
def Dev.isSet (d : Dev) (f : Fld) : Bool := decide (d.rd f = 1)

/-- Add `n` to element `i` of a counter that saturates at its width. -/
def Dev.addi (d : Dev) (f : Fld) (i n : Nat) : Dev := d.wri f i (satAdd f.w (d.rdi f i) n)

/-- Add one to element `i` of a saturating counter. -/
def Dev.inci (d : Dev) (f : Fld) (i : Nat) : Dev := d.addi f i 1

/-- Add one to a saturating counter. -/
def Dev.inc (d : Dev) (f : Fld) : Dev := d.addi f 0 1

/-- Every element of a one-bit field array as one word. -/
def Dev.word (d : Dev) (f : Fld) : Nat :=
  (List.range f.count).foldl (fun a i => a + (d.rdi f i % 2) * 2 ^ i) 0

/-- Give every element of a one-bit field array its bit of a word. -/
def Dev.setWord (d : Dev) (f : Fld) (v : Nat) : Dev :=
  (List.range f.count).foldl (fun a i => a.wri f i (bits v i 1)) d

/-- The next free value, cut to `w` bits, and the device with the counter moved on. -/
def Dev.freeVal (d : Dev) (w : Nat) : Nat × Dev :=
  (Config.freeNat d.free % 2 ^ w, { d with free := d.free + 1 })

/-- Put something on the block's boundary. -/
def Dev.emit (d : Dev) (o : Out) : Dev := { d with out := o :: d.out }

/-- Assembly variant: 0 16-21, 1 16-41, 2 16-42, 3 16-62 (R1000). -/
def Dev.variant (d : Dev) : Nat := d.rd R.GLB_ID_VARIANT

/-- Memory stacks and I/O dies of a variant (SCO.1). -/
def stacksOf (v : Nat) : Nat := if v = 0 then 2 else if v = 3 then 6 else 4
def ioDiesOf (v : Nat) : Nat := if v < 2 then 1 else 2

/-- Stream ports of a variant (SCO.1). -/
def streamsOf (v : Nat) : Nat := 8 * ioDiesOf v

/-- The phase word (R290). -/
def Dev.phase (d : Dev) : Nat := d.rd R.CAD_PHASE

/-- The 32-bit phase stamp of R298. -/
def Dev.stamp (d : Dev) : Nat := bits d.phase 16 32

/-- A plan is active (R401). -/
def Dev.planActive (d : Dev) : Bool := d.isSet R.SEQ_STATUS_ACTIVE

/-- Firmware is ready (R254). -/
def Dev.fwReady (d : Dev) : Bool := d.isSet R.BTP_STATUS_FW_READY

/-- No reset episode is in progress and VAUX is valid. -/
def Dev.running (d : Dev) : Bool := d.pw.vaux && d.rst.ep.isNone

/-- A block is held in a block reset (R172, R1010); codes of RST.5. -/
def Dev.inReset (d : Dev) (code : Nat) : Bool :=
  decide (d.rst.blk = some (code, .inReset)) || (code == 6 && decide (d.rst.hot = some .inReset))

/-- The block of a code works: out of reset, REFCLK not lost (MOD.4). -/
def Dev.works (d : Dev) (code : Nat) : Bool := d.running && !d.inReset code && !d.rst.refLost

/-- An event of PF event class `k` (R607). -/
def Dev.evt (d : Dev) (k : Nat) : Dev :=
  { d.wri R.HIF_EVT_PEND k 1 with hif := { d.hif with evtDue := putBit d.hif.evtDue k true } }

/-- An alerting event: bit `b` of MGT_ALERT_MASK decides (R985). -/
def Dev.alert (d : Dev) (b : Nat) : Dev :=
  if bitAt (d.rd R.MGT_ALERT_MASK) b then d.wr R.MGT_STATUS_ALERT 1 else d

/-- The newest entry of the error summary matches and takes another event (R967). -/
def Dev.rasMerges (d : Dev) (cls blk client : Nat) : Bool :=
  let i := (d.rd R.RAS_LOG_WR_NEXT + 255) % 256
  d.ras.merge && decide (d.rdi R.RAS_LOG_CLASS i = cls) && decide (d.rdi R.RAS_LOG_BLOCK i = blk) &&
    decide (d.rdi R.RAS_LOG_CLIENT i = client) &&
    (match d.ras.newest with
     | some b => decide (d.beat < b + 250000)
     | none => false)

/-- Write a new entry of the error summary (R966, R968). -/
def Dev.rasWrite (d : Dev) (cls blk client detail : Nat) (merge : Bool) : Dev :=
  let n := d.rd R.RAS_LOG_WR_NEXT
  if (n + 1) % 256 = d.rd R.RAS_LOG_RD then d.inc R.RAS_LOG_WR_LOST
  else
    let d := d.wri R.RAS_LOG_STAMP n d.stamp
    let d := d.wri R.RAS_LOG_CLASS n cls
    let d := d.wri R.RAS_LOG_BLOCK n blk
    let d := d.wri R.RAS_LOG_CLIENT n client
    let d := d.wri R.RAS_LOG_COUNT n 1
    let d := d.wri R.RAS_LOG_DETAIL n detail
    let d := d.wr R.RAS_LOG_WR_NEXT (n + 1)
    let d := { d with ras := { d.ras with newest := some d.beat, merge := merge } }
    (d.evt 0).alert cls

/-- An event of the error summary: class 1-12, block code, client or 0xFFFF, detail (R966-R968). -/
def Dev.rasEvent (d : Dev) (cls blk client detail : Nat) (merge : Bool := true) : Dev :=
  let d := d.wr R.RAS_SUM (putBit (d.rd R.RAS_SUM) cls true)
  let now := putBit (if d.ras.sumAt = d.beat then d.ras.sumBits else 0) cls true
  let d := { d with ras := { d.ras with sumAt := d.beat, sumBits := now } }
  if merge && d.rasMerges cls blk client then
    d.inci R.RAS_LOG_COUNT ((d.rd R.RAS_LOG_WR_NEXT + 255) % 256)
  else d.rasWrite cls blk client detail merge

/-- Client field of an entry that belongs to no client. -/
def noClient : Nat := 0xFFFF

/-- Block field of an entry about a PF BAR0 address (R966, R1012). -/
def blockOf (addr : Nat) : Nat :=
  let b := addr / 0x10000
  if b ≤ 0x16 then b
  else if b = 0x1E then (if addr < 0x1E0400 then 0x0D else 0xFF)
  else if b = 0x1F then (if addr < 0x1F0008 then 0x0D else 0xFF)
  else if addr < 0x200000 then 0xFF
  else if addr < 0x204000 then 0x06
  else if 0x210000 ≤ addr ∧ addr < 0x211000 then 0x0E
  else if 0x220000 ≤ addr ∧ addr < 0x220400 then 0x0F
  else if 0x230000 ≤ addr ∧ addr < 0x240000 then 0x11
  else if 0x240000 ≤ addr ∧ addr < 0x250000 then 0x0F
  else if 0x250000 ≤ addr ∧ addr < 0x250400 then 0x12
  else if 0x251000 ≤ addr ∧ addr < 0x251400 then 0x12
  else if 0x300000 ≤ addr ∧ addr < 0x320200 then 0x09
  else if 0x330000 ≤ addr ∧ addr < 0x330808 then 0x09
  else 0xFF

/-- An access error of client `c` at a PF BAR0 offset (class ACCESS). -/
def Dev.accessError (d : Dev) (c addr : Nat) : Dev := d.rasEvent 1 (blockOf addr) c addr

/-- A protection violation of client `c` at a PF BAR0 offset (class PROTECTION). -/
def Dev.protection (d : Dev) (c addr : Nat) : Dev := d.rasEvent 3 (blockOf addr) c addr

/-- Write a Cadence log entry (R338, R339). -/
def Dev.cadLog (d : Dev) (kind row dir arg : Nat) : Dev :=
  let n := d.rd R.CAD_LOG_WR_NEXT
  if (n + 1) % 256 = d.rd R.CAD_LOG_RD then d.inc R.CAD_LOG_WR_LOST
  else
    let d := d.wri R.CAD_LOG_PHASE n d.phase
    let d := d.wri R.CAD_LOG_ROW n row
    let d := d.wri R.CAD_LOG_KIND n kind
    let d := d.wri R.CAD_LOG_DIR n dir
    let d := d.wri R.CAD_LOG_ARG n arg
    (d.wr R.CAD_LOG_WR_NEXT (n + 1)).evt 5

/-- The configuration registers of a function. -/
def Dev.fn (d : Dev) (f : Nat) : Fn := sget {} d.hif.fns f

/-- Change the configuration registers of a function. -/
def Dev.setFn (d : Dev) (f : Nat) (x : Fn) : Dev :=
  { d with hif := { d.hif with fns := sput {} d.hif.fns f x } }

/-- The rings of a client. -/
def Dev.client (d : Dev) (c : Nat) : Client := sget {} d.clients c

/-- Change the rings of a client. -/
def Dev.setClient (d : Dev) (c : Nat) (x : Client) : Dev :=
  { d with clients := sput {} d.clients c x }

/-- Meaning of a command that changes the device alone. -/
def onDev (f : Dev → Dev) (s : State) : Host.Outcome State Fault Refusal :=
  .next { s with dev := f s.dev }

/-- As `onDev`, for a command that reads the non-volatile memories. -/
def onDevNv (f : Nv → Dev → Dev) (s : State) : Host.Outcome State Fault Refusal :=
  .next { s with dev := f s.nv s.dev }

/-- Meaning of a command that changes the non-volatile memories too. -/
def onAll (f : Nv → Dev → Nv × Dev) (s : State) : Host.Outcome State Fault Refusal :=
  .next { s with nv := (f s.nv s.dev).1, dev := (f s.nv s.dev).2 }

/-- A command that names unit `i` of `n` stops where the block has no such unit. -/
def unit (ok : Bool) (k : Host.Outcome State Fault Refusal) : Host.Outcome State Fault Refusal :=
  if ok then k else .fault .noSuchUnit

end Sys2Proof.Machine
end

