-- ==== Sys2Proof/Machine/Gate.lean ====
section
/-!
DEFINITION. The way of a register write to PF BAR0 (SCO.4): who reaches the registers (R601), writes of the host and
of the Armature in one beat (R17), and blocks held in reset.
-/

namespace Sys2Proof.Machine

/-- Client on whose behalf a master accesses registers (R996); the control cores and the boot core belong to none. -/
def masterClient (m : Master) : Nat :=
  match m with
  | .pf => 0
  | .vf n => n
  | .dbg => 0
  | _ => noClient

/-- The master is the host: a function or the debug port. -/
def masterHost (m : Master) : Bool :=
  match m with
  | .armature => false
  | .boot => false
  | _ => true

/-- A VF reaches only its own page (R601). -/
def masterVf (m : Master) : Bool :=
  match m with
  | .vf _ => true
  | _ => false

/-- The host's write loses to an Armature write of the same register in the same beat (R17). -/
def Dev.lostWrite (d : Dev) (addr : Nat) : Bool := decide (d.armWrite = some (d.beat, addr / 4))

/-- RST.5 code of a register block; none for a block that has no block reset. -/
def rstCode (blk : Nat) : Option Nat :=
  if 6 ≤ blk ∧ blk ≤ 10 then some (blk - 6) else if 12 ≤ blk ∧ blk ≤ 20 then some (blk - 7) else none

/-- A register of the block at an offset of PF BAR0 cannot be written: its block is in reset. -/
def Dev.blockHeld (d : Dev) (addr : Nat) : Bool :=
  match rstCode (blockOf addr) with
  | some c => d.inReset c
  | none => false

/-- A write of `m` to the register at an offset of PF BAR0 reaches the register; `f` is what it does there. A write to
a block in reset is not taken. -/
def Dev.gated (d : Dev) (m : Master) (addr : Nat) (f : Dev → Dev) : Dev :=
  if masterVf m || !d.running || d.blockHeld addr then d
  else if masterHost m && d.lostWrite addr then d.rasEvent 2 (blockOf addr) (masterClient m) addr
  else f (if masterHost m then d else { d with armWrite := some (d.beat, addr / 4) })

end Sys2Proof.Machine
end

