-- ==== Sys2Proof/Machine/Maq.lean ====
section
/-!
DEFINITION. Reading a Maquette image: its section table, plan, slot, lease, item and power records (PLN.1, PLN.2,
PLN.4, PWR.7), and the running plan.
-/

namespace Sys2Proof.Machine

/-- A section table entry (PLN.1). -/
structure Sec where
  idx : Nat
  ty : Nat
  plan : Nat
  dest : Nat
  tile : Nat
  off : Nat
  len : Nat
  destOff : Nat
  arg : Nat
  res : Nat
  crc : Nat
deriving DecidableEq, Repr

/-- Entry `i` of the section table. -/
def secAt (img : List Nat) (i : Nat) : Sec :=
  let e := bytesAt img (64 + 32 * i) 32
  { idx := i, ty := u8 e 0, plan := u8 e 1, dest := u8 e 2, tile := u8 e 3, off := u32 e 4, len := u32 e 8,
    destOff := u32 e 12, arg := u32 e 16, res := u64 e 20, crc := u32 e 28 }

/-- The section table. -/
def secTable (img : List Nat) : List Sec := (List.range (u16 img 6)).map (secAt img)

/-- Content of a section. -/
def secBytes (img : List Nat) (s : Sec) : List Nat := bytesAt img s.off s.len

/-- The section of a type that applies to a plan: its own, else the shared one (R349). -/
def secFor (img : List Nat) (p ty : Nat) : Option Sec :=
  match (secTable img).find? (fun s => s.ty == ty && s.plan == p) with
  | some s => some s
  | none => if ty ≤ 5 then none else (secTable img).find? (fun s => s.ty == ty && s.plan == 0xFF)

/-- Content of the section of a type that applies to a plan; empty for none. -/
def planSec (img : List Nat) (p ty : Nat) : List Nat :=
  match secFor img p ty with
  | some s => secBytes img s
  | none => []

/-- Roles of the header: 0 main, 1 safe, 2 cool. -/
def roleOf (img : List Nat) (k : Nat) : Nat := u8 img (32 + k)

/-- Fields of a plan record (PLN.2). -/
def planRec (img : List Nat) (p : Nat) : List Nat := planSec img p 1
def planLen (img : List Nat) (p : Nat) : Nat := u32 (planRec img p) 0
def planVars (img : List Nat) (p : Nat) : Nat := u8 (planRec img p) 4
def planStart (img : List Nat) (p : Nat) : Nat := u8 (planRec img p) 5
def planFlags (img : List Nat) (p : Nat) : Nat := u8 (planRec img p) 6
def planGated (img : List Nat) (p : Nat) : Bool := bitAt (planFlags img p) 0
def planForm15 (img : List Nat) (p : Nat) : Bool := bitAt (planFlags img p) 1
def planFullOf (img : List Nat) (p : Nat) : Nat := u8 (planRec img p) 7
def planTiles (img : List Nat) (p : Nat) : Nat := u16 (planRec img p) 8
def planLatDec (img : List Nat) (p : Nat) : Nat := u32 (planRec img p) 12
def planLoopPeriod (img : List Nat) (p : Nat) : Nat := u32 (planRec img p) 16

/-- A slot record (PLN.2). -/
structure Slot where
  start : Nat
  len : Nat
  kind : Nat
  client : Nat
  tiles : Nat
  vu : Nat
  units : Nat
  itemFirst : Nat
  itemCount : Nat
  res : Nat
deriving DecidableEq, Repr

/-- The slot record at an offset of a SLOTS section. -/
def slotAt (s : List Nat) (i : Nat) : Slot :=
  let e := bytesAt s (32 * i) 32
  { start := u32 e 0, len := u32 e 4, kind := u8 e 8, client := u16 e 10, tiles := u16 e 12, vu := u8 e 14,
    units := u8 e 15, itemFirst := u32 e 16, itemCount := u32 e 20, res := u8 e 9 + u64 e 24 }

/-- The slots of a frame variant of a plan. -/
def planSlots (img : List Nat) (p v : Nat) : List Slot :=
  match (secTable img).find? (fun s => s.ty == 2 && s.plan == p && s.arg == v) with
  | some s => (List.range (s.len / 32)).map (slotAt (secBytes img s))
  | none => []

/-- A work item (PLN.4). -/
structure Item where
  start : Nat
  dur : Nat
  op : Nat
  unit : Nat
  inA : Nat
  inB : Nat
  out : Nat
  res : Nat
  ops : List Nat
deriving DecidableEq, Repr

/-- The item at an index of a list of item records. -/
def itemAt (s : List Nat) (i : Nat) : Item :=
  let e := bytesAt s (32 * i) 32
  { start := u32 e 0, dur := u16 e 4, op := u8 e 6, unit := u8 e 7, inA := u16 e 8, inB := u16 e 10, out := u16 e 12,
    res := u16 e 14, ops := bytesAt e 16 16 }

/-- The absent token. -/
def noTok : Nat := 0xFFFF

/-- The items of a plan. -/
def planItems (img : List Nat) (p : Nat) : List Item :=
  let s := planSec img p 3
  (List.range (s.length / 32)).map (itemAt s)

/-- A lease record (PLN.2). -/
structure Lease where
  client : Nat
  pollVar : Nat
  pollEvery : Nat
  res : Nat
deriving DecidableEq, Repr

/-- The leases of a plan. -/
def planLeases (img : List Nat) (p : Nat) : List Lease :=
  let s := planSec img p 4
  (List.range (s.length / 16)).map (fun i =>
    let e := bytesAt s (16 * i) 16
    { client := u16 e 0, pollVar := u8 e 2, pollEvery := u16 e 4, res := u8 e 3 + leVal (bytesAt e 6 10) })

/-- The power budget record of a plan and its fields (PWR.7). -/
def planBudget (img : List Nat) (p : Nat) : List Nat := planSec img p 5
def budEIn (b : List Nat) : Nat := u32 b 0
def budPIn (b : List Nat) : Nat := u16 b 4
def budPeak (b : List Nat) (r : Nat) : Nat := u16 b (8 + 8 * r)
def budActive (b : List Nat) (r : Nat) : Nat := u8 b (10 + 8 * r)
def budERail (b : List Nat) (r : Nat) : Nat := u32 b (12 + 8 * r)

/-- The form chosen for a role of the active Maquette (R379); 0 main, 1 safe, 2 cool. -/
def Dev.formOf (d : Dev) (role : Nat) : Nat := nth 0 d.sq.actForms role

/-- Frame length of what runs now: the plan's, or the start-up timeline's (R254). -/
def Dev.frameLen (d : Dev) : Nat := if d.planActive then planLen d.sq.active d.sq.plan else 2500

/-- Variant of the running frame. -/
def Dev.variantNow (d : Dev) : Nat := d.rd R.SEQ_STATUS_VARIANT

/-- The start-up timeline of R254, as slots: a seam, then housekeeping. -/
def startupSlots : List Slot :=
  [{ start := 0, len := 24, kind := 3, client := 0, tiles := 0, vu := 0, units := 0, itemFirst := 0, itemCount := 0,
     res := 0 },
   { start := 24, len := 2476, kind := 4, client := 0, tiles := 0, vu := 0, units := 4, itemFirst := 0, itemCount := 0,
     res := 0 }]

/-- The slots of the running frame. -/
def Dev.slotsNow (d : Dev) : List Slot :=
  if d.planActive then planSlots d.sq.active d.sq.plan d.variantNow else startupSlots

/-- R42 has cut the running frame: its seam has ended. -/
def Dev.cutOver (d : Dev) : Bool :=
  d.sq.moving && (d.sq.frameAt.isNone || (match d.sq.seamAt with
    | some b => decide (b + 24 ≤ d.beat)
    | none => false))

/-- Beat within the running frame. -/
def Dev.frameBeat (d : Dev) : Nat := d.beat - (d.sq.frameAt.getD d.beat)

/-- The running plan's items. -/
def Dev.items (d : Dev) : List Item := if d.planActive then planItems d.sq.active d.sq.plan else []

/-- Content of the running plan's section of a type. -/
def Dev.sec (d : Dev) (ty : Nat) : List Nat :=
  if d.planActive then planSec d.sq.active d.sq.plan ty else []

/-- The running plan's leases; under the start-up timeline client 0 alone, every frame (R255, R635). -/
def Dev.leases (d : Dev) : List Lease :=
  if d.planActive then planLeases d.sq.active d.sq.plan
  else [{ client := 0, pollVar := 0, pollEvery := 1, res := 0 }]

/-- A physical tile is healthy: neither it nor its engine is failed. -/
def Dev.tileHealthy (d : Dev) (t : Nat) : Bool := decide (d.rdi R.CAL_TILE_STATE t < 2)

/-- The healthy physical tiles, ascending. -/
def Dev.healthyTiles (d : Dev) : List Nat := (List.range 16).filter d.tileHealthy

/-- Highest logical tile of a mask, plus one. -/
def topTile (m : Nat) : Nat := ((setBits m 16).map (· + 1)).foldl max 0

/-- Whether a form fits the healthy tiles (R378). -/
def Dev.formFits (d : Dev) (img : List Nat) (p : Nat) : Bool :=
  if planForm15 img p then decide (topTile (planTiles img p) ≤ d.healthyTiles.length)
  else (setBits (planTiles img p) 16).all d.tileHealthy

/-- Physical tile of each logical tile of a form (R378). -/
def Dev.formMap (d : Dev) (img : List Nat) (p : Nat) : List Nat :=
  if planForm15 img p then d.healthyTiles else List.range 16

/-- The 15-tile form of a plan. -/
def form15Of (img : List Nat) (p : Nat) : Option Nat :=
  (List.range 8).find? (fun q => !(planRec img q).isEmpty && planForm15 img q && planFullOf img q == p)

/-- The form chosen for a role at staging (R379); none when no form fits. -/
def Dev.chooseForm (d : Dev) (img : List Nat) (p : Nat) : Option Nat :=
  if d.formFits img p then some p
  else match form15Of img p with
    | some q => if d.formFits img q then some q else none
    | none => none

end Sys2Proof.Machine
end

