-- ==== Sys2Proof/Machine/Reach.lean ====
section
/-!
DEFINITION. What a reset reach does to the state (RST.1, R6-R8, R138), and how reset sources form an episode
(RST.3): assertion, joining, widening, release, and the restart of the exit sequence.
-/

namespace Sys2Proof.Machine

/-- A FULL, DEVICE or WARM reach clears a field of this class (R7). -/
def Cls.clearedBy (c : Cls) (r : Reach) : Bool :=
  match c, r with
  | .sticky, _ => false
  | .full, .full => true
  | .full, _ => false
  | .device, .warm => false
  | .deviceBlock, .warm => false
  | _, _ => true

/-- A BLOCK reach of the field's block clears a field of this class. -/
def Cls.clearedByBlock (c : Cls) : Bool :=
  match c with
  | .deviceBlock => true
  | .warmBlock => true
  | _ => false

/-- The field lists bit address `k` as an element. -/
def Fld.hasKey (f : Fld) (k : Nat) : Bool :=
  if k < f.bit then false
  else if f.stride = 0 then k == f.bit
  else (k - f.bit) % f.stride == 0 && decide ((k - f.bit) / f.stride < f.count)

/-- First bit of the set-up pages in the register table. -/
def firstPageBit : Nat := 8 * 0x1000000

/-- The field whose element lies at a bit address, in PF BAR0 or in some client's set-up page. -/
def fldAt (k : Nat) : Option Fld :=
  if k < firstPageBit then pfFields.find? (fun f => f.hasKey k)
  else pageFieldsAll.find? (fun f => f.hasKey ((k - firstPageBit) % 0x80000))

/-- The client whose set-up page holds a bit address of the page area. -/
def clientOfKey (k : Nat) : Nat := (k - firstPageBit) / 0x80000

/-- Give every field that `p` names its reset value. -/
def Dev.clearRegs (d : Dev) (p : Nat → Fld → Bool) : Dev :=
  { d with regs := skeep (fun k => match fldAt k with
                                   | some f => !p k f
                                   | none => true) d.regs }

/-- Register block of a bit address of PF BAR0: its byte address divided by 0x10000. -/
def blockOfKey (k : Nat) : Nat := k / 0x80000

/-- Every set-up page of a client takes its reset values (R141, R626). -/
def Dev.clearPage (d : Dev) (c : Nat) : Dev :=
  let d := d.clearRegs (fun k f => decide (firstPageBit ≤ k) && clientOfKey k == c && f.cls == .func)
  { d with clients := sput {} d.clients c {}, snaps := d.snaps.filter (fun e => e.1 ≠ 0x100 + c) }

/-- At the first beat of a FULL, DEVICE or WARM reach every parked leg becomes active (R107). -/
def Dev.unparkAll (d : Dev) : Dev := d.setWord R.PWR_LEG_PARK 0

/-- The hidden state of the power controller after a FULL reach: latches released, counts cleared; rails and the
sequence in progress are kept (R119, R121). -/
def Power.afterFull (p : Power) : Power :=
  { p with consec := List.replicate 34 0, lastCycle := List.replicate 34 0, faultAt := List.replicate 34 none,
           returning := [], nFault := false, retry := none, rebalancing := [] }

/-- Memories after a reach: SRAM zeroed; at FULL and DEVICE the tiers' contents become undefined (R139, R1008). -/
def Mem.afterReach (m : Mem) (r : Reach) : Mem :=
  match r with
  | .warm => { m with stg := [], stgMark := [], tileAct := [], tileSby := [] }
  | _ => { era := m.era + 1 }

/-- Optical hidden state after a reach: kept at WARM but for what OPT holds in flight (R443). -/
def Opt.afterReach (o : Opt) (r : Reach) : Opt :=
  match r with
  | .warm => { chanMap := o.chanMap }
  | _ => {}

/-- Holding and calibration after a reach: kept at WARM, where a dwell begins again (R493, R494). -/
def Cal.afterReach (c : Cal) (r : Reach) : Cal :=
  match r with
  | .warm => { c with swept := List.replicate 16 none, spent := List.replicate 16 0,
                      written := List.replicate 16 false, dwellAt := List.replicate 16 none, recal := [] }
  | _ => {}

/-- Flash offset of slot 0 (A) or 1 (B), and of manifest copy `m` (BOT.4). -/
def slotBase (s : Nat) : Nat := 0x1000000 * (s + 1)
def manBase (m : Nat) : Nat := 0x20000 + 0x10000 * (m % 2)

/-- A target's flash offset and size: slots A and B, then manifest copies 0 and 1 (BOT.5). -/
def updBase (t : Nat) : Nat := if t < 2 then slotBase t else manBase (t - 2)
def updSize (t : Nat) : Nat := if t < 2 then 0x1000000 else 0x10000

/-- Undefined flash after a reach: an FW_CHUNK in progress leaves its target's contents undefined (R229). -/
def Dev.flashTorn (d : Dev) : List (Nat × Nat × Nat) :=
  match d.boot.job with
  | some j => if j.op = 0x48 then (updBase j.target, updSize j.target, d.beat) :: d.flashUndef else d.flashUndef
  | none => d.flashUndef

/-- Every item takes the state that RST.1 gives for a FULL, DEVICE or WARM reach (R138). -/
def Dev.applyReach (d : Dev) (r : Reach) : Dev :=
  let d := d.clearRegs (fun _ f => f.cls.clearedBy r)
  let d := d.unparkAll
  let wide := r ≠ Reach.warm
  { d with
    hi := []
    snaps := []
    armWrite := none
    flashUndef := d.flashTorn
    pw := if r = Reach.full then d.pw.afterFull else { d.pw with returning := [], rebalancing := [] }
    rst := { d.rst with
             blk := none, hot := none, flr := [], flrDue := [], flrEnd := []
             asserted := if r = Reach.full then d.rst.asserted.filter (fun s => s ≠ .regFault && s ≠ .therm)
                         else d.rst.asserted
             refWatch := if wide then false else d.rst.refWatch
             refLost := if wide then false else d.rst.refLost
             opt := if wide then [] else d.rst.opt
             strapInvalid := if wide then false else d.rst.strapInvalid
             refclkFail := if wide then false else d.rst.refclkFail
             ioDie1Failed := if wide then false else d.rst.ioDie1Failed
             perstSeen := if wide then d.rst.perstHigh else d.rst.perstSeen }
    boot := {}
    st := if wide then {} else d.st
    cad := {}
    sq := {}
    opt := d.opt.afterReach r
    mem := d.mem.afterReach r
    hif := {}
    clients := []
    cal := d.cal.afterReach r
    ing := {}
    lau := {}
    aet := {}
    trg := {}
    sad := if r = Reach.full then {} else { supSeq := d.sad.supSeq, stamps := d.sad.stamps }
    qps := {}
    lpe := { faultLow := d.lpe.faultLow }
    thm := if r = Reach.full then {} else d.thm
    ras := if wide then {} else d.ras
    mgt := if r = Reach.full then { vauxAt := d.mgt.vauxAt } else d.mgt
    dbg := if r = Reach.full then {} else d.dbg }

/-- RST_CAUSE bit of a source. -/
def Src.bit (s : Src) : Nat :=
  match s with
  | .por => 0 | .bor => 1 | .pin => 2 | .mgmt => 3 | .host => 4 | .therm => 5
  | .regFault => 6 | .wdogBoot => 7 | .wdogFw => 8 | .perst => 9 | .hot => 10 | .ldn => 11

/-- `a` is wider than `b` (R7). -/
def Reach.wider (a b : Reach) : Bool :=
  match a, b with
  | .full, .device => true
  | .full, .warm => true
  | .device, .warm => true
  | _, _ => false

/-- Code of a reach in RST_EPISODE.REACH. -/
def Reach.code (r : Reach) : Nat :=
  match r with
  | .full => 1 | .device => 2 | .warm => 3

/-- Set a source's bit in RST_CAUSE (R165). -/
def Dev.cause (d : Dev) (s : Src) : Dev := d.wr R.RST_CAUSE (putBit (d.rd R.RST_CAUSE) s.bit true)

/-- FW_READY, READY, REFCLK_FAIL or BOOT_FAILED reads 1: what a change of alerts by bit 13 (R985). -/
def Dev.alertBits (d : Dev) : List Bool :=
  [d.fwReady, d.isSet R.GLB_START_READY, d.rst.refclkFail || d.rst.refLost, decide (d.rd R.BTP_STATUS_STEP = 5)]

/-- Alert when one of the four bits differs from what it was (R985). -/
def Dev.alertChange (d : Dev) (was : List Bool) : Dev := if d.alertBits = was then d else d.alert 13

/-- The state of a reach takes effect (R138), with the alert of a narrower reach than FULL. -/
def Dev.takeReach (d : Dev) (r : Reach) : Dev :=
  let n := d.applyReach r
  if r = Reach.full then n else n.alertChange d.alertBits

/-- A source starts an episode (R153): E0 is this beat and the reach's state takes effect. -/
def Dev.startEpisode (d : Dev) (s : Src) (r : Reach) : Dev :=
  let d := d.takeReach r
  { d with rst := { d.rst with ep := some { start := d.beat, reach := r, joined := 2 ^ s.bit, phase := .hold } } }

/-- The boot ROM and its watchdog stop when an exit sequence is abandoned (R159). -/
def Dev.abandonBoot (d : Dev) : Dev :=
  let was := d.alertBits
  let d := (d.wr R.BTP_STATUS_STEP 0).wr R.BTP_STATUS_BOOTED 3
  ({ d with boot := {} }).alertChange was

/-- A source joins the episode in progress (R154-R156, R159): a wider one widens it, and one that joins after H
abandons the exit sequence. -/
def Dev.joinEpisode (d : Dev) (e : Episode) (s : Src) (r : Reach) : Dev :=
  let w := r.wider e.reach
  let d := if w then d.takeReach r else d.abandonBoot
  { d with rst := { d.rst with
      ep := some { start := e.start, reach := if w then r else e.reach,
                   joined := putBit e.joined s.bit true, phase := .hold } } }

/-- A FULL, DEVICE or WARM source asserts (R153-R156, R165); a level source stays asserted until released. -/
def Dev.assertSrc (d : Dev) (s : Src) (r : Reach) (level : Bool) : Dev :=
  let d := d.cause s
  let d := if level then { d with rst := { d.rst with asserted := s :: d.rst.asserted.filter (· ≠ s) } } else d
  match d.rst.ep with
  | none => d.startEpisode s r
  | some e => d.joinEpisode e s r

/-- A level source is released (R157). -/
def Dev.releaseSrc (d : Dev) (s : Src) : Dev :=
  { d with rst := { d.rst with asserted := d.rst.asserted.filter (· ≠ s) } }

/-- The phase of the episode in progress. -/
def Dev.epPhase (d : Dev) : Option EpPhase := d.rst.ep.map (·.phase)

/-- Move the episode in progress to a phase. -/
def Dev.setPhase (d : Dev) (p : EpPhase) : Dev :=
  { d with rst := { d.rst with ep := d.rst.ep.map (fun e => { e with phase := p }) } }

/-- Bit of the selected option block (RST.8); the built-in defaults read 0 (R186). -/
def Dev.optBit (d : Dev) (byte i : Nat) : Bool := bitAt (u8 d.rst.opt byte) i

end Sys2Proof.Machine
end

