-- ==== Sys2Proof/Machine/Image.lean ====
section
/-!
DEFINITION. Signed images, root and owner keys, protection manifests, activation records and anti-rollback fuses
(BOT.2-BOT.4, BOT.6).
-/

namespace Sys2Proof.Machine

/-- Whether a 512-byte image header and its payload verify (R205); `sig` is false for an unsigned manifest, whose
signature must be zero (R208). -/
def headerVerifies (h payload : List Nat) (sig : Bool) : Bool :=
  decide (h.length = 512) && u32 h 508 == crc32c (bytesAt h 0 508) && u32 h 0 == 0x56494D47 && u16 h 4 == 1 &&
  zerosAt h 10 2 && zerosAt h 16 8 && zerosAt h 169 7 && zerosAt h 272 236 &&
  decide (payload.length = u32 h 12) && decide (Config.sha384 payload = bytesAt h 24 48) &&
  (if sig then Config.ecdsaP384 (bytesAt h 72 97) (bytesAt h 176 96) (Config.sha384 (bytesAt h 0 176))
   else zerosAt h 176 96)

/-- Fields of an image header. -/
def hdrType (h : List Nat) : Nat := u8 h 6
def hdrKey (h : List Nat) : Nat := u8 h 7
def hdrSvn (h : List Nat) : Nat := u16 h 8
def hdrLen (h : List Nat) : Nat := u32 h 12

/-- A root-key hash slot of OTP (RST.8). -/
def keyHashSlot (nv : Nv) (k : Nat) : List Nat := mgets 0 nv.otp (0x100 + 64 * k) 64

/-- KEY_REVOKE bit `k` of an option block (RST.8). -/
def keyRevoked (opt : List Nat) (k : Nat) : Bool := bitAt (u8 opt 9) (2 + k)

/-- Whether public key `pub` is accepted as root key `k` (R206). -/
def rootKeyAt (nv : Nv) (opt : List Nat) (k : Nat) (pub : List Nat) : Bool :=
  let s := keyHashSlot nv k
  decide (k < 3) && !zerosAt s 0 64 && decide (bytesAt s 0 48 = Config.sha384 pub) && zerosAt s 48 16 && !keyRevoked opt k

/-- Whether the root key of a header is accepted (R206). -/
def rootKeyOk (nv : Nv) (opt h : List Nat) : Bool := rootKeyAt nv opt (hdrKey h) (bytesAt h 72 97)

/-- OWNER_KEY_HASH of an option block. -/
def ownerHash (opt : List Nat) : List Nat := bytesAt opt 64 48

/-- Whether public key `pub` is the owner's (R207). -/
def ownerKeyIs (opt pub : List Nat) : Bool := !zerosAt opt 64 48 && decide (ownerHash opt = Config.sha384 pub)

/-- Whether a header names the owner key and it is accepted (R207). -/
def ownerKeyOk (opt h : List Nat) : Bool := hdrKey h == 0xFF && ownerKeyIs opt (bytesAt h 72 97)

/-- The 512-byte header and the payload of an image at an offset of a byte source. -/
def imageAt (rd : Nat → Nat → List Nat) (o lim : Nat) : List Nat × List Nat :=
  let h := rd o 512
  (h, if 512 + hdrLen h ≤ lim then rd (o + 512) (hdrLen h) else [])

/-- One byte of flash as the block reads it: a free value where the contents are undefined (R229). -/
def Dev.flashByte (d : Dev) (nv : Nv) (a : Nat) : Nat :=
  match d.flashUndef.find? (fun u => decide (u.1 ≤ a ∧ a < u.1 + u.2.1)) with
  | some u => (Config.freeFlashByte u.2.2 a).toNat
  | none => (mget 0xFF nv.flash a).toNat

/-- Reading flash, and reading a bundle that lies in a byte list. -/
def Dev.flashRead (d : Dev) (nv : Nv) (o n : Nat) : List Nat :=
  if d.flashUndef = [] then mgets 0xFF nv.flash o n else (List.range n).map (fun i => d.flashByte nv (o + i))

/-- An erase makes a range of flash defined: what is left of the undefined ranges around it. -/
def cutUndef (o n : Nat) (l : List (Nat × Nat × Nat)) : List (Nat × Nat × Nat) :=
  l.flatMap (fun u =>
    if overlaps o n u.1 u.2.1 then [(u.1, o - u.1, u.2.2), (o + n, u.1 + u.2.1 - (o + n), u.2.2)].filter (fun v => 0 < v.2.1)
    else [u])
def bundleRead (b : List Nat) (o n : Nat) : List Nat := bytesAt b o n

/-- Limits of the boot stage and of the firmware in a slot (BOT.4), header and payload together. -/
def stageLimit : Nat := 0x80000
def fwLimit : Nat := 0x600000
def fwOffset : Nat := 0x100000

/-- An image of a slot passes: type, header and root key (R205, R206, R208). -/
def imagePasses (nv : Nv) (opt : List Nat) (rd : Nat → Nat → List Nat) (o lim ty : Nat) : Bool :=
  let i := imageAt rd o lim
  hdrType i.1 == ty && headerVerifies i.1 i.2 true && rootKeyOk nv opt i.1

/-- Burned anti-rollback fuses, F (R233). -/
def Nv.fuseCount (nv : Nv) : Nat := ((mgets 0 nv.otp 0x1C0 8).map (fun b => (setBits b 8).length)).foldl (· + ·) 0

/-- The boot stage of a slot or bundle verifies and is not rolled back (BOT.6). -/
def stageBootable (nv : Nv) (opt : List Nat) (rd : Nat → Nat → List Nat) (o : Nat) : Bool :=
  imagePasses nv opt rd o stageLimit 1 && decide (nv.fuseCount ≤ hdrSvn (rd o 512))

/-- The firmware of a slot or bundle passes its checks. -/
def fwPasses (nv : Nv) (opt : List Nat) (rd : Nat → Nat → List Nat) (o : Nat) : Bool :=
  imagePasses nv opt rd (o + fwOffset) fwLimit 2 && decide (nv.fuseCount ≤ hdrSvn (rd (o + fwOffset) 512))

/-- One activation record copy, 128 bytes (BOT.4). -/
def recordAt (nv : Nv) (copy : Nat) : List Nat := mgets 0xFF nv.flash (0x10000 * copy) 128

/-- A record copy is valid (R221). -/
def recordValid (r : List Nat) : Bool :=
  u32 r 0 == 0x41435452 && u32 r 120 == crc32c (bytesAt r 0 120) && zerosAt r 11 1 && zerosAt r 14 2 && zerosAt r 64 56

/-- Record `a` is newer than record `b` (R222). -/
def recordNewer (a b : List Nat) : Bool :=
  let x := (u32 a 4 + 2 ^ 32 - u32 b 4) % 2 ^ 32
  decide (1 ≤ x) && decide (x ≤ 2 ^ 31 - 1)

/-- Copy that holds the current record (R222); none when no copy is valid. -/
def currentCopy (nv : Nv) : Option Nat :=
  let a := recordAt nv 0
  let b := recordAt nv 1
  if recordValid a then (if recordValid b && recordNewer b a then some 1 else some 0)
  else if recordValid b then some 1 else none

/-- What a record says. -/
structure ActRec where
  seq : Nat
  slot : Nat
  confirmed : Bool
  man : Nat
  svn : Nat
  marks : Nat
deriving DecidableEq, Repr

/-- The current record, or the default of R224. -/
def currentRec (nv : Nv) : ActRec :=
  match currentCopy nv with
  | some c =>
    let r := recordAt nv c
    { seq := u32 r 4, slot := u8 r 8, confirmed := u8 r 9 != 1, man := u8 r 10, svn := u16 r 12,
      marks := ((bytesAt r 124 3).filter (fun b => b ≠ 0xFF)).length }
  | none => { seq := 0, slot := 0, confirmed := true, man := 0, svn := 0, marks := 0 }

/-- The first 124 bytes of a new record (R223), SEQ one above the current record's. -/
def newRecord (nv : Nv) (slot state man svn : Nat) (hash : List Nat) : List Nat :=
  let b := leBytes 4 0x41435452 ++ leBytes 4 ((currentRec nv).seq + 1) ++ [slot, state, man, 0] ++ leBytes 2 svn ++
    [0, 0] ++ bytesAt (hash ++ List.replicate 48 0) 0 48 ++ List.replicate 56 0
  b ++ leBytes 4 (crc32c b)

/-- Copy that a new record goes to (R223, R224). -/
def newCopy (nv : Nv) : Nat :=
  match currentCopy nv with
  | some 0 => 1
  | _ => 0

/-- Write a new record: its sector erased, and programmed when the flash works (`ok`). -/
def writeRecord (nv : Nv) (slot state man svn : Nat) (hash : List Nat) (ok : Bool) : Nv :=
  let r := newRecord nv slot state man svn hash
  let o := 0x10000 * newCopy nv
  let f := mclear nv.flash o 0x1000
  { nv with flash := if ok then mputs 0xFF f o r else f }

/-- SVN and header hash of a slot's firmware. -/
def Dev.slotSvn (d : Dev) (nv : Nv) (s : Nat) : Nat := hdrSvn (d.flashRead nv (slotBase s + fwOffset) 512)
def Dev.slotFwHash (d : Dev) (nv : Nv) (s : Nat) : List Nat := Config.sha384 (d.flashRead nv (slotBase s + fwOffset) 512)

/-- The lowest unburned anti-rollback fuse. -/
def Nv.nextFuse (nv : Nv) : Option Nat :=
  (List.range 64).find? (fun i => !bitAt (mget 0 nv.otp (0x1C0 + i / 8)).toNat (i % 8))

/-- Burn one OTP bit; a burned bit stays burned. -/
def Nv.burn (nv : Nv) (addr bit : Nat) : Nv :=
  let b := (mget 0 nv.otp addr).toNat
  { nv with otp := mput 0 nv.otp addr (BitVec.ofNat 8 (b ||| 2 ^ (bit % 8))) }

/-- Burn the lowest unburned fuse (R234). -/
def Nv.burnFuse (nv : Nv) : Nv :=
  match nv.nextFuse with
  | some i => nv.burn (0x1C0 + i / 8) (i % 8)
  | none => nv

/-- Burn `n` fuses. -/
def Nv.burnFuses (nv : Nv) (n : Nat) : Nv :=
  match n with
  | 0 => nv
  | n + 1 => (nv.burnFuse).burnFuses n

/-- Bring BTP_SVN.FUSES and BURN_PENDING up to date. -/
def Dev.syncSvn (d : Dev) (nv : Nv) : Dev :=
  let r := currentRec nv
  (d.wr R.BTP_SVN_FUSES nv.fuseCount).flag R.BTP_SVN_BURN_PENDING (r.confirmed && decide (nv.fuseCount < r.svn))

/-- Largest Tier 1 and Tier 2 sizes of a variant (R545). -/
def t1Max (v : Nat) : Nat := stacksOf v * 2 ^ 35
def t2Max (v : Nat) : Nat := ioDiesOf v * 2 ^ 40

/-- Every reserved field of a manifest payload is zero. -/
def manifestZeros (p : List Nat) (n : Nat) : Bool :=
  zerosAt p 6 2 && zerosAt p 20 4 && zerosAt p 56 16 && decide (u8 p 17 < 8) && decide (u16 p 18 < 0x1000) &&
    (List.range n).all (fun k => let e := 72 + 64 * k
      zerosAt p (e + 3) 1 && zerosAt p (e + 4) 4 && zerosAt p (e + 56) 8)

/-- A tier window: multiples of 2 MiB, within a size. -/
def windowOk (b n lim : Nat) : Bool :=
  b % 0x200000 == 0 && n % 0x200000 == 0 && decide (b + n ≤ lim)

/-- No two windows of a list share a byte; windows of size zero grant nothing (R212). -/
def disjointWindows (l : List (Nat × Nat)) : Bool :=
  match l with
  | [] => true
  | (b, n) :: r => r.all (fun w => n == 0 || w.2 == 0 || !overlaps b n w.1 w.2) && disjointWindows r

/-- A manifest payload is valid (R211). -/
def manifestValid (v : Nat) (p : List Nat) : Bool :=
  let n := u16 p 4
  let ent (k o : Nat) := u64 p (72 + 64 * k + o)
  let cl (k : Nat) := u16 p (72 + 64 * k)
  let ks := List.range n
  let t1 := (u64 p 24, u64 p 32) :: ks.map (fun k => (ent k 8, ent k 16))
  let t2 := (u64 p 40, u64 p 48) :: ks.map (fun k => (ent k 24, ent k 32))
  u32 p 0 == 0x50524F54 && decide (n ≤ 257) && decide (72 + 64 * n ≤ p.length) && manifestZeros p n &&
    decide ((ks.map cl).Nodup) && ks.all (fun k => decide (cl k ≤ 256)) &&
    ks.any (fun k => cl k == 0 && ent k 48 != 0) &&
    t1.all (fun w => windowOk w.1 w.2 (t1Max v)) && t2.all (fun w => windowOk w.1 w.2 (t2Max v)) &&
    ks.all (fun k => ent k 40 % 4096 == 0 && ent k 48 % 4096 == 0) &&
    disjointWindows t1 && disjointWindows t2 &&
    (u32 p 8 &&& u32 p 12) == 0 &&
    (decide (ioDiesOf v = 2) || decide (u32 p 8 < 0x10000 ∧ u32 p 12 < 0x10000))

/-- The header and payload of a manifest copy. -/
def Dev.manifestAt (d : Dev) (nv : Nv) (m : Nat) : List Nat × List Nat := imageAt (d.flashRead nv) (manBase m) 0x10000

/-- A manifest's key is accepted and its header verifies (R205, R208). -/
def manifestSigned (nv : Nv) (opt h p : List Nat) : Bool :=
  if hdrKey h = 0xFE then zerosAt opt 64 48 && headerVerifies h p false
  else headerVerifies h p true && (rootKeyOk nv opt h || ownerKeyOk opt h)

/-- A manifest copy passes R205, R208 and R211. -/
def Dev.manifestPasses (d : Dev) (nv : Nv) (m : Nat) : Bool :=
  let i := d.manifestAt nv m
  hdrType i.1 == 3 && manifestSigned nv d.rst.opt i.1 i.2 && manifestValid d.variant i.2

/-- The manifest copy in force (R214); none for the built-in manifest. -/
def Dev.manifestChoice (d : Dev) (nv : Nv) (man : Nat) : Option Nat :=
  if d.manifestPasses nv (man % 2) then some (man % 2)
  else if d.manifestPasses nv ((man + 1) % 2) then some ((man + 1) % 2) else none

/-- Write the resident record of the protection set-up from its 64 bytes. -/
def Dev.putResident (d : Dev) (r : List Nat) : Dev :=
  let d := d.wr R.RES_STREAM_LANES (u32 r 0)
  let d := d.wr R.RES_AET_LANES (u32 r 4)
  let d := d.wr R.RES_DEC_MASK (u8 r 8)
  let d := d.wr R.RES_DRV_MASK (u8 r 9)
  let d := d.wr R.RES_SA_MASK (u16 r 10)
  let d := d.wr R.RES_T1_BASE (u64 r 16)
  let d := d.wr R.RES_T1_SIZE (u64 r 24)
  let d := d.wr R.RES_T2_BASE (u64 r 32)
  d.wr R.RES_T2_SIZE (u64 r 40)

/-- Write a client entry of the protection set-up from its 64 bytes. -/
def Dev.putEntry (d : Dev) (e : List Nat) : Dev :=
  let c := u16 e 0
  let d := d.wri R.ENT_CLIENT c c
  let d := d.wri R.ENT_RIGHTS c (u16 e 2)
  let d := d.wri R.ENT_T1_BASE c (u64 e 8)
  let d := d.wri R.ENT_T1_SIZE c (u64 e 16)
  let d := d.wri R.ENT_T2_BASE c (u64 e 24)
  let d := d.wri R.ENT_T2_SIZE c (u64 e 32)
  let d := d.wri R.ENT_HOST_BASE c (u64 e 40)
  d.wri R.ENT_HOST_SIZE c (u64 e 48)

/-- Write a manifest payload into the protection set-up (R212). -/
def Dev.putManifest (d : Dev) (p : List Nat) : Dev :=
  (List.range (u16 p 4)).foldl (fun a k => a.putEntry (bytesAt p (72 + 64 * k) 64)) (d.putResident (bytesAt p 8 64))

/-- The built-in manifest (R215). -/
def Dev.putBuiltIn (d : Dev) : Dev :=
  let v := d.variant
  let lanes := if ioDiesOf v = 2 then 0xFFFFFFFF else 0xFFFF
  let d := d.putResident (leBytes 4 lanes ++ leBytes 4 lanes ++ [0xFF, 7] ++ leBytes 2 0xFFF ++ [0, 0, 0, 0] ++
    leBytes 8 0 ++ leBytes 8 (t1Max v) ++ leBytes 8 0 ++ leBytes 8 (t2Max v))
  d.putEntry ([0, 0, 0xFF, 0] ++ List.replicate 36 0 ++ leBytes 8 0 ++ leBytes 8 0xFFFFFFFFFFFFF000)

end Sys2Proof.Machine
end

