-- ==== Sys2Proof/Machine/Power.lean ====
section
/-!
DEFINITION. On-module power delivery (chapter 03): supplies, the up and down sequences, leg protection, rail faults,
capacity, the power cap, releases and telemetry.
-/

namespace Sys2Proof.Machine

/-- First leg and number of legs of a rail (PWR.2): 0 VCORE, 1 VSRAM, 2 VHEAT, 3 VPHO. -/
def railBase (r : Nat) : Nat := nth 0 [0, 24, 28, 32] r
def railLegs (r : Nat) : List Nat := (List.range (nth 0 [24, 4, 4, 2] r)).map (· + railBase r)

/-- Rail of a leg. -/
def railOf (leg : Nat) : Nat := if leg < 24 then 0 else if leg < 28 then 1 else if leg < 32 then 2 else 3

/-- Capacity of one leg of a rail in mW: 25 A at the rail's nominal voltage (PWR.2). -/
def legMw (r : Nat) : Nat := nth 0 [18750, 21250, 82500, 45000] r

/-- In-service legs of a rail: those not latched off. -/
def Dev.inService (d : Dev) (r : Nat) : Nat :=
  ((railLegs r).filter (fun l => !d.isSeti R.PWR_LEG_LATCH l)).length

/-- Capacity of a rail in mW (PWR.2). -/
def Dev.capacity (d : Dev) (r : Nat) : Nat := d.inService r * legMw r

/-- A power budget's peak on a rail exceeds the rail's capacity. -/
def Dev.overCapacity (d : Dev) (b : List Nat) (r : Nat) : Bool := decide (d.capacity r < budPeak b r * 100)

/-- Order of the rails in the up and in the down sequence (R109, R112). -/
def upOrder : List Nat := [0, 1, 3, 2]
def downOrder : List Nat := [2, 3, 1, 0]

/-- State of a rail. -/
def Dev.rail (d : Dev) (r : Nat) : RailState := nth .off d.pw.rails r

/-- Every rail is within 5 % of nominal. -/
def Dev.railsUp (d : Dev) : Bool := (List.range 4).all (fun r => decide (d.rail r = .up))

/-- Change a rail, and RAILS_UP with it. -/
def Dev.setRail (d : Dev) (r : Nat) (x : RailState) : Dev :=
  let d := { d with pw := { d.pw with rails := d.pw.rails.set r x } }
  d.flag R.PWR_STATUS_RAILS_UP d.railsUp

/-- Change what the power sequencer does. -/
def Dev.setSeq (d : Dev) (q : PwrSeq) : Dev := { d with pw := { d.pw with seq := q } }

/-- Start the ramp of the first rail of the up order that is not up, unless one is ramping (R109, R1011). -/
def Dev.nextRamp (d : Dev) : Dev :=
  match upOrder.find? (fun r => decide (d.rail r ≠ .up)) with
  | some r => if d.rail r = .off then d.setRail r .ramping else d
  | none => d

/-- The soft-start of the FULL exit sequence has every rail up: the OTP step follows (RST.3). -/
def Dev.softStartDone (d : Dev) : Dev :=
  if d.railsUp && decide (d.epPhase = some .softStart) then (d.setSeq .idle).setPhase .otp else d

/-- A RAIL_RETRY request that is PENDING is decided: OK once its up sequence starts (R983), ERROR when it never will. -/
def Dev.retryReply (d : Dev) (st : Nat) : Dev :=
  if d.isSet R.MGT_STATUS_PENDING then
    { d.wr R.MGT_STATUS_PENDING 0 with mgt := { d.mgt with cached := d.mgt.cached.map (fun r => { r with status := st }) } }
  else d

/-- Begin, or go on with, the up sequence (R109); a running down sequence ends first. -/
def Dev.startUpSeq (d : Dev) (retry : Bool) : Dev :=
  if d.pw.seq = .falling then d
  else ((((if retry then d.retryReply 0 else d).setSeq (.rising retry)).nextRamp).softStartDone)

/-- Turn off the laser bias regulators (R112); the engines go dark. -/
def Dev.lasersOff (d : Dev) : Dev := (d.wri R.OPT_ENG_ON 0 0).wri R.OPT_ENG_ON 1 0

/-- Turn off the next rail of the down sequence (R112). -/
def Dev.nextDown (d : Dev) : Dev :=
  match downOrder.find? (fun r => decide (d.rail r = .up ∨ d.rail r = .ramping)) with
  | some r => d.setRail r .discharging
  | none => d

/-- No rail is left to turn off. -/
def Dev.allDown (d : Dev) : Bool := (List.range 4).all (fun r => decide (d.rail r = .off))

/-- Run the down sequence on the rails that are on (R112, R113). -/
def Dev.startDownSeq (d : Dev) : Dev :=
  let d := d.lasersOff
  if d.allDown then d.setSeq .idle else (d.setSeq .falling).nextDown

/-- A rail fault (R123, R124): the faulted rail off at once, every rail for INPUT_OC, the down sequence on the rest,
nFAULT, the information register, and the REG_FAULT source of a DEVICE reach. -/
def Dev.railFault (d : Dev) (kind rail legA legB : Nat) : Dev :=
  let d := d.wr R.PWR_RAIL_FAULT_INFO_KIND kind
  let d := d.wr R.PWR_RAIL_FAULT_INFO_RAIL rail
  let d := d.wr R.PWR_RAIL_FAULT_INFO_LEG_A legA
  let d := d.wr R.PWR_RAIL_FAULT_INFO_LEG_B legB
  let d := d.inc R.PWR_RAIL_FAULT_INFO_COUNT
  let d := d.wri R.PWR_STATUS_RAIL_FAULT rail 1
  let d := if kind = 7 then (List.range 4).foldl (fun a r => a.setRail r .off) d else d.setRail rail .off
  let d := d.startDownSeq.retryReply 2
  let d := { d with pw := { d.pw with nFault := true, retry := none } }
  let d := d.rasEvent 6 0x02 noClient 0
  d.assertSrc .regFault .device true

/-- Some rail's capacity is below the running plan's peak (PWR_STATUS.SHORTFALL). -/
def Dev.shortNow (d : Dev) : Bool :=
  d.planActive && (List.range 4).any (d.overCapacity (planBudget d.sq.active d.sq.plan))

/-- PWR_STATUS.CAP_ABOVE: the running plan's average power exceeds the cap. -/
def Dev.capAboveNow (d : Dev) : Bool :=
  d.planActive && decide (d.rd R.PWR_CAP_CAP_W * 4 * planLen d.sq.active d.sq.plan <
    budEIn (planBudget d.sq.active d.sq.plan))

/-- Bring the two comparisons of PWR_STATUS up to date. -/
def Dev.syncPower (d : Dev) : Dev :=
  (d.flag R.PWR_STATUS_SHORTFALL d.shortNow).flag R.PWR_STATUS_CAP_ABOVE d.capAboveNow

/-- The first rail whose capacity is below the safe plan's peak (R133). -/
def Dev.safeShortRail (d : Dev) : Option Nat :=
  (List.range 4).find? (d.overCapacity (planBudget d.sq.active (d.formOf 1)))

/-- Compare each rail with the safe plan at an instant of R133: a lack of capacity is a SAFE_SHORT rail fault. -/
def Dev.safeCompare (d : Dev) : Dev :=
  match d.safeShortRail with
  | some r => d.railFault 6 r 0x3F 0x3F
  | none => d

/-- The running plan is the safe plan. -/
def Dev.safeRuns (d : Dev) : Bool := decide (d.rd R.SEQ_STATUS_STATE = 2)

/-- A move to the safe plan becomes pending (R41, R394), with the comparison of R133. -/
def Dev.pendSafe (d : Dev) (shortfall : Bool) : Dev :=
  if d.planActive && !d.safeRuns && !d.isSet R.SEQ_STATUS_SAFE_PENDING then
    let d := d.wr R.SEQ_STATUS_SAFE_PENDING 1
    let d := { d with sq := { d.sq with shortfallMove := shortfall } }
    d.safeCompare
  else d

/-- Whether any leg is latched off, in PWR_STATUS. -/
def Dev.syncLatched (d : Dev) : Dev :=
  d.flag R.PWR_STATUS_LEG_LATCHED ((List.range 34).any (d.isSeti R.PWR_LEG_LATCH))

/-- A leg is retired: it has latched off four times since FULL reach (R121). -/
def Dev.retired (d : Dev) (leg : Nat) : Bool := d.isSeti R.PWR_LEG_CNT_RETIRED leg

/-- A leg latches off (R117, R121); the last in-service leg of its rail makes an ALL_LEGS rail fault. -/
def Dev.latchLeg (d : Dev) (leg : Nat) : Dev :=
  let r := railOf leg
  let d := d.wri R.PWR_LEG_LATCH leg 1
  let d := d.wri R.PWR_LEG_PARK leg 0
  let d := d.inci R.PWR_LEG_CNT_LATCHES leg
  let d := if 4 ≤ d.rdi R.PWR_LEG_CNT_LATCHES leg then d.wri R.PWR_LEG_CNT_RETIRED leg 1 else d
  let d := d.syncLatched
  let d := (d.rasEvent 6 0x02 noClient 0).evt 3
  let d := { d with pw := { d.pw with rebalancing := r :: d.pw.rebalancing.filter (· ≠ r),
                                      consec := d.pw.consec.set leg 0 } }
  if d.inService r = 0 then d.railFault 5 r leg 0x3F else d

/-- Another leg of the rail has a fault instant within 250 beats of this beat (kind SHORT). -/
def Dev.shortPartner (d : Dev) (leg : Nat) : Option Nat :=
  (railLegs (railOf leg)).find? (fun l =>
    l ≠ leg && (match nth none d.pw.faultAt l with
                | some b => decide (d.beat ≤ b + 250)
                | none => false))

/-- A leg's comparator turns it off, making a faulted cycle (R115-R117); a SHORT of its rail (PWR.5). -/
def legTrip (leg cycle : Nat) (hard : Bool) (d : Dev) : Dev :=
  if d.isSeti R.PWR_LEG_LATCH leg || d.isSeti R.PWR_LEG_PARK leg || decide (d.rail (railOf leg) = .off) then d
  else
    let last := nth 0 d.pw.lastCycle leg
    let same := last == cycle && last ≠ 0
    let run := if same then nth 0 d.pw.consec leg
               else if last + 1 = cycle ∧ last ≠ 0 then nth 0 d.pw.consec leg + 1 else 1
    let d := if same then d else d.inci R.PWR_LEG_CNT_FAULT_CYC leg
    let d := if hard then d.inci R.PWR_LEG_CNT_HARD_TRIPS leg else d
    let d := { d with pw := { d.pw with consec := d.pw.consec.set leg run, lastCycle := d.pw.lastCycle.set leg cycle,
                                        faultAt := d.pw.faultAt.set leg (some d.beat) } }
    match d.shortPartner leg with
    | some l => d.railFault 1 (railOf leg) l leg
    | none => if 3 ≤ run then d.latchLeg leg else d

def execLegComparatorTrip (leg cycle : Nat) (hard : Bool) (s : State) : Host.Outcome State Fault Refusal :=
  unit (decide (leg < 34)) (onDev (legTrip leg cycle hard) s)

/-- A parked leg of the rail comes into service after an active leg latched off (R108). -/
def legUnpark (rail leg : Nat) (d : Dev) : Dev :=
  if rail ∈ d.pw.rebalancing ∧ railOf leg = rail ∧ d.isSeti R.PWR_LEG_PARK leg then d.wri R.PWR_LEG_PARK leg 0 else d

def execLegUnpark (rail leg : Nat) (s : State) : Host.Outcome State Fault Refusal :=
  unit (decide (rail < 4) && decide (leg < 34)) (onDev (legUnpark rail leg) s)

/-- The capacity finding of a rail after re-balancing (R118): SHORTFALL, the safe move, and the comparison of R133
while a safe move is pending or the safe plan runs. -/
def capacityFinding (rail : Nat) (d : Dev) : Dev :=
  if rail ∈ d.pw.rebalancing then
    let d := { d with pw := { d.pw with rebalancing := d.pw.rebalancing.filter (· ≠ rail) } }
    if !d.planActive then d
    else
      let short := d.overCapacity (planBudget d.sq.active d.sq.plan) rail
      let d := if short then ((d.wr R.PWR_STATUS_SHORTFALL 1).rasEvent 6 0x02 noClient 0).evt 3 else d
      if d.safeRuns || d.isSet R.SEQ_STATUS_SAFE_PENDING then d.safeCompare
      else if short then d.pendSafe true else d
  else d

def execCapacityFinding (rail : Nat) (s : State) : Host.Outcome State Fault Refusal :=
  unit (decide (rail < 4)) (onDev (capacityFinding rail) s)

/-- A leg returns to service: unlatched, active or parked. -/
def Dev.releaseLeg (d : Dev) (leg : Nat) (parked : Bool) : Dev :=
  ((d.wri R.PWR_LEG_LATCH leg 0).flagi R.PWR_LEG_PARK leg parked).syncLatched

/-- A write of PWR_LEG_RELEASE by client 0 (R119-R122): a latched leg that is not retired returns at the next seam. -/
def pwrLegRelease (value : Nat) (d : Dev) : Dev :=
  let leg := bits value 0 6
  if bitAt value 31 && decide (leg < 34) && d.isSeti R.PWR_LEG_LATCH leg && !d.retired leg then
    { d with pw := { d.pw with returning := leg :: d.pw.returning.filter (· ≠ leg) } }
  else d

def execPwrLegRelease (value : Nat) (s : State) : Host.Outcome State Fault Refusal :=
  onDev (fun d => d.gated .pf 0x20020 (pwrLegRelease value)) s

/-- A write of PWR_CAP (R136, R137): ignored once locked; CAP_W only in 100-720. -/
def pwrCapWrite (value : Nat) (d : Dev) : Dev :=
  if d.isSet R.PWR_CAP_LOCK then d
  else
    let w := bits value 0 10
    let d := if 100 ≤ w ∧ w ≤ 720 then d.wr R.PWR_CAP_CAP_W w else d
    let d := if bitAt value 31 then d.wr R.PWR_CAP_LOCK 1 else d
    d.syncPower

def execPwrCapWrite (m : Master) (value : Nat) (s : State) : Host.Outcome State Fault Refusal :=
  onDev (fun d => d.gated m 0x20030 (pwrCapWrite value)) s

/-- The end of a 1 ms telemetry window (PWR.6, R135): the averages update, and measured energy more than 10 % above
the plan's makes an overrun window. -/
def telemetryWindow (mv cur power energy : Nat) (rails : List (Nat × Nat)) (d : Dev) : Dev :=
  let d := d.wr R.PWR_IN_VI_MV mv
  let d := d.wr R.PWR_IN_VI_CUR cur
  let d := d.wr R.PWR_IN_P power
  let d := d.wr R.PWR_ENERGY (d.rd R.PWR_ENERGY + energy)
  let d := (List.range 4).foldl (fun a r => (a.wri R.PWR_RAIL_VI_MV r (nth (0, 0) rails r).1).wri
    R.PWR_RAIL_VI_CUR r (nth (0, 0) rails r).2) d
  let b := planBudget d.sq.active d.sq.plan
  if d.planActive && decide (11 * budEIn b * 250000 < 10 * energy * 1000 * planLen d.sq.active d.sq.plan) then
    (((d.inc R.PWR_OVERRUN_CNT).wr R.PWR_STATUS_OVERRUN 1).rasEvent 6 0x02 noClient 0).evt 3
  else d

def execPowerTelemetryWindow (mv cur power energy : Nat) (rails : List (Nat × Nat)) (s : State) :
    Host.Outcome State Fault Refusal := onDev (telemetryWindow mv cur power energy rails) s

/-- OTP identity in the GLB registers (R999, R1000). -/
def Dev.loadIdentity (d : Dev) (nv : Nv) : Dev :=
  let b (a : Nat) : Nat := (mget 0 nv.otp a).toNat
  let v := b 16 % 4
  let d := (List.range 4).foldl (fun a k => a.wri R.GLB_SERIAL k (leVal (mgets 0 nv.otp (4 * k) 4))) d
  let d := d.wr R.GLB_ID_VARIANT v
  let d := d.wr R.GLB_ID_STEPPING 0xB1
  let d := d.wr R.GLB_ID_STACKS (stacksOf v)
  d.wr R.GLB_ID_IODIES (ioDiesOf v)



/-- The device at power-on: every field at its power-on value (R8, R99). -/
def powerOn (nv : Nv) : Dev := (({} : Dev).loadIdentity nv).wr R.BTP_SVN_FUSES nv.fuseCount

/-- VAUX becomes valid (R99): the power-on FULL episode begins. -/
def vauxValid (nv : Nv) (d : Dev) : Dev :=
  if d.pw.vaux then d
  else
    let n := powerOn nv
    let n := { n with beat := d.beat, free := d.free, flashUndef := d.flashUndef, out := d.out, mgt := { vauxAt := d.beat },
                      rst := { n.rst with perstHigh := d.rst.perstHigh, nrstHigh := d.rst.nrstHigh },
                      pw := { n.pw with vaux := true, vin12 := d.pw.vin12, vin12Seen := d.pw.vin12 } }
    let n := n.assertSrc .por .full true
    let n := if d.pw.vin12 then n.releaseSrc .por else n
    if d.rst.nrstHigh then n else n.assertSrc .pin .device true

def execVauxValid (s : State) : Host.Outcome State Fault Refusal := onDevNv vauxValid s

/-- VAUX is lost (R99): every leg stops, the laser bias turns off, and everything is as at power-on. -/
def vauxLoss (nv : Nv) (d : Dev) : Dev :=
  { powerOn nv with beat := d.beat, free := d.free, flashUndef := d.flashTorn, out := d.out,
                    rst := { perstHigh := d.rst.perstHigh, nrstHigh := d.rst.nrstHigh },
                    pw := { vin12 := d.pw.vin12 } }

def execVauxLoss (s : State) : Host.Outcome State Fault Refusal := onDevNv vauxLoss s

/-- VIN12 becomes valid (R97): the power-on and brown-out sources are released. -/
def vin12Valid (d : Dev) : Dev :=
  let d := { d with pw := { d.pw with vin12 := true, vin12Seen := d.pw.vin12Seen || d.pw.vaux } }
  if d.pw.vaux then (d.releaseSrc .por).releaseSrc .bor else d

def execVin12Valid (s : State) : Host.Outcome State Fault Refusal := onDev vin12Valid s

/-- VIN12 is lost after having been valid (R98): the down sequence and the brown-out source of FULL reach. -/
def brownOut (d : Dev) : Dev :=
  if d.pw.vin12 then
    let d := { d with pw := { d.pw with vin12 := false } }
    if d.pw.vaux && d.pw.vin12Seen then (d.startDownSeq).assertSrc .bor .full true else d
  else d

def execBrownOut (s : State) : Host.Outcome State Fault Refusal := onDev brownOut s

/-- Two SA13 words above 72 A (R100): an INPUT_OC rail fault, recorded for rail 0. -/
def inputOc (d : Dev) : Dev := if d.allDown then d else d.railFault 7 0 0x3F 0x3F

def execInputOc (s : State) : Host.Outcome State Fault Refusal := onDev inputOc s

/-- A soft-starting rail reaches regulation, and the next one starts (R109). -/
def railRampDone (rail : Nat) (d : Dev) : Dev :=
  if d.rail rail = .ramping then
    let d := d.setRail rail .up
    match d.pw.seq with
    | .rising _ => (d.nextRamp).softStartDone
    | _ => d
  else d

def execRailRampDone (rail : Nat) (s : State) : Host.Outcome State Fault Refusal :=
  unit (decide (rail < 4)) (onDev (railRampDone rail) s)

/-- A rail is not in regulation 3 ms after its ramp began (R110). -/
def startFault (rail : Nat) (d : Dev) : Dev :=
  if d.rail rail = .ramping then d.railFault 4 rail 0x3F 0x3F else d

def execStart (rail : Nat) (s : State) : Host.Outcome State Fault Refusal :=
  unit (decide (rail < 4)) (onDev (startFault rail) s)

/-- A rail of the down sequence is discharged: the next one is turned off (R112); at the end a soft-start that waits
begins from VCORE (R1011), or the up sequence of a RAIL_RETRY (R128). -/
def railDischargeDone (rail : Nat) (d : Dev) : Dev :=
  if d.rail rail = .discharging then
    let d := (d.setRail rail .off).nextDown
    if d.allDown then
      let d := d.setSeq .idle
      if d.epPhase = some .softStart then d.startUpSeq false
      else if d.pw.retry.isSome then d.startUpSeq true
      else d
    else d
  else d

def execRailDischargeDone (rail : Nat) (s : State) : Host.Outcome State Fault Refusal :=
  unit (decide (rail < 4)) (onDev (railDischargeDone rail) s)

/-- A rail above 110 % of nominal for 1 µs (R123). -/
def overVoltage (rail : Nat) (d : Dev) : Dev :=
  if d.rail rail = .up ∨ d.rail rail = .ramping then d.railFault 2 rail 0x3F 0x3F else d

def execOv (rail : Nat) (s : State) : Host.Outcome State Fault Refusal :=
  unit (decide (rail < 4)) (onDev (overVoltage rail) s)

/-- A rail that is up below 90 % of nominal for 10 µs (R123). -/
def underVoltage (rail : Nat) (d : Dev) : Dev :=
  if d.rail rail = .up then d.railFault 3 rail 0x3F 0x3F else d

def execUv (rail : Nat) (s : State) : Host.Outcome State Fault Refusal :=
  unit (decide (rail < 4)) (onDev (underVoltage rail) s)

/-- An accepted RAIL_RETRY (R128): nFAULT and the fault are released, the rail's latched legs return but for retired
ones, and the up sequence starts. -/
def Dev.railRetry (d : Dev) (rail : Nat) : Dev :=
  let d := d.wri R.PWR_STATUS_RAIL_FAULT rail 0
  let d := (railLegs rail).foldl (fun a l => if a.isSeti R.PWR_LEG_LATCH l && !a.retired l then a.releaseLeg l false else a) d
  let d := { d with pw := { d.pw with nFault := false, retry := some rail } }
  d.startUpSeq true

/-- The up sequence of RAIL_RETRY ends with every rail in regulation: the REG_FAULT source is released (R128). -/
def railRetryUpDone (d : Dev) : Dev :=
  if d.railsUp && d.pw.retry.isSome then
    ({ d with pw := { d.pw with retry := none, seq := .idle } }).releaseSrc .regFault
  else d

def execRailRetryUpDone (s : State) : Host.Outcome State Fault Refusal := onDev railRetryUpDone s

/-- The LVDS regulator reaches regulation (R64). -/
def lvdsUp (d : Dev) : Dev := if d.pw.vaux then { d with pw := { d.pw with lvds := true } } else d

def execLvdsRegulatorInRegulation (s : State) : Host.Outcome State Fault Refusal := onDev lvdsUp s

end Sys2Proof.Machine
end

