-- ==== Sys2Proof/Machine/Reset.lean ====
section
/-!
DEFINITION. Reset sources and episodes (chapter 04): the pins, host commands, link events, watchdogs, the hold and the
OTP, strap and REFCLK steps of an exit sequence, and the pins nRST_OUT and PG_OUT.
-/

namespace Sys2Proof.Machine

/-- nRST_OUT is asserted (R162); without VAUX it is released (R64). -/
def Dev.nRstOut (d : Dev) : Bool := d.pw.vaux && d.rst.ep.isSome

/-- The episode in progress has FULL reach. -/
def Dev.inFull (d : Dev) : Bool := decide (d.rst.ep.map (·.reach) = some .full)

/-- PG_OUT (R64): low in FULL reach, else high while every rail is in regulation. -/
def Dev.pgOut (d : Dev) : Bool := d.pw.vaux && !d.inFull && d.railsUp

/-- Option bits of RST_OPT (RST.8). -/
def Dev.perstDevice (d : Dev) : Bool := d.optBit 8 0
def Dev.hotWarm (d : Dev) : Bool := d.optBit 8 1
def Dev.ldnWarm (d : Dev) : Bool := d.optBit 8 2
def Dev.sealedMode (d : Dev) : Bool := d.optBit 8 3

/-- A level of nRST_IN is recognised (R152): low asserts the PIN source, high releases it. -/
def nrstRecognised (high : Bool) (d : Dev) : Dev :=
  let d := { d with rst := { d.rst with nrstHigh := high } }
  if !d.pw.vaux then d
  else if high then d.releaseSrc .pin
  else if Src.pin ∈ d.rst.asserted then d else d.assertSrc .pin .device true

def execNrstInRecognised (high : Bool) (s : State) : Host.Outcome State Fault Refusal := onDev (nrstRecognised high) s

/-- The PCIe link is down: HIF_LINK and the configuration registers of every function at their defaults (R621). -/
def Dev.pcieDown (d : Dev) : Dev :=
  let d := d.wr R.HIF_LINK_SPEED 0
  let d := d.wr R.HIF_LINK_WIDTH 0
  let d := d.wr R.HIF_LINK_DL_UP 0
  let d := d.wr R.HIF_LINK_D3HOT 0
  let d := d.wr R.HIF_LINK_NUMVFS 0
  { d with hif := { d.hif with fns := [], vfEnable := false, numVfs := 0, vfReady := false } }

/-- A level of PERST_N is recognised (R146, R147, R152). A low level that is no source still holds the link down. -/
def perstRecognised (high : Bool) (d : Dev) : Dev :=
  let src := !high && d.rst.perstSeen && !decide (Src.perst ∈ d.rst.asserted)
  let d := { d with rst := { d.rst with perstHigh := high, perstSeen := d.rst.perstSeen || high } }
  if !d.pw.vaux then d
  else if high then d.releaseSrc .perst
  else
    let d := d.pcieDown
    if src then d.assertSrc .perst (if d.perstDevice then .device else .warm) true else d

def execPerstNRecognised (high : Bool) (s : State) : Host.Outcome State Fault Refusal := onDev (perstRecognised high) s

/-- A write of RST_HOST_CMD by client 0 (R150, R151, R176). -/
def Dev.hostCmd (d : Dev) (value : Nat) : Dev :=
  if !d.pw.vaux || !bitAt value 31 then d
  else if d.sealedMode then d.protection 0 0x10010
  else if bits value 0 8 ≠ 0xA5 then d.accessError 0 0x10010
  else if bits value 8 2 = 1 then d.assertSrc .host .warm false
  else if bits value 8 2 = 2 then d.assertSrc .host .device false
  else d.accessError 0 0x10010

/-- The host reset command with REACH WARM. -/
def execHostResetWarm (value : Nat) (s : State) : Host.Outcome State Fault Refusal :=
  onDev (fun d => d.gated .pf 0x10010 (fun d => d.hostCmd value)) s

/-- The host reset command with REACH DEVICE. -/
def execHostResetDevice (value : Nat) (s : State) : Host.Outcome State Fault Refusal :=
  onDev (fun d => d.gated .pf 0x10010 (fun d => d.hostCmd value)) s

/-- A BLOCK reach of HIF by a link event (R149, R1010): it starts at once in IDLE_REQUESTED mode; a further event
during it restarts its 256 beats. An episode covers it (R161). The PF answers without CRS afterwards (R622). -/
def Dev.hotBlock (d : Dev) : Dev :=
  if d.rst.ep.isSome then d
  else
    let now := d.beat
    let d := { d.wr R.HIF_LINK_CRS 0 with hif := { d.hif with noCrs := true } }
    match d.rst.hot with
    | some _ => { d with rst := { d.rst with hotAt := now } }
    | none => { d with rst := { d.rst with hot := some .requested, hotAt := now } }

/-- A PCIe hot reset (R149, R621). -/
def hotReset (d : Dev) : Dev :=
  if !d.pw.vaux then d
  else
    let d := { d with hif := { d.hif with fns := [], vfEnable := false, numVfs := 0, vfReady := false } }
    let d := d.wr R.HIF_LINK_NUMVFS 0
    if d.hotWarm then d.assertSrc .hot .warm false else (d.cause .hot).hotBlock

def execPcieHotReset (s : State) : Host.Outcome State Fault Refusal := onDev hotReset s

/-- The data link layer leaves DL_Active (R148, R149, R621). -/
def linkDown (d : Dev) : Dev :=
  if d.isSet R.HIF_LINK_DL_UP then
    let d := d.pcieDown
    if !d.hif.dlSeen then d
    else if d.ldnWarm then d.assertSrc .ldn .warm false else (d.cause .ldn).hotBlock
  else d

def execPcieLinkDown (s : State) : Host.Outcome State Fault Refusal := onDev linkDown s

/-- The boot watchdog expires (R195, R196). -/
def bootWdogExpiry (d : Dev) : Dev :=
  if d.boot.wdog = .running then d.assertSrc .wdogBoot .device false else d

def execBootWatchdogExpiry (s : State) : Host.Outcome State Fault Refusal := onDev bootWdogExpiry s

/-- A firmware watchdog period ends with a control core unreported (R198). -/
def fwWdogExpiry (core : Nat) (d : Dev) : Dev :=
  if d.isSet R.BTP_SEAL && d.boot.cores && !bitAt (d.rd R.MGT_DBG_HALTED) core then d.assertSrc .wdogFw .warm false else d

def execFwWatchdogExpiry (core : Nat) (s : State) : Host.Outcome State Fault Refusal :=
  unit (decide (core < 4)) (onDev (fwWdogExpiry core) s)

/-- Move time to at least a beat. -/
def Dev.atLeast (d : Dev) (b : Nat) : Dev := { d with beat := max d.beat b }

/-- Time from H to the end of the episode, in beats (RST.3). -/
def Reach.exitBeats (r : Reach) : Nat :=
  match r with
  | .full => 10000000 | .device => 7000000 | .warm => 6500000

/-- Beats from E0 that the hold lasts at least (R157). -/
def Reach.holdBeats (r : Reach) : Nat :=
  match r with
  | .full => 0 | .device => 5000000 | .warm => 5000000

/-- First phase of the exit sequence of a reach. -/
def Reach.firstPhase (r : Reach) : EpPhase :=
  match r with
  | .full => .softStart | .device => .otp | .warm => .romWait

/-- The hold ends at H once no source is asserted (R157), and the exit sequence of the reach starts (R158). -/
def holdEnd (d : Dev) : Dev :=
  match d.rst.ep with
  | some e =>
    if e.phase = .hold ∧ d.rst.asserted = [] then
      let d := d.atLeast (e.start + e.reach.holdBeats)
      let d := if e.reach = .warm then d else d.wr R.RST_STRAP_RETRIES 0
      let d := { d with rst := { d.rst with ep := some { e with phase := e.reach.firstPhase, h := d.beat } } }
      if e.reach = .full then d.startUpSeq false else d
    else d
  | none => d

def execEpisodeHoldEnd (s : State) : Host.Outcome State Fault Refusal := onDev holdEnd s

/-- Option generation slot `i` of OTP (RST.8). -/
def optSlot (nv : Nv) (i : Nat) : List Nat := mgets 0 nv.otp (0x800 + 256 * i) 256

/-- An option slot is blank (R183). -/
def optBlank (b : List Nat) : Bool := b.all (· == 0)

/-- Generation of an option block. -/
def optGen (b : List Nat) : Nat := u16 b 2

/-- An option block is valid (R184). -/
def optValid (b : List Nat) : Bool :=
  let c := u16 b 12
  let t := u16 b 14
  u16 b 0 == 0x4F70 && decide (1 ≤ optGen b ∧ optGen b ≤ 65534) && u16 b 4 == 65535 - optGen b &&
    zerosAt b 6 2 && decide (u8 b 8 < 16) && decide (u8 b 9 < 32) && decide (u8 b 10 < 2) && zerosAt b 11 1 &&
    (c == 0 || decide (100 ≤ c ∧ c ≤ 720)) && decide (t ≤ 1023) && zerosAt b 16 48 && zerosAt b 112 140 &&
    u32 b 252 == crc32c (bytesAt b 0 252)

/-- The slot that R185 selects: the highest generation, and among equals the lowest slot. -/
def optBest (nv : Nv) : Option Nat :=
  (List.range 8).foldl (fun best i =>
    if optValid (optSlot nv i) then
      match best with
      | some j => if optGen (optSlot nv j) < optGen (optSlot nv i) then some i else some j
      | none => some i
    else best) none

/-- The mask of slots that are neither blank nor valid. -/
def optInvalid (nv : Nv) : Nat :=
  (List.range 8).foldl (fun a i => if optBlank (optSlot nv i) || optValid (optSlot nv i) then a else a + 2 ^ i) 0

/-- Load the selected option generation into the registers that depend on it (R186, R187). -/
def Dev.loadOptions (d : Dev) (nv : Nv) : Dev :=
  let d := d.wr R.OTP_OPT_STATUS_INVALID (optInvalid nv)
  match optBest nv with
  | none =>
    let d := (List.range 256).foldl (fun a i => a.wri R.OTP_OPT_BYTE i 0) d
    let d := ((d.wr R.OTP_OPT_STATUS_SLOT 0).wr R.OTP_OPT_STATUS_DEFAULTS 1).wr R.OTP_OPT_STATUS_GEN 0
    { d with rst := { d.rst with opt := [] } }
  | some i =>
    let b := optSlot nv i
    let d := (List.range 256).foldl (fun a k => a.wri R.OTP_OPT_BYTE k (u8 b k)) d
    let d := ((d.wr R.OTP_OPT_STATUS_SLOT i).wr R.OTP_OPT_STATUS_DEFAULTS 0).wr R.OTP_OPT_STATUS_GEN (optGen b)
    let d := if u16 b 12 = 0 then d else d.wr R.PWR_CAP_CAP_W (u16 b 12)
    let d := if u16 b 14 = 0 then d else d.wr R.RST_BLK_IDLE_TO (u16 b 14)
    { d with rst := { d.rst with opt := b } }

/-- The OTP step of an exit sequence (R185-R187). -/
def otpSelect (nv : Nv) (d : Dev) : Dev :=
  if d.epPhase = some .otp then (d.loadOptions nv).setPhase .strap else d

def execOtpSelect (s : State) : Host.Outcome State Fault Refusal := onDevNv otpSelect s

/-- REFCLK frequency that CLK_MODE selects, in 0.1 Hz (R81); none for 0b11. -/
def refclkNominal (mode : Nat) : Option Nat :=
  match mode with
  | 0 => some 1562500000
  | 1 => some 1000000000
  | 2 => some 1611328125
  | _ => none

/-- A measured frequency is within 1.5 % of the one CLK_MODE selects (R180). -/
def refclkOk (mode freq : Nat) : Bool :=
  match refclkNominal mode with
  | some f => decide (985 * f ≤ 1000 * freq) && decide (1000 * freq ≤ 1015 * f)
  | none => false

/-- The strap step: straps sampled, REFCLK measured; the sequence goes on or halts there (R179-R181). -/
def Dev.strapSample (d : Dev) (bootSrc clkMode freq : Nat) : Dev :=
  let was := d.alertBits
  let ok := refclkOk clkMode freq
  let d := d.wr R.RST_STRAP_BOOT_SRC bootSrc
  let d := d.wr R.RST_STRAP_CLK_MODE clkMode
  let d := d.flag R.RST_STRAP_REFCLK_OK ok
  let d := { d with rst := { d.rst with refWatch := ok, strapInvalid := decide (clkMode % 4 = 3),
                                        refclkFail := !ok && decide (clkMode % 4 ≠ 3) } }
  (d.setPhase (if ok then .romWait else .strapHalted)).alertChange was

def strapStep (bootSrc clkMode freq : Nat) (d : Dev) : Dev :=
  if d.epPhase = some .strap then d.strapSample bootSrc (clkMode % 4) freq else d

def execStrapStep (bootSrc clkMode freq : Nat) (s : State) : Host.Outcome State Fault Refusal :=
  onDev (strapStep bootSrc clkMode freq) s

/-- A repeat of the strap step, 10 ms after the last (R181). -/
def strapRetry (bootSrc clkMode freq : Nat) (d : Dev) : Dev :=
  if d.epPhase = some .strapHalted then
    ((d.atLeast (d.beat + 2500000)).inc R.RST_STRAP_RETRIES).strapSample bootSrc (clkMode % 4) freq
  else d

def execStrapRetry (bootSrc clkMode freq : Nat) (s : State) : Host.Outcome State Fault Refusal :=
  onDev (strapRetry bootSrc clkMode freq) s

/-- Outputs of planned work go idle: DRV_EN low and every DEC line idle (MOD.4, R64). -/
def Dev.outputsIdle (d : Dev) : Dev := (d.wr R.LPE_STATUS_DRV_EN 0).wr R.TRG_STATUS_LINES 0

/-- Every link goes down. -/
def Dev.linksDown (d : Dev) : Dev :=
  let d := (List.range 16).foldl (fun a p => (a.wri R.STP_STATUS_LINK p 0).wri R.AET_PORT_LINK p 0) d
  ((d.wr R.HIF_LINK_SPEED 0).wr R.HIF_LINK_WIDTH 0).wr R.HIF_LINK_DL_UP 0

/-- REFCLK is lost (R182, MOD.4): in the hold or exit sequence of a FULL or DEVICE episode the sequence returns to its
strap step; otherwise planned work stops until the next DEVICE or wider reach. -/
def refclkLoss (d : Dev) : Dev :=
  if !d.rst.refWatch then d
  else
    let was := d.alertBits
    let d := { d with rst := { d.rst with refWatch := false } }
    match d.rst.ep with
    | some e =>
      if e.reach = .warm then (({ d with rst := { d.rst with refLost := true } }).outputsIdle.linksDown).alertChange was
      else
        let d := { d.wr R.RST_STRAP_REFCLK_OK 0 with rst := { d.rst with refclkFail := true } }
        let d := if e.phase = .hold then d
                 else ({ d.wr R.BTP_STATUS_STEP 0 with boot := {} }).setPhase .strapHalted
        d.alertChange was
    | none => (({ d with rst := { d.rst with refLost := true } }).outputsIdle.linksDown).alertChange was

def execRefclkLoss (s : State) : Host.Outcome State Fault Refusal := onDev refclkLoss s

/-- I/O die 1 finishes its start-up checks (R20). -/
def ioDieChecks (passed : Bool) (d : Dev) : Dev :=
  if ioDiesOf d.variant = 2 then { d with rst := { d.rst with ioDie1Failed := !passed } } else d

def execIoDieStartChecks (passed : Bool) (s : State) : Host.Outcome State Fault Refusal := onDev (ioDieChecks passed) s

end Sys2Proof.Machine
end

