-- ==== Sys2Proof/Machine/Boot.lean ====
section
/-!
DEFINITION. Boot (chapter 05): the boot ROM's choice, recovery from the host, the hand-over, the signed boot stage, and
the records that firmware writes after a fallback or an automatic confirmation.
-/

namespace Sys2Proof.Machine

/-- Give BTP_STATUS.STEP a value, with the alert of BOOT_FAILED (R985) and the event of class UPD (R607). -/
def Dev.bootStep (d : Dev) (step : Nat) : Dev := ((d.wr R.BTP_STATUS_STEP step).alertChange d.alertBits).evt 7

/-- Order in which the boot ROM tries the slots, whether it is a fallback, and the marks used by this boot (BOT.6). -/
def bootOrder (r : ActRec) : List Nat × Bool × Nat :=
  let o := if r.slot = 0 then 1 else 0
  if r.confirmed then ([r.slot, o], false, r.marks)
  else if r.marks < 3 then ([r.slot, o], false, r.marks + 1)
  else ([o], true, r.marks)

/-- The lowest unused trial mark of the current record is programmed to 0x00 (BOT.6). -/
def programMark (nv : Nv) : Nv :=
  match currentCopy nv with
  | some c =>
    match (List.range 3).find? (fun i => (mget 0xFF nv.flash (0x10000 * c + 124 + i)).toNat == 0xFF) with
    | some i => { nv with flash := mput 0xFF nv.flash (0x10000 * c + 124 + i) 0 }
    | none => nv
  | none => nv

/-- A slot is bootable (R200, BOT.6). -/
def Dev.slotBootable (d : Dev) (nv : Nv) (s : Nat) : Bool :=
  decide (s < 2) && !d.isSeti R.BTP_BOOT_FAIL s && stageBootable nv d.rst.opt (d.flashRead nv) (slotBase s)

/-- The boot ROM enters WAIT_HOST: the boot watchdog is suspended and CRS ends (R196, R197, R245). -/
def Dev.waitHost (d : Dev) : Dev :=
  let d := { d.bootStep 4 with boot := { d.boot with wdog := .suspended } }
  d.wr R.HIF_LINK_CRS 0

/-- No slot is bootable (R193): FAILED, or WAIT_HOST with FLASH_RECOVER. -/
def Dev.noSlot (d : Dev) (src : Nat) : Dev := if src = 1 then d.waitHost else d.bootStep 5

/-- Boot from the first bootable slot of an order. -/
def Dev.bootSlot (d : Dev) (r : ActRec) (order : List Nat × Bool × Nat) (s : Nat) : Dev :=
  let d := d.wr R.BTP_STATUS_BOOTED s
  let d := d.flag R.BTP_STATUS_TRIAL (!r.confirmed && decide (s = r.slot))
  let d := d.wr R.BTP_STATUS_TRIALS_USED order.2.2
  let d := d.flag R.BTP_STATUS_FALLBACK order.2.1
  { d with boot := { d.boot with sel := some s, fallbackDue := order.2.1 } }

/-- The boot ROM starts (R193-R195, R200, R201, BOT.6). -/
def romStart (sfdpOk : Bool) (nv : Nv) (d : Dev) : Nv × Dev :=
  if d.epPhase ≠ some .romWait then (nv, d)
  else
    let src := d.rd R.RST_STRAP_BOOT_SRC
    let d := d.setPhase .rom
    let d := { d with boot := { wdog := .running } }
    let d := (d.bootStep 0).wr R.BTP_STATUS_BOOTED 3
    let d := d.flag R.BTP_STATUS_STRAP_RSVD (decide (src = 3))
    if src = 2 then (nv, d.waitHost)
    else if !sfdpOk then (nv, d.noSlot src)
    else
      let r := currentRec nv
      let order := bootOrder r
      let nv' := if !r.confirmed && decide (r.marks < 3) then programMark nv else nv
      match order.1.find? (d.slotBootable nv') with
      | some s => (nv', d.bootSlot r order s)
      | none => (nv', (d.wr R.BTP_STATUS_TRIALS_USED order.2.2).noSlot src)

def execBootRomStart (sfdpOk : Bool) (s : State) : Host.Outcome State Fault Refusal := onAll (romStart sfdpOk) s

/-- The boot ROM hands over, or waits in WAIT_HOST: the episode ends (R162, R163, R167, R197). -/
def episodeEnd (d : Dev) : Dev :=
  match d.rst.ep with
  | some e =>
    let step := d.rd R.BTP_STATUS_STEP
    if e.phase = .rom ∧ d.rst.asserted = [] ∧ !d.rst.refLost ∧ (step = 4 ∨ (step = 0 ∧ d.boot.sel.isSome)) then
      let d := d.atLeast (e.h + e.reach.exitBeats)
      let d := d.wr R.RST_EPISODE_REACH e.reach.code
      let d := d.wr R.RST_EPISODE_CAUSES e.joined
      let d := if bitAt e.joined 0 then d else d.inc R.RST_EPISODE_COUNT
      let d := if step = 4 then d else d.bootStep 1
      let d := { d with hif := { d.hif with dlSeen := false } }
      { d with rst := { d.rst with ep := none, endAt := d.beat } }
    else d
  | none => d

def execEpisodeEnd (s : State) : Host.Outcome State Fault Refusal := onDev episodeEnd s

/-- A write of BTP_RCV_CTL.GO (R203): ignored unless the boot ROM waits. -/
def recoveryGo (d : Dev) : Dev :=
  if d.rd R.BTP_STATUS_STEP = 4 ∧ !d.boot.rcvBusy then
    { d.wr R.BTP_RCV_CTL_ERR 0 with boot := { d.boot with rcvBusy := true } }
  else d

def execRecoveryGo (s : State) : Host.Outcome State Fault Refusal := onDev recoveryGo s

/-- The bundle's place and length are as R202 says. -/
def Dev.bundlePlaced (d : Dev) (b : List Nat) : Bool :=
  d.rd R.BTP_RCV_ADDR % 4096 == 0 && decide (d.rd R.BTP_RCV_LEN ≤ 0x700000) && decide (b.length = d.rd R.BTP_RCV_LEN)

/-- The recovery bundle has been read and is checked as a flash slot (R202, R203). -/
def bundleChecked (b : List Nat) (nv : Nv) (d : Dev) : Dev :=
  if d.rd R.BTP_STATUS_STEP = 4 ∧ d.boot.rcvBusy then
    let d := { d with boot := { d.boot with rcvBusy := false } }
    if d.bundlePlaced b && stageBootable nv d.rst.opt (bundleRead b) 0 then
      let d := (d.wr R.BTP_RCV_CTL_DONE 1).wr R.BTP_STATUS_BOOTED 2
      let d := { d with boot := { d.boot with bundle := b, fromHost := true, sel := some 2, wdog := .running } }
      d.bootStep (if d.rst.ep.isSome then 0 else 1)
    else d.wr R.BTP_RCV_CTL_ERR 1
  else d

def execRecoveryBundleChecked (bundle : List Nat) (s : State) : Host.Outcome State Fault Refusal :=
  onDevNv (bundleChecked bundle) s

/-- The fuses burned by the boot stage (R235): up to the confirmed record's SVN, stopping where one stays unburned. -/
def stageBurn (burnOk : Nat) (nv : Nv) (d : Dev) : Nv × Dev :=
  let r := currentRec nv
  let need := if currentCopy nv = none then 0
              else if r.confirmed && decide (d.boot.sel = some r.slot) then r.svn - nv.fuseCount else 0
  let nv' := nv.burnFuses (min need burnOk)
  let d := d.syncSvn nv'
  (nv', if burnOk < need then d.wr R.BTP_SVN_BURN_FAIL 1 else d)

/-- Write the protection set-up (R212-R215). -/
def Dev.protect (d : Dev) (nv : Nv) : Dev :=
  match d.manifestChoice nv (currentRec nv).man with
  | some m =>
    let i := d.manifestAt nv m
    ((d.putManifest i.2).wr R.BTP_STATUS_MAN_SRC m).flag R.BTP_STATUS_MAN_UNSIGNED (decide (hdrKey i.1 = 0xFE))
  | none => (d.putBuiltIn.wr R.BTP_STATUS_MAN_SRC 2).wr R.BTP_STATUS_MAN_UNSIGNED 0

/-- Where the booted firmware is read from, and its offset. -/
def Dev.fwSource (d : Dev) (nv : Nv) : (Nat → Nat → List Nat) × Nat :=
  if d.boot.fromHost then (bundleRead d.boot.bundle, 0) else (d.flashRead nv, slotBase (d.boot.sel.getD 0))

/-- The signed boot stage (R199, R214-R218, R235): set-up, burn, firmware, cores, seal. -/
def stageRun (burnOk : Nat) (nv : Nv) (d : Dev) : Nv × Dev :=
  if d.rd R.BTP_STATUS_STEP = 1 ∧ d.rst.ep.isNone ∧ d.boot.wdog = .running then
    let d := d.protect nv
    let p := stageBurn burnOk nv d
    let nv := p.1
    let d := p.2
    let src := d.fwSource nv
    if fwPasses nv d.rst.opt src.1 src.2 then
      let h := src.1 (src.2 + fwOffset) 512
      let d := (d.wr R.BTP_STATUS_KEY_SLOT (hdrKey h)).wr R.BTP_SVN_IMG_SVN (hdrSvn h)
      let d := { d with boot := { d.boot with cores := true, wdog := .off } }
      (nv, (d.wr R.BTP_SEAL 1).bootStep 3)
    else
      let d := if d.boot.fromHost then d else d.wri R.BTP_BOOT_FAIL (d.boot.sel.getD 0) 1
      (nv, d.bootStep 5)
  else (nv, d)

def execBootStageRun (burnOk : Nat) (s : State) : Host.Outcome State Fault Refusal := onAll (stageRun burnOk) s

/-- After a fallback boot, firmware writes a CONFIRMED record for the slot that booted (R231). -/
def fallbackWrite (readBack : Bool) (nv : Nv) (d : Dev) : Nv × Dev :=
  if d.boot.fallbackDue && d.boot.cores then
    let s := d.boot.sel.getD 0
    let nv := writeRecord nv s 2 (currentRec nv).man (d.slotSvn nv s) (d.slotFwHash nv s) readBack
    let d := { d with boot := { d.boot with fallbackDue := false } }
    (nv, d.syncSvn nv)
  else (nv, d)

def execFallbackRecordWrite (readBack : Bool) (s : State) : Host.Outcome State Fault Refusal :=
  onAll (fallbackWrite readBack) s

/-- FW_CONFIRM's record for the running slot (BOT.5): the trial ends when it reads back. -/
def confirmRecord (readBack : Bool) (nv : Nv) (d : Dev) : Nv × Dev :=
  let r := currentRec nv
  let nv := writeRecord nv r.slot 2 r.man r.svn (d.slotFwHash nv r.slot) readBack
  let d := if readBack then d.wr R.BTP_STATUS_TRIAL 0 else d
  (nv, d.syncSvn nv)

/-- Firmware carries out FW_CONFIRM itself in a trial boot that has held READY for 10 s (R232); its fuses follow. -/
def autoConfirm (readBack : Bool) (nv : Nv) (d : Dev) : Nv × Dev :=
  if d.optBit 9 0 && d.isSet R.BTP_STATUS_TRIAL && d.isSet R.GLB_START_READY && d.boot.job.isNone then
    let p := confirmRecord readBack nv d
    if readBack && p.2.isSet R.BTP_SVN_BURN_PENDING then
      (p.1, { p.2 with boot := { p.2.boot with job := some { op := 0, ring := 0, phase := .fuses } } })
    else p
  else (nv, d)

def execAutoConfirm (readBack : Bool) (s : State) : Host.Outcome State Fault Refusal := onAll (autoConfirm readBack) s

end Sys2Proof.Machine
end

