-- ==== Sys2Proof/Machine/Cal.lean ====
section
/-!
DEFINITION. Holding, rotation, curves, monitors and optical faults (chapter 10), with the lines and engines of ORC.1.
-/

namespace Sys2Proof.Machine

/-- Physical row that carries a logical row with out-of-service row `x` (R454). -/
def physRow (x r : Nat) : Nat := if r < x then r else r + 1

/-- Logical row that a physical row carries; 0xFFFF for none (R454). -/
def logicalRow (x p : Nat) : Nat := if p = x then 0xFFFF else if p < x then p else p - 1

/-- Out-of-service row of a tile. -/
def Dev.oosRow (d : Dev) (t : Nat) : Nat := d.rdi R.CAL_TILE_OOS_ROW t

/-- Engine of a tile (R19), and the tiles of an engine. -/
def engineOf (t : Nat) : Nat := t / 8
def tilesOf (e : Nat) : List Nat := (List.range 8).map (· + 8 * e)

/-- Change the hidden calibration state. -/
def Dev.setCal (d : Dev) (f : Cal → Cal) : Dev := { d with cal := f d.cal }

/-- Bring DEGRADED_ANY and FAILED_ANY up to date. -/
def Dev.syncTiles (d : Dev) : Dev :=
  (d.flag R.CAL_STATUS_DEGRADED_ANY ((List.range 16).any (fun t => decide (d.rdi R.CAL_TILE_STATE t = 1)))).flag
    R.CAL_STATUS_FAILED_ANY ((List.range 16).any (fun t => decide (d.rdi R.CAL_TILE_STATE t = 2)))

/-- Physical tiles that the running form holds. -/
def Dev.usedTiles (d : Dev) : List Nat :=
  if d.planActive then (setBits (planTiles d.sq.active d.sq.plan) 16).map (nth 0 d.sq.tileMap) else []

/-- A tile that the running form holds is lost (R394, R395). -/
def Dev.tileLost (d : Dev) (t : Nat) : Dev :=
  if t ∈ d.usedTiles then
    if d.safeRuns then { d with sq := { d.sq with halting := true } } else d.pendSafe false
  else d

/-- A tile becomes FAILED for a reason (R484); during the optical start its TILE_FAIL bit sets (R265). -/
def Dev.failTile (d : Dev) (t reason : Nat) : Dev :=
  if d.rdi R.CAL_TILE_STATE t = 2 then d
  else
    let d := ((d.wri R.CAL_TILE_STATE t 2).wri R.CAL_TILE_REASON t reason).wri R.CAL_TILE_ROTATING t 0
    let stage := d.rd R.GLB_START_OPT_STAGE
    let d := if 1 ≤ stage ∧ stage ≤ 3 then d.wri R.GLB_START_TILE_FAIL t 1 else d
    let d := ((d.syncTiles).rasEvent 8 0x09 noClient 0).evt 4
    d.tileLost t

/-- A light engine is marked failed, and its eight tiles with it (R411). -/
def Dev.failEngine (d : Dev) (e : Nat) : Dev :=
  if d.isSeti R.OPT_ENG_FAIL e then d
  else
    let d := ((d.wri R.OPT_ENG_FAIL e 1).rasEvent 8 0x08 noClient 0).evt 4
    (tilesOf e).foldl (fun a t => a.failTile t 4) d

/-- A row of a tile fails (R479, R481, R483). -/
def Dev.failRow (d : Dev) (t f : Nat) : Dev :=
  if d.rdi R.CAL_TILE_STATE t = 2 then d
  else if d.rdi R.CAL_TILE_STATE t = 1 then d.failTile t 2
  else
    let x := d.oosRow t
    let d := d.inc R.CAL_CNT_ROW_FAIL
    let d := ((d.wri R.CAL_TILE_STATE t 1).wri R.CAL_TILE_REASON t 1).wri R.CAL_TILE_ROTATING t 0
    let d := (d.wri R.CAL_TILE_FAIL_ROW t f).syncTiles
    let d := d.setCal (fun c => { c with rowDue := c.rowDue.set t (if f = x then none else some (f, d.beat)) })
    (d.rasEvent 8 0x09 noClient 0).evt 4

/-- Channel that a spare line carries, or a standby modulator serves. -/
def Dev.spareCh (d : Dev) (modulator : Bool) (u n : Nat) : Nat :=
  match modulator, n with
  | false, 64 => d.rdi R.CAL_ENG_MAP_SP64_CH u
  | false, _ => d.rdi R.CAL_ENG_MAP_SP65_CH u
  | true, 64 => d.rdi R.CAL_MODMAP_SB64_CH u
  | true, _ => d.rdi R.CAL_MODMAP_SB65_CH u

/-- Give a spare line or standby modulator its channel. -/
def Dev.setSpareCh (d : Dev) (modulator : Bool) (u n c : Nat) : Dev :=
  match modulator, n with
  | false, 64 => d.wri R.CAL_ENG_MAP_SP64_CH u c
  | false, _ => d.wri R.CAL_ENG_MAP_SP65_CH u c
  | true, 64 => d.wri R.CAL_MODMAP_SB64_CH u c
  | true, _ => d.wri R.CAL_MODMAP_SB65_CH u c

/-- Mark that a replacement has passed its seam B. -/
def Dev.setSpareLock (d : Dev) (modulator : Bool) (u n : Nat) : Dev :=
  match modulator, n with
  | false, 64 => d.wri R.CAL_ENG_MAP_SP64_LOCK u 1
  | false, _ => d.wri R.CAL_ENG_MAP_SP65_LOCK u 1
  | true, 64 => d.wri R.CAL_MODMAP_SB64_LOCK u 1
  | true, _ => d.wri R.CAL_MODMAP_SB65_LOCK u 1

/-- A replacement uses a spare line or standby modulator. -/
def Repl.uses (r : Repl) (modulator : Bool) (u n : Nat) : Bool :=
  r.modulator == modulator && r.unit == u && r.spare == n

/-- The free spare line of an engine, or standby modulator of a tile, with the lower number (R471, R476). -/
def Dev.freeSpare (d : Dev) (modulator : Bool) (u : Nat) : Option Nat :=
  [64, 65].find? (fun n =>
    d.spareCh modulator u n == 0x7F && !decide (66 * u + n ∈ (if modulator then d.cal.modFailed else d.cal.lost)) &&
    !d.cal.repls.any (fun r => r.uses modulator u n))

/-- LOSS of an engine is set while a line flagged lost is not yet replaced (R487). -/
def Dev.syncLoss (d : Dev) (e : Nat) : Dev :=
  d.flagi R.OPT_ENG_LOSS e (d.cal.repls.any (fun r => !r.modulator && r.unit == e) ||
    (d.isSeti R.OPT_ENG_LOSS e && d.isSeti R.OPT_ENG_FAIL e))

/-- Channel that a line of an engine carries (R405). -/
def Dev.channelOn (d : Dev) (e j : Nat) : Option Nat :=
  (List.range 64).find? (fun c => nth 0 (nth [] d.opt.chanMap e) c == j)

/-- Start a replacement of a channel's line or modulator, or fail the engine or tile for want of a spare
(R411, R471, R476, R477). -/
def Dev.replace (d : Dev) (modulator : Bool) (u c : Nat) : Dev :=
  match d.freeSpare modulator u with
  | none => if modulator then d.failTile u 3 else (d.wri R.OPT_ENG_LOSS u 1).failEngine u
  | some n =>
    let d := d.setCal (fun k => { k with repls := k.repls ++
      [{ modulator := modulator, unit := u, channel := c, spare := n, at_ := d.beat }] })
    if modulator then d.wri R.CAL_TILE_MOD_SP u (d.rdi R.CAL_TILE_MOD_SP u + 1) else d.wri R.OPT_ENG_LOSS u 1

/-- A line is flagged lost (R409, R471, R475). -/
def Dev.lineLost (d : Dev) (e j : Nat) : Dev :=
  if 66 * e + j ∈ d.cal.lost then d
  else
    let d := d.setCal (fun k => { k with lost := (66 * e + j) :: k.lost })
    let d := (d.inci R.CAL_ENG_MAP_LOST_CNT e).wri R.CAL_ENG_MAP_LAST_LOST e j
    let d := (d.rasEvent 8 0x08 noClient 0).evt 4
    match d.cal.repls.find? (fun r => r.uses false e j) with
    | some r =>
      let d := d.setCal (fun k => { k with repls := k.repls.filter (fun q => !q.uses false e j) })
      d.replace false e r.channel
    | none =>
      match d.channelOn e j with
      | some c => d.replace false e c
      | none => d

/-- The modulator that serves a channel of a tile fails (R476, R477, R488). -/
def Dev.failModulator (d : Dev) (t c : Nat) : Dev :=
  let m := if d.spareCh true t 64 = c then 64 else if d.spareCh true t 65 = c then 65 else c
  let d := d.setCal (fun k => { k with modFailed := (66 * t + m) :: k.modFailed,
                                       repls := k.repls.filter (fun r => !(r.modulator && r.unit == t && r.channel == c)) })
  d.replace true t c

/-- A held ring becomes a ring fault (HLD.5). -/
def Dev.ringFault (d : Dev) (t i : Nat) : Dev :=
  if i < 16448 then d.failRow t (i / 64) else d.failModulator t (i - 16448)

/-- Whether the rings of a row are visited: not while the row is swept, nor once it has failed (R446, R452). -/
def Dev.rowVisited (d : Dev) (t p : Nat) : Bool :=
  d.rdi R.CAL_TILE_FAIL_ROW t != p &&
  !(d.oosRow t == p && (nth none d.cal.dwellAt t).isSome && (nth none d.cal.swept t).isNone && !nth false d.cal.written t)

/-- A replacement watches a ring after its seam A (R473, R476). -/
def Repl.watches (r : Repl) (t i : Nat) : Bool :=
  r.moved &&
  (if r.modulator then r.unit == t && i == 16448 + r.channel
   else r.unit == engineOf t && (if i < 16448 then i % 64 == r.channel else i == 16448 + r.channel))

/-- One visit of a watched ring. -/
def Repl.visit (r : Repl) (t i : Nat) (inWindow : Bool) : Repl :=
  let k := 16512 * t + i
  let r := { r with visits := sput 0 r.visits k (sget 0 r.visits k + 1) }
  if k ∈ r.holds then r
  else if !inWindow then { r with once := r.once.filter (· ≠ k) }
  else if k ∈ r.once then { r with holds := k :: r.holds, once := r.once.filter (· ≠ k) }
  else { r with once := k :: r.once }

/-- A watched ring has had ten visits and does not hold its line (R474). -/
def Repl.late (r : Repl) (t i : Nat) : Bool :=
  let k := 16512 * t + i
  r.watches t i && decide (sget 0 r.visits k = 10) && !decide (k ∈ r.holds)

/-- A lock-in visit ends (R448, R451, R473, R474). -/
def lockinVisit (t i : Nat) (inWindow atEnd : Bool) (d : Dev) : Dev :=
  if d.rd R.GLB_START_OPT_STAGE < 3 || (decide (i < 16448) && !d.rowVisited t (i / 64)) then d
  else
    let k := 16512 * t + i
    let run := if inWindow then 0 else sget 0 d.cal.outRun k + 1
    let lost := decide (3 ≤ run) || atEnd
    let d := d.setCal (fun c => { c with
      outRun := sput 0 c.outRun k (if lost then 0 else run),
      repls := c.repls.map (fun r => if r.watches t i then r.visit t i inWindow else r) })
    if lost then (d.inc R.CAL_CNT_LOCK_LOSS).ringFault t i
    else if d.cal.repls.any (fun r => r.late t i) then d.ringFault t i else d

def execLockinVisitEnd (tile index : Nat) (inWindow atEnd : Bool) (s : State) : Host.Outcome State Fault Refusal :=
  unit (decide (tile < 16) && decide (index < 16512)) (onDev (lockinVisit tile index inWindow atEnd) s)

/-- The entries of a curve do not decrease (R463). -/
def nonDecreasing (l : List Int) : Bool :=
  match l with
  | a :: b :: r => decide (a ≤ b) && nonDecreasing (b :: r)
  | _ => true

/-- A swept row is accepted (R463). -/
def sweepOk (w : RowSweep) : Bool :=
  let c := w.curve.map (toInt 16)
  decide (c.length = 256) && nonDecreasing c && decide (nth 0 c 0 ≤ -14746) && decide (14746 ≤ nth 0 c 255) &&
    decide (w.rms ≤ 3000) && decide (8192 ≤ w.gain ∧ w.gain ≤ 32768)

/-- The sweep of the out-of-service row ends (R457, R463). -/
def sweepEnd (w : RowSweep) (d : Dev) : Dev :=
  let t := w.tile
  if !d.isSeti R.CAL_TILE_ROTATING t || (nth none d.cal.dwellAt t).isNone || (nth none d.cal.swept t).isSome ||
     nth false d.cal.written t then d
  else if sweepOk w then d.setCal (fun c => { c with swept := c.swept.set t (some (w.curve, w.gain)), spent := c.spent.set t 0 })
  else (d.inc R.CAL_CNT_CURVE_REJ).failRow t (d.oosRow t)

def execSweepEnd (sweep : RowSweep) (s : State) : Host.Outcome State Fault Refusal :=
  unit (decide (sweep.tile < 16)) (onDev (sweepEnd sweep) s)

/-- Write a row's curve and record (R465). -/
def Dev.writeRow (d : Dev) (t p : Nat) (curve : List Nat) (gain : Nat) : Dev :=
  let k := 257 * t + p
  d.setCal (fun c => { c with curves := sput [] c.curves k (curve.map (· % 65536)), gains := sput 0 c.gains k gain,
                              passAt := sput 0 c.passAt k (d.rdi R.CAL_TILE_PASS t) })

/-- The calibration service's writes of one reserve (R458): tiles in ascending order, 11 beats each; the beats left. -/
def calWrites (ts : List Nat) (n : Nat) (d : Dev) : Dev × Nat :=
  match ts with
  | [] => (d, n)
  | t :: r =>
    match nth none d.cal.swept t with
    | some (curve, gain) =>
      let need := 11 - nth 0 d.cal.spent t
      if need ≤ n then
        let d := d.writeRow t (d.oosRow t) curve gain
        calWrites r (n - need) (d.setCal (fun c => { c with swept := c.swept.set t none, spent := c.spent.set t 0,
                                                            written := c.written.set t true }))
      else (d.setCal (fun c => { c with spent := c.spent.set t (nth 0 c.spent t + n) }), 0)
    | none => calWrites r n d

/-- Row record of a physical row (HLD.3). -/
def Dev.rowRecord (d : Dev) (t p : Nat) : List Nat :=
  let k := 257 * t + p
  let x := d.oosRow t
  let st := if d.rdi R.CAL_TILE_FAIL_ROW t = p then 2 else if x = p then 1 else 0
  leBytes 2 (sget 0 d.cal.gains k) ++ [st, 0] ++ leBytes 2 (logicalRow x p) ++ leBytes 2 (sget 0 d.cal.passAt k)

/-- Bytes of a row's curve. -/
def Dev.curveBytes (d : Dev) (t p : Nat) : List Nat :=
  let c := sget [] d.cal.curves (257 * t + p)
  ((List.range 256).map (fun k => leBytes 2 (nth 0 c k))).flatten

/-- The drive code whose curve value lies nearest a weight code, the lower of two equally near (R423). -/
def Dev.driveCode (d : Dev) (t p : Nat) (w : Int) : Nat :=
  let c := (sget [] d.cal.curves (257 * t + p)).map (toInt 16)
  let dist (k : Nat) : Nat := (nth 0 c k * 127 - w * 16384).natAbs
  (List.range 256).foldl (fun best k => if dist k < dist best then k else best) 0

/-- Record the M4 reference of a row that returns to service (R467). -/
def Dev.refRow (d : Dev) (t p : Nat) : Dev :=
  let m := nth [] d.cal.mon t
  let g := if p = 256 then 16 else p / 16
  d.setCal (fun c => { c with refNum := sput 0 c.refNum (276 * t + 19 + p) (nth 0 m (19 + p)),
                              refDen := sput 0 c.refDen (276 * t + 19 + p) (nth 0 m (2 + g)) })

/-- Index of the denominator of a monitor's ratio; none for M1, whose denominator is the lit lines of its engine. -/
def monDen (k : Nat) : Option Nat :=
  if k = 0 then none else if k = 1 then some 0 else if k < 19 then some 1
  else some (2 + (if k - 19 = 256 then 16 else (k - 19) / 16))

/-- Sum of M0 over the lines that an engine lights. -/
def Dev.litSum (d : Dev) (e : Nat) : Nat :=
  ((nth [] d.opt.chanMap e).map (nth 0 (nth [] d.cal.m0 e))).foldl (· + ·) 0

/-- Denominator reading of monitor `k` of a tile. -/
def Dev.monDenVal (d : Dev) (t k : Nat) : Nat :=
  match monDen k with
  | some j => nth 0 (nth [] d.cal.mon t) j
  | none => d.litSum (engineOf t)

/-- A ratio a/b is at least `n` dB low against r/q, for n dB given as 10^(n): p^10 * (a q)^10 <= (r b)^10 (R468). -/
def lowBy (p a b r q : Nat) : Bool := decide (p * (a * q) ^ 10 ≤ (r * b) ^ 10) && decide (0 < r * b)

/-- The ratios of a tile's monitors are checked: 1.0 dB for LOSS_WARN and 3.0 dB for a fault; the runs after this
sample, and whether the ratio is a fault now (R468). -/
def Dev.monCheck (d : Dev) (t k : Nat) : Dev × Bool :=
  let a := nth 0 (nth [] d.cal.mon t) k
  let b := d.monDenVal t k
  let i := 276 * t + k
  let r := sget 0 d.cal.refNum i
  let q := sget 0 d.cal.refDen i
  let w := if lowBy 10 a b r q then sget 0 d.cal.warnRun i + 1 else 0
  let f := if lowBy 1000 a b r q then sget 0 d.cal.faultRun i + 1 else 0
  let d := d.setCal (fun c => { c with warnRun := sput 0 c.warnRun i (min w 17), faultRun := sput 0 c.faultRun i (min f 17) })
  (if w = 16 then d.inc R.CAL_CNT_LOSS_WARN else d, decide (f = 16))

/-- M4 of a row is checked: not while it is out of service and swept, nor once failed (R470). -/
def Dev.monSkips (d : Dev) (t k : Nat) : Bool := decide (19 ≤ k) && !d.rowVisited t (k - 19)

/-- Fault consequence of a monitor's ratio (HLD.4). -/
def Dev.monFault (d : Dev) (t k : Nat) : Dev :=
  if k = 0 then d.failTile t 5 else if k = 1 then d.failTile t 6
  else if k = 18 then d.failRow t 256 else if k < 18 then d.failTile t 7 else d.failRow t (k - 19)

/-- A monitor lies downstream of another (R469). -/
def monDown (up k : Nat) : Bool :=
  match up with
  | 0 => true
  | 1 => decide (1 < k)
  | _ => decide (up < 19) && decide (19 ≤ k) && (2 + (if k - 19 = 256 then 16 else (k - 19) / 16)) == up

/-- Check the monitors in order from upstream, attributing each loss to the most upstream (R469). -/
def monChecks (t : Nat) (ks found : List Nat) (d : Dev) : Dev :=
  match ks with
  | [] => d
  | k :: r =>
    if d.monSkips t k then monChecks t r found d
    else
      let p := d.monCheck t k
      if p.2 && !found.any (fun u => monDown u k) then monChecks t r (k :: found) (p.1.monFault t k)
      else monChecks t r found p.1

/-- M1-M4 of a tile are sampled (R466, R468). -/
def monitorSample (t : Nat) (readings : List Nat) (d : Dev) : Dev :=
  let d := d.setCal (fun c => { c with mon := c.mon.set t readings })
  if d.rd R.GLB_START_OPT_STAGE = 4 then monChecks t (List.range 276) [] d else d

def execMonitorSample (tile : Nat) (readings : List Nat) (s : State) : Host.Outcome State Fault Refusal :=
  unit (decide (tile < 16)) (onDev (monitorSample tile readings) s)

/-- One line of an M0 sample: flagged lost at its second sample below 2.0 mW in a row (R409, R466). -/
def Dev.m0Line (d : Dev) (e j p : Nat) : Dev :=
  let k := 66 * e + j
  let run := if p < 2000 then sget 0 d.cal.m0Run k + 1 else 0
  let d := d.setCal (fun c => { c with m0Run := sput 0 c.m0Run k (min run 2) })
  if run = 2 then d.lineLost e j else d

/-- M0 is sampled on every line of an engine, in microwatt (R409, R466). -/
def m0Sample (e : Nat) (powers : List Nat) (d : Dev) : Dev :=
  let d := d.setCal (fun c => { c with m0 := c.m0.set e powers })
  if 2 ≤ d.rd R.GLB_START_OPT_STAGE ∧ !d.isSeti R.OPT_ENG_FAIL e then
    (List.range 66).foldl (fun a j => a.m0Line e j (nth 0 powers j)) d
  else d

def execM0Sample (engine : Nat) (powers : List Nat) (s : State) : Host.Outcome State Fault Refusal :=
  unit (decide (engine < 2)) (onDev (m0Sample engine powers) s)

/-- A light engine's bias regulator stays in current limit for 1 ms (R411). -/
def biasLimit (e : Nat) (d : Dev) : Dev := if 1 ≤ d.rd R.GLB_START_OPT_STAGE then d.failEngine e else d

def execEngineBiasLimit (engine : Nat) (s : State) : Host.Outcome State Fault Refusal :=
  unit (decide (engine < 2)) (onDev (biasLimit engine) s)

/-- Every ring that a replacement waits for holds its new line (R473, R476). -/
def Dev.replHolds (d : Dev) (r : Repl) : Bool :=
  if r.modulator then decide (16512 * r.unit + 16448 + r.channel ∈ r.holds)
  else ((tilesOf r.unit).filter (fun t => decide (d.rdi R.CAL_TILE_STATE t ≠ 2))).all (fun t =>
    decide (16512 * t + 16448 + r.channel ∈ r.holds) &&
    (List.range 257).all (fun p => d.rdi R.CAL_TILE_FAIL_ROW t == p || decide (16512 * t + 64 * p + r.channel ∈ r.holds)))

/-- Seam B of a replacement: it takes effect (R473, R476). -/
def Dev.seamB (d : Dev) (r : Repl) : Dev :=
  if r.moved && d.replHolds r then
    let d := d.setCal (fun c => { c with repls := c.repls.filter (fun q => !(q.uses r.modulator r.unit r.spare)) })
    let d := d.setSpareLock r.modulator r.unit r.spare
    if r.modulator then d.inc R.CAL_CNT_MOD_REPL else (d.inc R.CAL_CNT_LINE_REPL).syncLoss r.unit
  else d

/-- Replacements whose seam B a beginning seam is. -/
def Dev.seamBs (d : Dev) : Dev := d.cal.repls.foldl Dev.seamB d

/-- Seam A of a replacement at a remap beat: the channel map change or the modulator takeover (R472, R476). -/
def Dev.seamA (d : Dev) (seam : Nat) (r : Repl) : Dev :=
  if !r.moved && decide (r.at_ + 25000 ≤ seam) then
    let d := d.setCal (fun c => { c with repls := c.repls.map (fun q =>
      if q.uses r.modulator r.unit r.spare then { q with moved := true } else q) })
    let d := d.setSpareCh r.modulator r.unit r.spare r.channel
    if r.modulator then d
    else
      let old := nth 0 (nth [] d.opt.chanMap r.unit) r.channel
      let d := if old = 64 ∨ old = 65 then d.setSpareCh false r.unit old 0x7F
               else d.wri R.OPT_ENG_SPARES r.unit (d.rdi R.OPT_ENG_SPARES r.unit + 1)
      { d with opt := { d.opt with chanMap := d.opt.chanMap.set r.unit ((nth [] d.opt.chanMap r.unit).set r.channel r.spare) } }
  else d

/-- Put a row out of service; its dwell begins (R456). -/
def Dev.goOut (d : Dev) (t p : Nat) : Dev :=
  let old := d.oosRow t
  let d := (d.wri R.CAL_TILE_OOS_ROW t p).setCal (fun c => { c with
    dwellAt := c.dwellAt.set t (some d.beat), swept := c.swept.set t none, spent := c.spent.set t 0,
    written := c.written.set t false })
  if old = p then d else d.refRow t old

/-- The permanent-spare jump of a tile (R479, R480): whether it applies at this remap beat. -/
def Dev.jumps (d : Dev) (seam t : Nat) : Bool :=
  match nth none d.cal.rowDue t with
  | some (_, b) => decide (b ≤ seam) && d.isSet R.GLB_START_READY
  | none => false

def Dev.spareJump (d : Dev) (t : Nat) : Dev :=
  match nth none d.cal.rowDue t with
  | some (f, _) =>
    let d := d.goOut t f
    d.setCal (fun c => { c with rowDue := c.rowDue.set t none, dwellAt := c.dwellAt.set t none })
  | none => d

/-- The rotation of a tile advances where its dwell has ended, or begins its first dwell (R455, R456, R459, R460). -/
def Dev.rotate (d : Dev) (t : Nat) : Dev :=
  if !d.isSeti R.CAL_TILE_ROTATING t then d
  else match nth none d.cal.dwellAt t with
    | none => d.goOut t (d.oosRow t)
    | some b =>
      if nth false d.cal.written t && decide (b + 500000 ≤ d.beat) then
        let x := d.oosRow t
        let d := if x = 0 then d.wri R.CAL_TILE_PASS t (d.rdi R.CAL_TILE_PASS t + 1) else d
        (d.goOut t (if x = 0 then 256 else x - 1)).wr R.CAL_ADV (d.rd R.CAL_ADV + 1)
      else d

/-- A TILE item on a physical tile that ends now has an invalid OUT token for an optical fault: a lost line not yet
replaced (R410), a modulator replacement (R478), a failed row it carries (R482), or the tile FAILED (R484). -/
def Dev.tileSpoiled (d : Dev) (t rowFirst rowCount : Nat) : Bool :=
  d.rdi R.CAL_TILE_STATE t == 2 || d.isSeti R.OPT_ENG_LOSS (engineOf t) ||
  d.cal.repls.any (fun r => r.modulator && r.unit == t) ||
  (match nth none d.cal.rowDue t with
   | some (f, _) =>
     let l := logicalRow (d.oosRow t) f
     decide (rowFirst ≤ l ∧ l < rowFirst + rowCount)
   | none => false)

end Sys2Proof.Machine
end

