-- ==== Sys2Proof/Machine/Start.lean ====
section
/-!
DEFINITION. Firmware ready, the optical start and READY (chapter 06).
-/

namespace Sys2Proof.Machine

/-- EVENTS_ON is READY and phase-valid; as it becomes 1 the high-water mark takes the phase word (R252, R253). -/
def Dev.syncEvents (d : Dev) : Dev :=
  let on := d.isSet R.GLB_START_READY && d.isSet R.GLB_START_PHASE_VALID
  if on = d.isSet R.GLB_START_EVENTS_ON then d
  else
    let d := d.flag R.GLB_START_EVENTS_ON on
    if on then d.wr R.CAD_HWM d.phase else d

/-- Begin the full optical start (R267, R268): maps, curves and tile states are rebuilt (R493). -/
def Dev.optStart (d : Dev) : Dev :=
  let d := d.clearRegs (fun k f => blockOfKey k == 9 && f.cls == .deviceBlock)
  let d := d.clearRegs (fun k _ => blockOfKey k == 8 && decide (k < 8 * 0x80010))
  let d := (d.wr R.GLB_START_OPT_STAGE 1).setWord R.GLB_START_TILE_FAIL 0
  { d with cal := {}, st := {}, opt := { d.opt with chanMap := [List.range 64, List.range 64] } }

/-- READY sets (R239, R241, R262): the rotation runs from the next seam, on tiles neither DEGRADED nor FAILED (R461). -/
def Dev.setReady (d : Dev) (ms : Nat) : Dev :=
  if d.isSet R.GLB_START_READY || !d.fwReady || !d.isSet R.GLB_START_T1_TRAINED || d.rd R.GLB_START_OPT_STAGE ≠ 4 then d
  else
    let was := d.alertBits
    let d := (d.wr R.GLB_START_READY 1).wr R.GLB_START_TIME_READY_MS (min ms 65535)
    let d := (List.range 16).foldl (fun a t => a.flagi R.CAL_TILE_ROTATING t (decide (a.rdi R.CAL_TILE_STATE t = 0))) d
    (d.syncEvents.alertChange was).evt 7

def readySet (ms : Nat) (d : Dev) : Dev := d.setReady ms

def execReadySet (ms : Nat) (s : State) : Host.Outcome State Fault Refusal := onDev (readySet ms) s

/-- Firmware becomes ready (R254, R266, R267): CRS ends, DEBUG_OPEN acts (R990), the start-up
timeline begins, and the optical start unless the optics were kept. -/
def fwReadySet (ms : Nat) (d : Dev) : Dev :=
  if d.rd R.BTP_STATUS_STEP ≠ 3 || d.fwReady || d.boot.fallbackDue then d
  else
    let was := d.alertBits
    let d := (d.wr R.BTP_STATUS_FW_READY 1).wr R.GLB_START_FW_READY 1
    let d := (d.wr R.GLB_START_TIME_FW_READY_MS (min ms 65535)).wr R.GLB_START_STARTUP_TL 1
    let d := ((d.wr R.HIF_LINK_CRS 0).alertChange was).evt 7
    let d := if d.optBit 10 0 then (d.wr R.MGT_DBG_SCOPE (max 1 (d.rd R.MGT_DBG_SCOPE))).wr R.MGT_DBG_BY_OPTION 1 else d
    let d := { d with sq := { d.sq with frameAt := none, frameEnd := d.beat } }
    if d.rd R.GLB_START_OPT_STAGE = 4 then d.setReady ms else d.optStart

def execFwReady (ms : Nat) (s : State) : Host.Outcome State Fault Refusal := onDev (fwReadySet ms) s

/-- A line missing at the end of the laser ramp is replaced at once by the lowest free spare line (R263). -/
def Dev.startLine (d : Dev) (missing : List (Nat × Nat)) (m : Nat × Nat) : Dev :=
  let e := m.1
  let d := d.setCal (fun k => { k with lost := (66 * e + m.2) :: k.lost })
  let d := (d.inci R.CAL_ENG_MAP_LOST_CNT e).wri R.CAL_ENG_MAP_LAST_LOST e m.2
  if 64 ≤ m.2 then d
  else match [64, 65].find? (fun n => d.spareCh false e n == 0x7F && !decide ((e, n) ∈ missing)) with
    | some n =>
      let d := (d.setSpareCh false e n m.2).wri R.OPT_ENG_SPARES e (d.rdi R.OPT_ENG_SPARES e + 1)
      { d with opt := { d.opt with chanMap := d.opt.chanMap.set e ((nth [] d.opt.chanMap e).set m.2 n) } }
    | none => d.failEngine e

/-- The laser bias ramp ends (R263). -/
def rampEnd (missing : List (Nat × Nat)) (dead : List Nat) (d : Dev) : Dev :=
  if d.rd R.GLB_START_OPT_STAGE ≠ 1 then d
  else
    let d := (d.wri R.OPT_ENG_ON 0 1).wri R.OPT_ENG_ON 1 1
    let d := (dead.filter (· < 2)).foldl (fun a e => (a.wri R.OPT_ENG_ON e 0).failEngine e) d
    let d := (missing.filter (fun m => m.1 < 2 && m.2 < 66)).foldl (fun a m => a.startLine missing m) d
    d.wr R.GLB_START_OPT_STAGE 2

def execOpticalLaserRampEnd (missing : List (Nat × Nat)) (engineDead : List Nat) (s : State) :
    Host.Outcome State Fault Refusal := onDev (rampEnd missing engineDead) s

/-- Ring lock ends, every unlocked ring being a ring fault (R264); lines replaced in the start are locked. -/
def lockEnd (unlocked : List (Nat × Nat)) (d : Dev) : Dev :=
  if d.rd R.GLB_START_OPT_STAGE ≠ 2 then d
  else
    let d := (unlocked.filter (fun u => u.1 < 16 && u.2 < 16512)).foldl (fun a u => a.ringFault u.1 u.2) d
    let d := [0, 1].foldl (fun a e => [64, 65].foldl (fun b n =>
      if b.spareCh false e n = 0x7F then b else b.setSpareLock false e n) a) d
    d.wr R.GLB_START_OPT_STAGE 3

def execRingLockEnd (unlocked : List (Nat × Nat)) (s : State) : Host.Outcome State Fault Refusal :=
  onDev (lockEnd unlocked) s

/-- Record every reference at the end of the optical start (R467). -/
def Dev.recordRefs (d : Dev) : Dev :=
  let d := [0, 1].foldl (fun a e => (List.range 66).foldl (fun b j =>
    b.setCal (fun c => { c with refM0 := sput 0 c.refM0 (66 * e + j) (nth 0 (nth [] c.m0 e) j) })) a) d
  (List.range 16).foldl (fun a t => (List.range 276).foldl (fun b k =>
    b.setCal (fun c => { c with refNum := sput 0 c.refNum (276 * t + k) (nth 0 (nth [] c.mon t) k),
                                refDen := sput 0 c.refDen (276 * t + k) (b.monDenVal t k) })) a) d

/-- One row of a quick calibration pass: its curve is written when accepted, else the row fails (R463). -/
def Dev.quickRow (d : Dev) (w : RowSweep) : Dev :=
  if 16 ≤ w.tile || 257 ≤ w.row then d
  else if sweepOk w then d.writeRow w.tile w.row w.curve w.gain
  else (d.inc R.CAL_CNT_CURVE_REJ).failRow w.tile w.row

/-- A quick calibration pass ends (R261): 16 rows of every tile; the 17th, of row 256, ends quick calibration. -/
def quickPass (sweeps : List RowSweep) (d : Dev) : Dev :=
  if d.rd R.GLB_START_OPT_STAGE ≠ 3 then d
  else
    let p := d.st.passes
    let d := (sweeps.filter (fun w => w.row / 16 == p)).foldl Dev.quickRow d
    let d := { d with st := { d.st with passes := p + 1 } }
    if p + 1 < 17 then d
    else ({ d with st := { d.st with qcalDone := true } }.wr R.GLB_START_OPT_STAGE 4).recordRefs

def execQuickCalPass (sweeps : List RowSweep) (s : State) : Host.Outcome State Fault Refusal := onDev (quickPass sweeps) s

end Sys2Proof.Machine
end

