-- ==== Sys2Proof/Machine/Mem.lean ====
section
/-!
DEFINITION. Memory spaces, poison, ECC and failures, the BUFFERS section, raw rings and sequence windows (chapter 12).
Spaces are numbered 0 STAGING, 1 TIER1, 2 TIER2, 3 HOST.
-/

namespace Sys2Proof.Machine

/-- Size of the staging buffer area. -/
def stgSize : Nat := 0x2C00000

/-- Stack of a Tier 1 offset (R544), and channel of a Tier 2 offset (R545). -/
def Dev.stackAt (d : Dev) (a : Nat) : Nat := (a / 256) % stacksOf d.variant
def channelAt (a : Nat) : Nat := a / 2 ^ 38

/-- A Tier 2 byte lies on a channel that has it and is in use (R545, R557). -/
def Dev.t2Here (d : Dev) (a : Nat) : Bool :=
  let c := channelAt a
  decide (c < 8) && d.isSeti R.MEM_T2_STATUS_ACTIVE c && decide (a % 2 ^ 38 < d.rdi R.MEM_T2_SIZE c * 2 ^ 30)

/-- A byte's memory works: its stack or channel has not failed (R557, R558). -/
def Dev.byteWorks (d : Dev) (space a : Nat) : Bool :=
  match space with
  | 0 => decide (a < stgSize)
  | 1 => decide (a < t1Max d.variant) && !d.isSeti R.MEM_T1_STATUS_FAILED (d.stackAt a)
  | 2 => d.t2Here a
  | _ => false

/-- One byte of a space; a tier byte that nothing has written since the last FULL or DEVICE reach is a free value. -/
def Dev.memByte (d : Dev) (space a : Nat) : Nat :=
  match space with
  | 0 => (mget 0 d.mem.stg a).toNat
  | 1 => ((sfind d.mem.t1 a).getD (Config.freeTierByte 1 d.mem.era a)).toNat
  | _ => ((sfind d.mem.t2 a).getD (Config.freeTierByte 2 d.mem.era a)).toNat

/-- `n` bytes of a space. -/
def Dev.memBytes (d : Dev) (space a n : Nat) : List Nat :=
  match n with
  | 0 => []
  | n + 1 => d.memByte space a :: d.memBytes space (a + 1) n

/-- The poison mark of a 64-byte granule (R567, R1008). -/
def Dev.mark (d : Dev) (space g : Nat) : Bool :=
  match space with
  | 0 => sget false d.mem.stgMark g
  | 1 => (sfind d.mem.t1Mark g).getD (Config.freeTierMark 1 d.mem.era g)
  | _ => (sfind d.mem.t2Mark g).getD (Config.freeTierMark 2 d.mem.era g)

/-- Whether some granule of a range is poisoned. -/
def Dev.poisoned (d : Dev) (space a n : Nat) : Bool :=
  (List.range ((a + n + 63) / 64 - a / 64)).any (fun i => d.mark space (a / 64 + i))

/-- Whether a range reaches a failed stack or channel; 256-byte blocks lie on one stack. -/
def Dev.reachesFailed (d : Dev) (space a n : Nat) : Bool :=
  (List.range ((a + n + 255) / 256 - a / 256)).any (fun i => !d.byteWorks space (max a (256 * (a / 256 + i))))

/-- Write one byte where its memory works. -/
def Dev.putByte (d : Dev) (space a b : Nat) : Dev :=
  if d.byteWorks space a then
    let v := BitVec.ofNat 8 b
    match space with
    | 0 => { d with mem := { d.mem with stg := mput 0 d.mem.stg a v } }
    | 1 => { d with mem := { d.mem with t1 := sins d.mem.t1 a v } }
    | _ => { d with mem := { d.mem with t2 := sins d.mem.t2 a v } }
  else d

/-- Write bytes at rising offsets. -/
def Dev.putBytes (d : Dev) (space a : Nat) (bs : List Nat) : Dev :=
  match bs with
  | [] => d
  | b :: r => (d.putByte space a b).putBytes space (a + 1) r

/-- Set or clear the poison marks of the granules of a range. -/
def Dev.putMarks (d : Dev) (space a n : Nat) (p : Bool) : Dev :=
  (List.range ((a + n + 63) / 64 - a / 64)).foldl (fun e i =>
    let g := a / 64 + i
    match space with
    | 0 => { e with mem := { e.mem with stgMark := sput false e.mem.stgMark g p } }
    | 1 => { e with mem := { e.mem with t1Mark := sins e.mem.t1Mark g p } }
    | _ => { e with mem := { e.mem with t2Mark := sins e.mem.t2Mark g p } }) d

/-- Store data: bytes, poison marks, and a pending write-back of the same bytes dropped (R567, R1009). -/
def Dev.store (d : Dev) (space a : Nat) (bs : List Nat) (poison : Bool) : Dev :=
  let d := (d.putBytes space a bs).putMarks space a bs.length poison
  if space = 2 then
    { d with mem := { d.mem with writeBacks := d.mem.writeBacks.filter (fun o => decide (o < a) || decide (a + bs.length ≤ o)) } }
  else d

/-- A Tier 2 channel is marked failed (R557). -/
def Dev.failChannel (d : Dev) (c : Nat) : Dev :=
  if d.isSeti R.MEM_T2_STATUS_FAILED c then d
  else
    let d := ((d.wri R.MEM_T2_STATUS_FAILED c 1).wri R.MEM_T2_STATUS_ACTIVE c 0).wri R.MEM_T2_SIZE c 0
    d.rasEvent 4 0x0B noClient (0xC0000000 + c) false

/-- A Tier 1 stack is marked failed while running (R558). -/
def Dev.failStack (d : Dev) (s : Nat) : Dev :=
  if d.isSeti R.MEM_T1_STATUS_FAILED s then d
  else (d.wri R.MEM_T1_STATUS_FAILED s 1).rasEvent 4 0x0B noClient (0x80000000 + s) false

/-- Note an uncorrectable tier error; more than 16 within 1 ms fail the stack or channel (R557, R558). -/
def Dev.noteUe (d : Dev) (space a : Nat) : Dev :=
  let u := if space = 1 then d.stackAt a else channelAt a
  let old := if space = 1 then d.mem.t1Errs else d.mem.t2Errs
  let l := (u, d.beat) :: old.filter (fun e => decide (d.beat < e.2 + 250000))
  let d := { d with mem := if space = 1 then { d.mem with t1Errs := l } else { d.mem with t2Errs := l } }
  if 16 < (l.filter (fun e => e.1 == u)).length then (if space = 1 then d.failStack u else d.failChannel u) else d

/-- What the ECC of a read does to counters, MEM_LAST_UE and the error summary (R537, R553, R554, R1009); `base` is
the offset of the read's first byte. -/
def Dev.eccNote (d : Dev) (client space base : Nat) (e : EccResult) : Dev :=
  let ce (d : Dev) : Dev := match space with
    | 0 => d.inc R.MEM_CNT_SRAM_CE
    | 1 => d.inc R.MEM_CNT_T1_CE
    | _ => d.inc R.MEM_CNT_T2_CE
  let wb (d : Dev) (o : Nat) : Dev :=
    if space = 2 then { d with mem := { d.mem with writeBacks := d.mem.writeBacks ++ [base + o] } } else d
  match e with
  | .clean => d
  | .corrected o => wb (ce d) o
  | .retried o => if space = 0 then wb (ce d) o else (wb (ce d) o).inc R.MEM_CNT_RETRY
  | .uncorrectable o =>
    let d := if space = 0 then d else d.inc R.MEM_CNT_RETRY
    let d := match space with
      | 0 => d.inc R.MEM_CNT_SRAM_UE
      | 1 => d.inc R.MEM_CNT_T1_UE
      | _ => d.inc R.MEM_CNT_T2_UE
    let d := (d.wr R.MEM_LAST_UE_OFFSET (base + o)).wr R.MEM_LAST_UE_SPACE space
    let d := d.rasEvent 4 0x0B client ((base + o) / 1024 % 2 ^ 32)
    if space = 0 then d else d.noteUe space (base + o)

/-- The result of a read: uncorrectable or not. -/
def eccBad (e : EccResult) : Bool :=
  match e with
  | .uncorrectable _ => true
  | _ => false

/-- Tier 1 training ends (R548); `failed` is the mask of the stacks that did not train. -/
def tier1Trained (failed : Nat) (d : Dev) : Dev :=
  if !d.fwReady || d.isSet R.GLB_START_T1_TRAINED || d.word R.MEM_T1_STATUS_FAILED ≠ 0 then d
  else
    let ss := List.range (stacksOf d.variant)
    let d := ss.foldl (fun a s => if bitAt failed s then a.wri R.MEM_T1_STATUS_FAILED s 1 else a.wri R.MEM_T1_STATUS_TRAINED s 1) d
    if ss.any (bitAt failed) then d else d.wr R.GLB_START_T1_TRAINED 1

def execTier1Trained (failed : Nat) (s : State) : Host.Outcome State Fault Refusal := onDev (tier1Trained failed) s

/-- Channels that the device in its present state has: those of its working I/O dies (R20). -/
def Dev.channels (d : Dev) : Nat := if ioDiesOf d.variant = 2 ∧ !d.rst.ioDie1Failed then 8 else 4

/-- One channel's training result (R546, R547): a capacity in GiB, 0 for no DIMM, none for a DIMM that fails. -/
def Dev.trainChannel (d : Dev) (c : Nat) (size : Option Nat) : Dev :=
  let d := { d with mem := { d.mem with t2Trained := d.mem.t2Trained.set c d.beat } }
  match size with
  | some g =>
    if g = 0 then d.wri R.MEM_T2_STATUS_ABSENT c 1
    else if g ∈ [32, 64, 128, 256] then (d.wri R.MEM_T2_STATUS_ACTIVE c 1).wri R.MEM_T2_SIZE c g
    else d.wri R.MEM_T2_STATUS_FAILED c 1
  | none => d.wri R.MEM_T2_STATUS_FAILED c 1

/-- Tier 2 training ends on every channel (R547, R548). -/
def tier2Trained (sizes : List (Option Nat)) (d : Dev) : Dev :=
  if !d.fwReady || d.isSet R.GLB_START_T2_DONE then d
  else
    let d := (List.range 8).foldl (fun a c =>
      if c < a.channels then a.trainChannel c (nth (some 0) sizes c) else a.wri R.MEM_T2_STATUS_ABSENT c 1) d
    d.wr R.GLB_START_T2_DONE 1

def execTier2Trained (sizes : List (Option Nat)) (s : State) : Host.Outcome State Fault Refusal :=
  onDev (tier2Trained sizes) s

/-- A Tier 1 stack refreshes: accesses to a bank stall for at most 88 beats (R549). -/
def tier1Refresh (stack beats : Nat) (d : Dev) : Dev :=
  if d.isSeti R.MEM_T1_STATUS_TRAINED stack then
    { d with mem := { d.mem with t1Stall := d.mem.t1Stall.set stack (d.beat + min beats 88) } }
  else d

def execTier1Refresh (stack beats : Nat) (s : State) : Host.Outcome State Fault Refusal :=
  unit (decide (stack < 6)) (onDev (tier1Refresh stack beats) s)

/-- A Tier 2 channel refreshes, stalling for at most 103 beats (R550). -/
def tier2Refresh (channel beats : Nat) (d : Dev) : Dev :=
  if d.isSeti R.MEM_T2_STATUS_ACTIVE channel then
    { d with mem := { d.mem with t2Stall := d.mem.t2Stall.set channel (d.beat + min beats 103) } }
  else d

def execTier2Refresh (channel beats : Nat) (s : State) : Host.Outcome State Fault Refusal :=
  unit (decide (channel < 8)) (onDev (tier2Refresh channel beats) s)

/-- Remove the first `n` entries that satisfy a predicate. -/
def dropFirst (p : Nat → Bool) (n : Nat) (l : List Nat) : List Nat :=
  match l with
  | [] => []
  | a :: r => if p a && decide (0 < n) then dropFirst p (n - 1) r else a :: dropFirst p n r

/-- A channel's maintenance window (R550, R1009): at most 250 beats, up to 32 write-backs in the order found. -/
def maintenance (channel : Nat) (d : Dev) : Dev :=
  if d.isSeti R.MEM_T2_STATUS_ACTIVE channel then
    { d with mem := { d.mem with t2Stall := d.mem.t2Stall.set channel (d.beat + 250),
                                 writeBacks := dropFirst (fun o => channelAt o == channel) 32 d.mem.writeBacks } }
  else d

def execTier2MaintenanceWindow (channel : Nat) (s : State) : Host.Outcome State Fault Refusal :=
  unit (decide (channel < 8)) (onDev (maintenance channel) s)

/-- ALERT_N reports command errors that a retry does not clear (R557). -/
def dimmAlert (channel : Nat) (d : Dev) : Dev :=
  if d.isSeti R.MEM_T2_STATUS_ACTIVE channel then d.failChannel channel else d

def execDimmAlert (channel : Nat) (s : State) : Host.Outcome State Fault Refusal :=
  unit (decide (channel < 8)) (onDev (dimmAlert channel) s)

/-- Content of a section of the last plan that ran: the running plan, or in HALTED the plan before it. -/
def Dev.lastSec (d : Dev) (ty : Nat) : List Nat :=
  if d.sq.active.isEmpty then [] else planSec d.sq.active d.sq.plan ty

/-- Parts of a BUFFERS section (MEM.1). -/
def bufN (b : List Nat) : Nat := u16 b 0
def tokN (b : List Nat) : Nat := u16 b 2
def ringN (b : List Nat) : Nat := u8 b 4
def seqN (b : List Nat) : Nat := u8 b 5
def areaN (b : List Nat) : Nat := u16 b 6
/-- Bytes of the token map with its padding. -/
def tokMapLen (b : List Nat) : Nat := (2 * tokN b + 15) / 16 * 16
def ringsOff (b : List Nat) : Nat := 16 + 16 * bufN b + tokMapLen b
def seqsOff (b : List Nat) : Nat := ringsOff b + 32 * ringN b
def areasOff (b : List Nat) : Nat := seqsOff b + 32 * seqN b
def bufBase (b : List Nat) (i : Nat) : Nat := u32 b (16 + 16 * i)
def bufSlot (b : List Nat) (i : Nat) : Nat := u32 b (20 + 16 * i)
def bufSlots (b : List Nat) (i : Nat) : Nat := u8 b (24 + 16 * i)
def tokBuf (b : List Nat) (t : Nat) : Nat := u16 b (16 + 16 * bufN b + 2 * t)
def ringRec (b : List Nat) (i : Nat) : List Nat := bytesAt b (ringsOff b + 32 * i) 32
def seqRec (b : List Nat) (i : Nat) : List Nat := bytesAt b (seqsOff b + 32 * i) 32
def areaRec (b : List Nat) (i : Nat) : List Nat := bytesAt b (areasOff b + 16 * i) 16

/-- A client's staging area: base and size; none without an area record (R543). -/
def clientArea (b : List Nat) (c : Nat) : Option (Nat × Nat) :=
  ((List.range (areaN b)).find? (fun i => u16 (areaRec b i) 0 == c)).map (fun i =>
    (u32 (areaRec b i) 4, u32 (areaRec b i) 8))

/-- Write bytes at ring position `p`, wrapping (R568, R569). -/
def Dev.ringPut (d : Dev) (base size p : Nat) (bs : List Nat) : Dev :=
  let o := p % size
  let n := size - o
  if bs.length ≤ n then d.store 1 (base + o) bs false
  else (d.store 1 (base + o) (bs.take n) false).store 1 base (bs.drop n) false

/-- Bytes at ring position `p`. -/
def Dev.ringGet (d : Dev) (base size p n : Nat) : List Nat :=
  let o := p % size
  if o + n ≤ size then d.memBytes 1 (base + o) n
  else d.memBytes 1 (base + o) (size - o) ++ d.memBytes 1 base (n - (size - o))

/-- Append a record to raw ring `r` of the last plan, padded to 64 bytes; WP advances past it (R568, R714). -/
def Dev.rawAppend (d : Dev) (r : Nat) (bs : List Nat) : Dev :=
  let k := ringRec (d.lastSec 18) r
  let pad := bs ++ List.replicate ((64 - bs.length % 64) % 64) 0
  let wp := d.rdi R.MEM_RAW_WP r
  if u64 k 8 = 0 then d
  else (d.ringPut (u64 k 0) (u64 k 8) wp pad).wri R.MEM_RAW_WP r (wp + pad.length)

end Sys2Proof.Machine
end

