-- ==== Sys2Proof/Machine/HostAcc.lean ====
section
/-!
DEFINITION. Host accesses made for a client: the checks of R609-R613, denials (R610), AER logging (HIF.6) and MSI-X
messages (R604-R607).
-/

namespace Sys2Proof.Machine

/-- A field of a client's set-up page. -/
def Dev.prd (d : Dev) (c : Nat) (f : Fld) (i : Nat := 0) : Nat := d.rdi (f.page c) i
def Dev.pwr (d : Dev) (c : Nat) (f : Fld) (v : Nat) (i : Nat := 0) : Dev := d.wri (f.page c) i v
def Dev.pset (d : Dev) (c : Nat) (f : Fld) (i : Nat := 0) : Bool := decide (d.prd c f i = 1)
def Dev.pinc (d : Dev) (c : Nat) (f : Fld) (i : Nat := 0) : Dev := d.inci (f.page c) i

/-- The device works from its built-in manifest (R215). -/
def Dev.builtIn (d : Dev) : Bool := decide (d.rd R.BTP_STATUS_MAN_SRC = 2)

/-- A range lies in a client's manifest host window; the built-in entry covers the last page too (R215). -/
def Dev.hostWin (d : Dev) (c a n : Nat) : Bool :=
  within a n (d.rdi R.ENT_HOST_BASE c) (d.rdi R.ENT_HOST_SIZE c + (if c = 0 ∧ d.builtIn then 4096 else 0))

/-- A range lies in a client's enabled use range (R613). -/
def Dev.useOk (d : Dev) (c a n : Nat) : Bool :=
  d.pset c R.HIF_USE_CTL_EN && within a n (d.prd c R.HIF_USE_BASE) (d.prd c R.HIF_USE_SIZE)

/-- The window and use range allow a range (R609). -/
def Dev.reqOk (d : Dev) (c a n : Nat) : Bool := d.hostWin c a n && d.useOk c a n

/-- The first two conditions of R609: Bus Master Enable of the client's function, and D0. -/
def Dev.busOk (d : Dev) (c : Nat) : Bool := (d.fn c).bme && !d.isSet R.HIF_LINK_D3HOT

/-- The manifest gives a client the right of a bit (R609). -/
def Dev.rightOk (d : Dev) (c b : Nat) : Bool := bitAt (d.rdi R.ENT_RIGHTS c) b

/-- Record a denied request (R610). -/
def Dev.lastDeny (d : Dev) (c a : Nat) : Dev := (d.wr R.HIF_LAST_DENY_CLIENT c).wr R.HIF_LAST_DENY_ADDR (a / 4096)
def Dev.hostDeny (d : Dev) (c a : Nat) : Dev := (d.inc R.HIF_CNT_HOST_DENY).lastDeny c a
def Dev.rightDeny (d : Dev) (c a : Nat) : Dev := (d.inc R.HIF_CNT_RIGHT_DENY).lastDeny c a

/-- Errors whose log keeps a header. -/
def AerErr.hasHeader (e : AerErr) : Bool :=
  match e with
  | .malformed | .poisoned | .unexpectedCpl | .unsupported | .cplTimeout => true
  | _ => false

/-- Log an error in a function's AER (HIF.6); a second header that finds the log in use is an overflow. -/
def Dev.aerLog (d : Dev) (f : Nat) (e : AerErr) (hdr : List Nat) : Dev :=
  let x := d.fn f
  let add (l : List AerErr) (y : AerErr) : List AerErr := if l.contains y then l else l ++ [y]
  let withHdr := e.hasHeader && !hdr.isEmpty
  let y := { x with aer := add x.aer e, hdr := if withHdr && x.hdr.isNone then some hdr else x.hdr }
  let d := (d.setFn f y).emit (.aer f e)
  if withHdr && x.hdr.isSome then
    (d.setFn f { y with aer := add y.aer .hdrOverflow }).emit (.aer f .hdrOverflow)
  else d

/-- Fields of a function's MSI-X table. The PF's table and pending bits lie in PF BAR0, a VF's in its page. -/
def Dev.vecAddr (d : Dev) (f v : Nat) : Nat := if f = 0 then d.rdi R.MSIX_ADDR v else d.rdi (R.VMSIX_ADDR.page f) v
def Dev.vecData (d : Dev) (f v : Nat) : Nat := if f = 0 then d.rdi R.MSIX_DATA v else d.rdi (R.VMSIX_DATA.page f) v
def Dev.vecMask (d : Dev) (f v : Nat) : Bool :=
  if f = 0 then d.isSeti R.MSIX_MASK v else d.isSeti (R.VMSIX_MASK.page f) v
def Dev.setVecPend (d : Dev) (f v : Nat) (b : Bool) : Dev :=
  if f = 0 then d.flagi R.MSIX_PBA v b else d.flagi (R.VMSIX_PBA.page f) v b

/-- Send a vector's message if R605 and R609 let it go; otherwise its pending bit is set. -/
def Dev.sendVec (d : Dev) (f v : Nat) : Dev :=
  let x := d.fn f
  if x.msixEn && !x.fmask && !d.vecMask f v && d.busOk f then
    (d.setVecPend f v false).emit (.msix f v (d.vecAddr f v) (d.vecData f v))
  else d.setVecPend f v true

/-- A vector is pending. -/
def Dev.vecPend (d : Dev) (f v : Nat) : Bool :=
  if f = 0 then d.isSeti R.MSIX_PBA v else d.isSeti (R.VMSIX_PBA.page f) v

/-- Vectors of a function. -/
def vecCount (f : Nat) : Nat := if f = 0 then 64 else 8

/-- Messages due in a HOUSEKEEPING slot: pending vectors that can go now, and enabled event classes with an event since
their last message (R605, R607). -/
def Dev.sendDue (d : Dev) : Dev :=
  let fs := 0 :: (d.hif.fns.map (·.1)).filter (· ≠ 0)
  let pend := (fs.map (fun f => ((List.range (vecCount f)).filter (d.vecPend f)).map (fun v => (f, v)))).flatten
  let sent := (List.range 8).filter (fun k => bitAt d.hif.evtDue k && d.isSeti R.HIF_EVT_VEC_EN k)
  let evs := sent.map (fun k => (0, d.rdi R.HIF_EVT_VEC_VEC k))
  let due := d.hif.vecDue
  let d := { d with hif := { d.hif with evtDue := 0, vecDue := [] } }
  (pend ++ evs ++ due).eraseDups.foldl (fun a p => a.sendVec p.1 p.2) d

end Sys2Proof.Machine
end

