-- ==== Sys2Proof/Machine/Float.lean ====
section
/-!
DEFINITION. Binary floating point as SCO.3 uses it: exact values of binary16 and binary32 patterns, exact sums and
products, and rounding to nearest even.
-/

namespace Sys2Proof.Machine

/-- A floating-point value: a sign, a magnitude `m * 2 ^ e`, an infinity, or a NaN. -/
inductive FV where
  | fin (neg : Bool) (m : Nat) (e : Int)
  | inf (neg : Bool)
  | nan
deriving DecidableEq, Repr

/-- A binary interchange format: width of the exponent and of the fraction. -/
structure Fmt where
  eb : Nat
  fb : Nat
deriving DecidableEq, Repr

/-- binary16 and binary32. -/
def f16 : Fmt := { eb := 5, fb := 10 }
def f32 : Fmt := { eb := 8, fb := 23 }

/-- Exponent bias. -/
def Fmt.bias (f : Fmt) : Nat := 2 ^ (f.eb - 1) - 1

/-- Bits of a format. -/
def Fmt.width (f : Fmt) : Nat := 1 + f.eb + f.fb

/-- The value of a pattern. -/
def Fmt.decode (f : Fmt) (v : Nat) : FV :=
  let frac := bits v 0 f.fb
  let ex := bits v f.fb f.eb
  let neg := bitAt v (f.eb + f.fb)
  if ex = 2 ^ f.eb - 1 then (if frac = 0 then .inf neg else .nan)
  else if ex = 0 then .fin neg frac (1 - (f.bias : Int) - f.fb)
  else .fin neg (2 ^ f.fb + frac) ((ex : Int) - f.bias - f.fb)

/-- The sign bit in its place. -/
def Fmt.signBit (f : Fmt) (neg : Bool) : Nat := if neg then 2 ^ (f.eb + f.fb) else 0

/-- The pattern of an infinity, and of the quiet NaN with a zero payload. -/
def Fmt.infPat (f : Fmt) (neg : Bool) : Nat := f.signBit neg + (2 ^ f.eb - 1) * 2 ^ f.fb
def Fmt.nanPat (f : Fmt) : Nat := (2 ^ f.eb - 1) * 2 ^ f.fb + 2 ^ (f.fb - 1)

/-- `m * 2 ^ e` (with `sticky` for a part below it) at exponent `q`, rounded to nearest even. -/
def roundAt (m : Nat) (e q : Int) (sticky : Bool) : Nat :=
  if q ≤ e then m * 2 ^ (e - q).toNat
  else
    let s := (q - e).toNat
    let t := m / 2 ^ s
    let r := 2 * (m % 2 ^ s)
    if 2 ^ s < r ∨ (r = 2 ^ s ∧ (sticky ∨ t % 2 = 1)) then t + 1 else t

/-- The pattern nearest to `m * 2 ^ e`, ties to even. -/
def Fmt.roundMag (f : Fmt) (neg : Bool) (m : Nat) (e : Int) (sticky : Bool) : Nat :=
  if m = 0 then f.signBit neg
  else
    let top : Int := e + m.log2
    let emin : Int := 1 - (f.bias : Int)
    let q : Int := max top emin - f.fb
    let r := roundAt m e q sticky
    let pat := ((q + f.fb + f.bias).toNat * 2 ^ f.fb + r) - 2 ^ f.fb
    if (2 ^ f.eb - 1) * 2 ^ f.fb ≤ pat then f.infPat neg else f.signBit neg + pat

/-- The pattern of a value, rounded to nearest even. -/
def Fmt.encode (f : Fmt) (x : FV) : Nat :=
  match x with
  | .fin neg m e => f.roundMag neg m e false
  | .inf neg => f.infPat neg
  | .nan => f.nanPat

/-- A value is not finite; a NaN. -/
def FV.nonFinite (x : FV) : Bool :=
  match x with
  | .fin _ _ _ => false
  | _ => true
def FV.isNan (x : FV) : Bool := decide (x = .nan)

/-- A zero; a sign. -/
def FV.isZero (x : FV) : Bool :=
  match x with
  | .fin _ m _ => m == 0
  | _ => false
def FV.isNeg (x : FV) : Bool :=
  match x with
  | .fin n _ _ => n
  | .inf n => n
  | .nan => false

/-- The value of an integer times a power of two. -/
def FV.ofInt (i : Int) (e : Int) : FV := .fin (decide (i < 0)) i.natAbs e

/-- The negated value. -/
def FV.neg (x : FV) : FV :=
  match x with
  | .fin n m e => .fin (!n) m e
  | .inf n => .inf (!n)
  | .nan => .nan

/-- Signed mantissa of a finite value at a lower exponent. -/
def FV.at_ (x : FV) (q : Int) : Int :=
  match x with
  | .fin n m e => let v : Int := (m * 2 ^ (e - q).toNat : Nat); if n then -v else v
  | _ => 0

/-- Exponent of a finite value. -/
def FV.exp (x : FV) : Int :=
  match x with
  | .fin _ _ e => e
  | _ => 0

/-- The exact sum. A sum of zeros is -0 only when both are. -/
def FV.add (x y : FV) : FV :=
  match x, y with
  | .nan, _ => .nan
  | _, .nan => .nan
  | .inf a, .inf b => if a = b then .inf a else .nan
  | .inf a, _ => .inf a
  | _, .inf b => .inf b
  | .fin a _ e, .fin b _ e' =>
    let q := min e e'
    let s := x.at_ q + y.at_ q
    if s = 0 then .fin (a && b) 0 0 else FV.ofInt s q

/-- The exact product. -/
def FV.mul (x y : FV) : FV :=
  match x, y with
  | .nan, _ => .nan
  | _, .nan => .nan
  | .inf a, z => if z.isZero then .nan else .inf (a != z.isNeg)
  | z, .inf b => if z.isZero then .nan else .inf (z.isNeg != b)
  | .fin a m e, .fin b m' e' => .fin (a != b) (m * m') (e + e')

/-- Order of finite values: `x < y`. -/
def FV.lt (x y : FV) : Bool :=
  match x, y with
  | .nan, _ => false
  | _, .nan => false
  | .inf a, .inf b => a && !b
  | .inf a, _ => a
  | _, .inf b => !b
  | .fin _ _ e, .fin _ _ e' => let q := min e e'; decide (x.at_ q < y.at_ q)

/-- `floor (x * 2 ^ k)` of a finite value. -/
def FV.floorMul (x : FV) (k : Int) : Int :=
  match x with
  | .fin n m e =>
    let s := e + k
    let i : Int := if n then -(m : Int) else m
    if 0 ≤ s then i * (2 ^ s.toNat : Nat) else i / (2 ^ (-s).toNat : Nat)
  | _ => 0

/-- The quotient rounded to a format; finite operands, a divisor that is not zero. -/
def Fmt.divMag (f : Fmt) (neg : Bool) (m : Nat) (e : Int) (m' : Nat) (e' : Int) : Nat :=
  let k := 2 * f.fb + 8 + m'.log2
  f.roundMag neg (m * 2 ^ k / m' * 2 + (if m * 2 ^ k % m' = 0 then 0 else 1)) (e - e' - k - 1) false

/-- Integer square root by bisection on the bits from `n` down. -/
def isqrtFrom (v : Nat) (r : Nat) : Nat → Nat
  | 0 => if (r + 1) * (r + 1) ≤ v then r + 1 else r
  | n + 1 => let t := r + 2 ^ (n + 1); isqrtFrom v (if t * t ≤ v then t else r) n

/-- Integer square root. -/
def isqrt (v : Nat) : Nat := isqrtFrom v 0 (v.log2 / 2 + 1)

/-- The square root rounded to a format, of a magnitude. -/
def Fmt.sqrtMag (f : Fmt) (m : Nat) (e : Int) : Nat :=
  let e2 := if e % 2 = 0 then e else e - 1
  let m2 := if e % 2 = 0 then m else 2 * m
  let k := f.fb + 4
  let v := m2 * 2 ^ (2 * k)
  let r := isqrt v
  f.roundMag false (2 * r + (if r * r = v then 0 else 1)) (e2 / 2 - k - 1) false

end Sys2Proof.Machine
end

