-- ==== Sys2Proof/Machine/Window.lean ====
section
/-!
DEFINITION. Capture windows (ING.4, ING.5): opening, closing, final status, CLOSE records, and the feature sets that
windows belong to (R729, R730, R737, R738).
-/

namespace Sys2Proof.Machine

/-- The stream record of a stream in a STREAMS section; empty for none. -/
def streamRecOf (sec : List Nat) (s : Nat) : List Nat :=
  match (List.range (u8 sec 0)).find? (fun i => u8 sec (16 + 64 * i) == s) with
  | some i => bytesAt sec (16 + 64 * i) 64
  | none => []

/-- Stream record of the last plan. -/
def Dev.streamRec (d : Dev) (s : Nat) : List Nat := streamRecOf (d.lastSec 8) s

/-- REQUIRED, GRACE, TIMEOUT and RING of a stream. -/
def Dev.required (d : Dev) (s : Nat) : Bool := bitAt (u8 (d.streamRec s) 5) 0
def Dev.graceOf (d : Dev) (s : Nat) : Nat := u8 (d.streamRec s) 7
def Dev.timeoutOf (d : Dev) (s : Nat) : Nat := u32 (d.streamRec s) 8
def Dev.rawRingOf (d : Dev) (s : Nat) : Nat := u8 (d.streamRec s) 14

/-- Hidden state of a stream. -/
def Dev.stream (d : Dev) (s : Nat) : Stream := nth {} d.ing.streams s
def Dev.setStream (d : Dev) (s : Nat) (f : Stream → Stream) : Dev :=
  { d with ing := { d.ing with streams := d.ing.streams.set s (f (d.stream s)) } }

/-- The open window of a stream, and its windows in grace. -/
def Stream.openWin (t : Stream) : Option Win := t.wins.find? (fun w => w.closeAt.isNone)

/-- Bring WIN, GRACE and WIN_ANY up to date. -/
def Dev.syncWins (d : Dev) (s : Nat) : Dev :=
  let d := d.flagi R.STP_STATUS_WIN s (d.stream s).openWin.isSome
  let d := d.flagi R.STP_STATUS_GRACE s ((d.stream s).wins.any (fun w => w.closeAt.isSome))
  d.flag R.CAD_STATUS_WIN_ANY ((List.range 16).any (fun i => d.isSeti R.STP_STATUS_WIN i))

/-- Index of the running frame since its plan took effect (R520). -/
def Dev.frameIdx (d : Dev) : Nat := d.sq.frameNo - 1

/-- COINC header fields (COI.1). -/
def coNch (c : List Nat) : Nat := u16 c 4
def coNslice (c : List Nat) : Nat := u16 c 6
def coFeats (c : List Nat) : Nat := 64 * u8 c 8
def coAmpSh (c : List Nat) : Nat := u8 c 9
def coMult (c : List Nat) : Nat := u8 c 10
def coFlag (c : List Nat) (i : Nat) : Bool := bitAt (u8 c 11) i
def coSliceW (c : List Nat) : Nat := u16 c 12
def coStreams (c : List Nat) : Nat := u16 c 14
def coBase (c : List Nat) : Nat := u32 c 16
/-- Tensor size Z, rounded up to a multiple of 256 (COI.2). -/
def coZ (c : List Nat) : Nat := (2 * coNslice c * coFeats c + 255) / 256 * 256

/-- Change the LAU's sets. -/
def Dev.mapSets (d : Dev) (f : FSet → FSet) : Dev := { d with lau := { d.lau with sets := d.lau.sets.map f } }

/-- Write a set's status to LAU_SET_STAT. -/
def Dev.setStat (d : Dev) (x : FSet) (slices : Nat) : Dev :=
  let d := d.flag R.LAU_SET_STAT_INVALID x.invalid
  let d := d.flag R.LAU_SET_STAT_NOWIN (!x.hasWin)
  let d := d.flag R.LAU_SET_STAT_FAULT x.faulted
  let d := d.flag R.LAU_SET_STAT_LATE x.late
  let d := d.flag R.LAU_SET_STAT_ABANDONED x.abandoned
  d.wr R.LAU_SET_STAT_SLICES slices

/-- Abandon the sets up to `n` that are not complete (R738). -/
def Dev.abandonSets (d : Dev) (n : Nat) : Dev :=
  d.lau.sets.foldl (fun a x =>
    if decide (x.n ≤ n) && !x.complete && !x.abandoned then
      let y := { x with abandoned := true, invalid := true, hits := [] }
      ((a.mapSets (fun z => if z.n = x.n then y else z)).inc R.LAU_CNT_ABANDON).setStat y 0
    else a) d

/-- A set of frame `n` before any window. -/
def Dev.newSet (d : Dev) (n : Nat) : FSet :=
  { n := n, chans := d.lau.chans.map (fun c => (c.w, c.d)), unanch := bitAt d.sq.status 1 }

/-- A window of a contributing stream opens in frame `n` (R729, R738). -/
def Dev.joinSet (d : Dev) (s n : Nat) : Dev :=
  let d := if d.lau.sets.any (fun x => x.n == n && x.hasWin) || n < 2 then d else d.abandonSets (n - 2)
  let d := if d.lau.sets.any (fun x => x.n == n) then d
           else { d with lau := { d.lau with sets := d.lau.sets ++ [d.newSet n] } }
  d.mapSets (fun x => if x.n = n then
    { x with complete := false, phase := if x.hasWin then x.phase else d.phase, hasWin := true, live := x.live + 1,
             opened := if d.required s then putBit x.opened s true else x.opened } else x)

/-- A window opens on a stream that contributes to built events: its set's ledger names it (TRG.5). -/
def Dev.ledgerOpen (d : Dev) (s num : Nat) : Dev :=
  if !bitAt (u16 (d.sec 12) 6) s then d
  else
    let mine := fun (l : Ledg) => l.frame == d.frameIdx && l.stream == s
    let fresh : Ledg := { frame := d.frameIdx, stream := s, ring := d.rawRingOf s, first := num, last := num,
                          start := d.rdi R.MEM_RAW_WP (d.rawRingOf s) }
    let upd := fun (l : Ledg) => if mine l then { l with last := num, endP := none } else l
    let ls := if (d.trg.ledger.any mine) then d.trg.ledger.map upd else d.trg.ledger ++ [fresh]
    { d with trg := { d.trg with ledger := ls } }

/-- A window's CLOSE record has been written: a ledger that names it last takes the position past it (TRG.5). -/
def Dev.ledgerClose (d : Dev) (s num : Nat) : Dev :=
  let f (x : Ledg) : Ledg := if x.stream = s ∧ x.last = num ∧ x.endP = none then
    { x with endP := some (d.rdi R.MEM_RAW_WP x.ring) } else x
  { d with trg := { d.trg with ledger := d.trg.ledger.map f,
                               queue := d.trg.queue.map (fun q => { q with ledger := q.ledger.map f }) } }

/-- Open a window on a stream of the plan that has none open (R327). -/
def Dev.openWindow (d : Dev) (s : Nat) : Dev :=
  if (d.streamRec s).isEmpty || !d.planActive || (d.stream s).openWin.isSome then d
  else
    let inSet := bitAt (coStreams (d.sec 10)) s
    let w : Win := { num := (d.stream s).nextWin, openAt := d.beat, openPhase := d.phase,
                     startWp := d.rdi R.MEM_RAW_WP (d.rawRingOf s),
                     set := if inSet then some d.frameIdx else none, mark := d.beat,
                     status := if d.rdi R.STP_STATUS_LINK s = 2 then 0 else 1 }
    let d := d.setStream s (fun t => { t with wins := t.wins ++ [w], nextWin := (t.nextWin + 1) % 2 ^ 32 })
    let d := if inSet then d.joinSet s d.frameIdx else d
    (d.ledgerOpen s w.num).syncWins s

/-- A raw-ring record header with its HCRC (ING.5). -/
def rawHeader (len stream kind win seqF phase hits flags : Nat) : List Nat :=
  let h := leBytes 2 len ++ [stream, kind] ++ leBytes 4 win ++ leBytes 4 seqF ++ leBytes 8 phase ++ leBytes 2 hits ++
    [flags, 0, 0, 0, 0, 0]
  h ++ leBytes 4 (crc32c h)

/-- Write a window's CLOSE record (R715). -/
def Dev.closeRecord (d : Dev) (s : Nat) (w : Win) : Dev :=
  d.rawAppend (d.rawRingOf s) (rawHeader 32 s 2 w.num w.closeSeq w.closePhase 0 0 ++ leBytes 8 w.startWp ++
    leBytes 4 w.frames ++ leBytes 4 w.bytes ++ [w.status, 0, 0, 0] ++ leBytes 4 w.missing ++ List.replicate 8 0)

/-- Set a bit in the status of the windows of a stream that are not final and satisfy a condition. -/
def Dev.faultWins (d : Dev) (s bit : Nat) (p : Win → Bool) : Dev :=
  d.setStream s (fun t => { t with wins := t.wins.map (fun w => if p w then { w with status := putBit w.status bit true } else w) })

/-- Format row that a stream's record names, in the table in force; empty where it is all zero or there is none. -/
def Dev.formatRow (d : Dev) (s : Nat) : List Nat :=
  let r := nth [] d.ing.formats (u8 (d.streamRec s) 4)
  if zerosAt r 0 64 then [] else r

/-- A window's status becomes final (R711, R712, R715): CLOSE record, LAST, and its part in its feature set. -/
def Dev.finalWindow (d : Dev) (s : Nat) (w : Win) : Dev :=
  let d := ((d.closeRecord s w).ledgerClose s w.num).wri R.STP_STATUS_LAST s w.status
  let d := d.setStream s (fun t => { t with wins := t.wins.filter (fun v => v.num ≠ w.num) })
  let d := match w.set with
    | some n => d.mapSets (fun x => if x.n = n then
        { x with live := x.live - 1, lastFinal := d.beat,
                 faulted := x.faulted || (w.status != 0 && d.required s) } else x)
    | none => d
  d.syncWins s

/-- Close a window now; `bit` names a status bit to set (6 TRUNCATED, 7 ENDED). ENDED windows have no grace and are
final at once (R708, R711). -/
def Dev.closeWin (d : Dev) (s : Nat) (w : Win) (bit : Option Nat) : Dev :=
  let w := { w with closeAt := some d.beat, closePhase := d.phase,
                    closeSeq := if u8 (d.formatRow s) 9 = 0 then 0 else (d.stream s).expect,
                    grace := if bit = some 7 then 0 else d.graceOf s,
                    status := match bit with
                      | some b => putBit w.status b true
                      | none => w.status }
  if bit = some 7 then d.finalWindow s w
  else (d.setStream s (fun t => { t with wins := t.wins.map (fun v => if v.num = w.num then w else v) })).syncWins s

/-- Close the open window of a stream, if any. -/
def Dev.closeWindow (d : Dev) (s : Nat) (bit : Option Nat) : Dev :=
  match (d.stream s).openWin with
  | some w => d.closeWin s w bit
  | none => d

/-- Close every open window, and end every grace, with ENDED (R719-R721). -/
def Dev.endWindows (d : Dev) : Dev :=
  (List.range 16).foldl (fun a s =>
    let a := (a.stream s).wins.foldl (fun b w => if w.closeAt.isSome then b.finalWindow s w else b) a
    a.closeWindow s (some 7)) d

/-- Streams with an open window, as a mask. -/
def Dev.openMask (d : Dev) : Nat :=
  (List.range 16).foldl (fun a s => if (d.stream s).openWin.isSome then a + 2 ^ s else a) 0

end Sys2Proof.Machine
end

