-- ==== Sys2Proof/Machine/Cad.lean ====
section
/-!
DEFINITION. Phase timebase and phase event rows (chapter 07): the four sources, the phase word, motion states and
validity, row firings, the high-water mark, HOLD_TIMING, and what a stop does to windows.
-/

namespace Sys2Proof.Machine

/-- Phase value `a` is beyond `b` (R299). -/
def beyond (a b : Nat) : Bool :=
  let x := (a + 2 ^ 64 - b % 2 ^ 64) % 2 ^ 64
  decide (1 ≤ x) && decide (x < 2 ^ 63)

/-- Change the hidden state of the Cadence unit. -/
def Dev.setCad (d : Dev) (f : Cad → Cad) : Dev := { d with cad := f d.cad }

/-- The Cadence unit decodes its inputs. -/
def Dev.cadOn (d : Dev) : Bool := d.works 0 && d.cad.acq

/-- One source. -/
def Dev.psrc (d : Dev) (k : Nat) : PSrc := nth {} d.cad.srcs k

/-- Change one source. -/
def Dev.setPsrc (d : Dev) (k : Nat) (f : PSrc → PSrc) : Dev :=
  d.setCad (fun c => { c with srcs := c.srcs.set k (f (d.psrc k)) })

/-- A source is phase-valid; the timer from acquisition on (R251). -/
def Dev.srcValid (d : Dev) (k : Nat) : Bool :=
  match k with
  | 0 => d.cad.acq
  | 1 => d.isSet R.CAD_STATUS_ENC_VALID
  | 2 => d.isSet R.CAD_STATUS_TF_VALID
  | _ => d.isSet R.CAD_STATUS_PULSE_VALID

/-- Field that reports a source's validity. -/
def validFld (k : Nat) : Fld :=
  match k with
  | 1 => R.CAD_STATUS_ENC_VALID
  | 2 => R.CAD_STATUS_TF_VALID
  | _ => R.CAD_STATUS_PULSE_VALID

/-- The interpolation e in steps of 2^-16 (R292). -/
def Dev.encInterp (d : Dev) : Nat :=
  if (d.psrc 1).motion ≠ 0 then d.cad.encE
  else
    let n := d.cad.encMarks.length
    if n < 2 then 0
    else
      let span := nth 0 d.cad.encMarks 0 - nth 0 d.cad.encMarks (n - 1)
      if span = 0 then 65535 else min (65536 * (d.beat - d.cad.encBeat) * (n - 1) / span) 65535

/-- Phase of the timing frame at this beat (R282, R293): the last good frame carried forward at the rate of the last
two that advanced, by no more than the advance between them. -/
def Dev.tfEstimate (d : Dev) (m : TfMark) : Nat :=
  match d.cad.tfAdv with
  | a :: b :: _ =>
    let adv := (a.phase + 2 ^ 64 - b.phase) % 2 ^ 64
    let dt := a.at_ - b.at_
    let on := if dt = 0 then adv else min adv (adv * (4 * d.beat - m.at_) / dt)
    (m.phase + on) % 2 ^ 64
  | _ => m.phase

/-- Each source's own phase value at this beat (R287, R291, R293, R295). -/
def Dev.srcWord (d : Dev) (k : Nat) : Nat :=
  match k with
  | 0 => (d.cad.tmCycle % 2 ^ 40) * 2 ^ 24 + min (2 ^ 24 * d.cad.tmBeat / max 1 (d.rd R.CAD_TMR_PERIOD)) (2 ^ 24 - 1)
  | 1 => (d.cad.encCycle % 2 ^ 40) * 2 ^ 24 +
         min ((d.rd R.CAD_ENC_POS * 65536 + d.encInterp) * 2 ^ 24 / (max 1 (d.rd R.CAD_ENC_N) * 65536)) (2 ^ 24 - 1)
  | 2 => match d.cad.tfMark with
         | some m => d.tfEstimate m
         | none => d.phase
  | _ => (d.cad.plCycle % 2 ^ 40) * 2 ^ 24 +
         (match d.cad.plBeat, d.cad.plPeriod with
          | some b, some p => min (2 ^ 24 * (d.beat - b) / max 1 p) (2 ^ 24 - 1)
          | _, _ => 0)

/-- CAD_PERIOD: mean step period of the selected source in 1/16 beat, all ones while none is measured (CAD.6). -/
def Dev.period16 (d : Dev) : Nat :=
  let none16 := 0xFFFFFFFF
  match d.cad.src with
  | 1 =>
    let n := d.cad.encMarks.length
    if n < 2 ∨ (d.psrc 1).motion ≠ 0 ∨ nth 0 d.cad.encMarks 0 ≤ d.cad.perRef then none16
    else min none16 (16 * (nth 0 d.cad.encMarks 0 - nth 0 d.cad.encMarks (n - 1)) / (n - 1))
  | 2 =>
    match d.cad.tfAdv with
    | a :: b :: _ => if a.at_ ≤ 4 * d.cad.perRef then none16 else min none16 (4 * (a.at_ - b.at_))
    | _ => none16
  | 3 =>
    match d.cad.plBeat, d.cad.plPeriod with
    | some b, some p => if b ≤ d.cad.perRef then none16 else min none16 (16 * p)
    | _, _ => none16
  | _ => none16

/-- The work of one beat: the device, the log entries to write after the row firings (kind and argument), and whether
the phase word may fall (R296). -/
structure Pass where
  dev : Dev
  notes : List (Nat × Nat) := []
  drop : Bool := false

/-- A source's motion state changes (R292, R302-R304). -/
def Dev.setMotion (d : Dev) (k m : Nat) : Dev :=
  if (d.psrc k).motion = m then d
  else
    let d := if k = 1 ∧ m ≠ 0 ∧ (d.psrc 1).motion = 0 then d.setCad (fun c => { c with encE := d.encInterp }) else d
    let d := d.setPsrc k (fun s => { s with motion := m, fwdRun := if m = 1 then 0 else s.fwdRun,
                                            revRun := if m = 1 then 0 else s.revRun })
    if k = 1 ∧ m = 0 then d.setCad (fun c => { c with encMarks := [c.encBeat] }) else d

/-- A source gains or loses phase-valid (R251, CAD.3, R1016). -/
def Pass.setValid (p : Pass) (k : Nat) (v : Bool) : Pass :=
  let d := p.dev
  if d.srcValid k = v then p
  else
    let d := d.flag (validFld k) v
    if v then
      if k = d.cad.src then
        { p with dev := d.setCad (fun c => { c with noFire := true, perRef := d.beat }) }
      else { p with dev := d }
    else
      let d := d.setMotion k 1
      let d := d.setPsrc k (fun s => { s with fwdRun := 0, revRun := 0 })
      { p with dev := d.setCad (fun c => { c with idxMiss := if k = 1 then 0 else c.idxMiss,
                                                  tfRun := if k = 2 then 0 else c.tfRun }) }

/-- A source delivers a step (R303, R304). -/
def Dev.step (d : Dev) (k : Nat) (fwd : Bool) : Dev :=
  let d := d.setPsrc k (fun s => { s with stepBeat := d.beat, fwdRun := if fwd then s.fwdRun + 1 else 0,
                                          revRun := if fwd then 0 else s.revRun + 1 })
  let s := d.psrc k
  let h := d.rd R.CAD_ENC_CFG_DIR_HYST
  if fwd && decide (h ≤ s.fwdRun) then d.setMotion k 0
  else if !fwd && decide (h ≤ s.revRun) then d.setMotion k 2 else d

/-- One encoder count takes effect (R276, R292). -/
def Pass.count (p : Pass) (fwd : Bool) : Pass :=
  let d := p.dev
  let n := max 1 (d.rd R.CAD_ENC_N)
  let pos := d.rd R.CAD_ENC_POS
  let d :=
    if fwd then
      if n ≤ pos + 1 then (d.wr R.CAD_ENC_POS 0).setCad (fun c => { c with encCycle := (c.encCycle + 1) % 2 ^ 40 })
      else d.wr R.CAD_ENC_POS (pos + 1)
    else if pos = 0 then
      (d.wr R.CAD_ENC_POS (n - 1)).setCad (fun c => { c with encCycle := (c.encCycle + 2 ^ 40 - 1) % 2 ^ 40 })
    else d.wr R.CAD_ENC_POS (pos - 1)
  let d := d.setCad (fun c => { c with
    encMarks := if !fwd then [] else if (d.psrc 1).motion = 0 then (d.beat :: c.encMarks).take 9 else c.encMarks,
    encBeat := d.beat, encE := 0 })
  { p with dev := d.step 1 fwd, drop := p.drop || (!fwd && d.cad.src == 1) }

/-- An index takes effect (R278-R280). -/
def Pass.index (p : Pass) : Pass :=
  let d := p.dev
  if !d.srcValid 1 then
    ({ p with dev := (d.wr R.CAD_ENC_POS 0).setCad (fun c => { c with encCycle := 0, idxMiss := 0 }) }).setValid 1 true
  else
    let n := d.rd R.CAD_ENC_N
    let pos := d.rd R.CAD_ENC_POS
    let off : Int := if 2 * pos ≤ n then (pos : Int) else (pos : Int) - n
    if off.natAbs ≤ d.rd R.CAD_ENC_CFG_IDX_WIN then
      let d := (d.wr R.CAD_ENC_POS 0).setCad (fun c => { c with
        idxMiss := 0, encCycle := if off < 0 then (c.encCycle + 1) % 2 ^ 40 else c.encCycle })
      if off = 0 then { p with dev := d }
      else { p with dev := d.inc R.CAD_CNT_IDX_CORR, notes := p.notes ++ [(11, ofInt 32 off)] }
    else
      let d := (d.inc R.CAD_CNT_IDX_ERR).setCad (fun c => { c with idxMiss := c.idxMiss + 1 })
      if 3 ≤ d.cad.idxMiss then ({ p with dev := d }).setValid 1 false else { p with dev := d }

/-- A pulse takes effect (R285, R286, R251). -/
def Pass.pulse (p : Pass) : Pass :=
  let d := p.dev
  match d.cad.plBeat with
  | none => { p with dev := (d.setCad (fun c => { c with plBeat := some d.beat, plCycle := 0, plGood := 0 })).step 3 true }
  | some b =>
    let per := d.beat - b
    if per < d.rd R.CAD_PULSE_PMIN then { p with dev := d.inc R.CAD_CNT_PULSE_SHORT }
    else
      let d := d.setCad (fun c => { c with
        plBeat := some d.beat, plPeriod := some per, plCycle := (c.plCycle + 1) % 2 ^ 40,
        plGood := if per ≤ d.rd R.CAD_PULSE_PMAX then c.plGood + 1 else 0 })
      let q : Pass := { p with dev := d }
      let q := if 2 ≤ d.cad.plGood then q.setValid 3 true else q
      { q with dev := q.dev.step 3 true }

/-- J of R294, in fraction units. -/
def Dev.jumpJ (d : Dev) : Nat := 2 ^ (12 + d.rd R.CAD_TF_CFG_JUMP)

/-- A good timing frame is applied (R251, R293, R294, R306, R307). -/
def Pass.tframe (p : Pass) (m : TfMark) : Pass :=
  let d := p.dev
  let sel := decide (d.cad.src = 2)
  let cur := if sel then d.phase else d.srcWord 2
  let v := d.tfEstimate m
  let ahead := (v + 2 ^ 64 - cur) % 2 ^ 64
  let behind := (cur + 2 ^ 64 - v) % 2 ^ 64
  let back := decide (2 ^ 63 ≤ ahead)
  let moved := match d.cad.tfMark with
    | some l => beyond m.phase l.phase
    | none => true
  let cyc := m.phase / 2 ^ 24
  let run := match d.cad.tfCycle with
    | some c => if cyc = c ∨ cyc = (c + 1) % 2 ^ 40 then d.cad.tfRun + 1 else 1
    | none => 1
  let jumpB := back && decide (d.jumpJ < behind)
  let jumpF := !back && decide (d.jumpJ < ahead)
  let adv := (!back && moved) || jumpF
  let d := d.setCad (fun c => { c with
    tfMark := some m, tfCycle := some cyc, tfRun := min run 4, tfBeat := d.beat,
    tfAdv := if jumpB || jumpF then [m] else if adv then (m :: c.tfAdv).take 2 else c.tfAdv })
  let d := if adv then d.step 2 true else d
  let q : Pass := { p with dev := d }
  let q := if 4 ≤ run then q.setValid 2 true else q
  if jumpB then
    let d := q.dev.setMotion 2 2
    if sel then { q with dev := (d.inc R.CAD_CNT_RESYNC).setCad (fun c => { c with noFire := true }),
                         notes := q.notes ++ [(5, 0)] }
    else { q with dev := d }
  else if jumpF && sel then
    { q with dev := (q.dev.inc R.CAD_CNT_RESYNC).setCad (fun c => { c with noFire := true, hwmSet := true }),
             notes := q.notes ++ [(5, 0)] }
  else q

/-- An edge takes effect. -/
def Pass.edge (p : Pass) (e : Edge) : Pass :=
  match e.kind with
  | .count fwd _ _ => p.count fwd
  | .index => p.index
  | .pulse => p.pulse
  | .frame m => p.tframe m
  | .sync rising =>
    if bitAt (p.dev.rd R.CAD_CTL_SYNC_EDGE) (if rising then 0 else 1) then { p with notes := p.notes ++ [(10, 0)] } else p

/-- Time without a step after which a source is STALLED, in beats (R302). -/
def Dev.stallBeats (d : Dev) (k : Nat) : Nat :=
  if k = 3 then d.rd R.CAD_PULSE_PMAX else 250 * d.rd R.CAD_STALL_TO

/-- No step of a source for its stall time; the timer never stalls. -/
def Dev.stallDue (d : Dev) (k : Nat) : Bool :=
  k != 0 && (d.psrc k).motion != 1 && decide ((d.psrc k).stepBeat + d.stallBeats k ≤ d.beat)

/-- Fields of a row (CAD.4). -/
def rowFrac (r : List Nat) : Nat := u24 r 0
def rowAction (r : List Nat) : Nat := u8 r 3
def rowDiv (r : List Nat) : Nat := u16 r 4
def rowEn (r : List Nat) : Bool := bitAt (u8 r 6) 0
def rowBoth (r : List Nat) : Bool := bitAt (u8 r 6) 1
def rowMask (r : List Nat) : Nat := u16 r 8
def rowMatch (r : List Nat) : Nat := u16 r 10
def rowArg (r : List Nat) : Nat := u32 r 12

/-- Number of a row's positions at or below a fraction (R310). -/
def rowUpTo (r : List Nat) (f : Nat) : Nat :=
  if f < rowFrac r then 0
  else if rowDiv r < 2 then 1
  else min (rowDiv r) ((rowDiv r * (2 * (f - rowFrac r) + 1) - 1) / 2 ^ 25 + 1)

/-- A row is eligible in a cycle (R311). -/
def rowEligible (r : List Nat) (c : Nat) : Bool := (c % 65536) &&& rowMask r == rowMatch r

/-- Number of a row's positions in (a, b], in eligible cycles, for `b` at or beyond `a` (R310-R312). -/
def rowsIn (r : List Nat) (a b : Nat) : Nat :=
  let delta := (b + 2 ^ 64 - a) % 2 ^ 64
  let fin := a % 2 ^ 24 + delta
  (List.range (fin / 2 ^ 24 + 1)).foldl (fun n i =>
    let c := (a / 2 ^ 24 + i) % 2 ^ 40
    if rowEligible r c then
      n + rowUpTo r (min (fin - i * 2 ^ 24) (2 ^ 24 - 1)) - (if i = 0 then rowUpTo r (a % 2 ^ 24) else 0)
    else n) 0

/-- How many of a row's positions a change of the phase word from `w0` to `w1` crosses, and whether in reverse
(R312, R313). -/
def Dev.rowCross (d : Dev) (r : List Nat) (w0 w1 : Nat) : Nat × Bool :=
  if !rowEn r then (0, false)
  else if beyond w1 w0 then
    let h := d.rd R.CAD_HWM
    let lo := if !rowBoth r && beyond h w0 then h else w0
    (if lo = w1 ∨ beyond lo w1 then 0 else rowsIn r lo w1, false)
  else if rowBoth r then (rowsIn r w1 w0, true)
  else (0, false)

/-- Fire one row of the table in force where the change crosses it (R314, R316, R338). -/
def Dev.fireRow (d : Dev) (w0 w1 : Nat) (e : Nat × List Nat) : Dev :=
  let x := d.rowCross e.2 w0 w1
  if x.1 = 0 then d
  else
    let d := d.addi R.CAD_CNT_FIRE_MERGE 0 (x.1 - 1)
    if rowAction e.2 = 8 then d.cadLog 1 e.1 (b2n x.2) (rowArg e.2)
    else d.setCad (fun c => { c with fired := c.fired ++ [{ row := e.1, beat := d.beat, fwd := false, bytes := e.2 }] })

/-- The FRAME_START rows of an admitted arm's target that waits for one of them (R1014). -/
def Dev.targetRows (d : Dev) : List (List Nat) :=
  match d.sq.arm with
  | some a =>
    if a.wait = 3 then
      let img := if a.target = 0 then d.sq.standby else d.sq.active
      let p := if a.target = 0 then nth 0 d.sq.sbyForms 0 else nth 0 d.sq.actForms 0
      let s := planSec img p 6
      ((List.range (s.length / 16)).map (fun i => bytesAt s (16 * i) 16)).filter (fun r => rowAction r == 1)
    else []
  | none => []

/-- The first firing of the target's FRAME_START rows decides the switch; a held start is discarded (R1014). -/
def Dev.fireTarget (d : Dev) (w0 w1 : Nat) : Dev :=
  if d.cad.targetGate.isNone && d.targetRows.any (fun r => decide (0 < (d.rowCross r w0 w1).1)) then
    (d.setCad (fun c => { c with targetGate := some d.beat, due := none })).flag R.CAD_STATUS_HELD d.sq.frameAt.isSome
  else d

/-- Rows fire for a change of the phase word, in ascending order (R312-R316, R1014). -/
def Dev.fireRows (d : Dev) (w0 w1 : Nat) : Dev :=
  (d.cad.table.foldl (fun a e => a.fireRow w0 w1 e) d).fireTarget w0 w1

/-- Write the log entries of a beat that are no row firings. -/
def Dev.notes (d : Dev) (l : List (Nat × Nat)) : Dev := l.foldl (fun a n => a.cadLog n.1 0xFFFF 0 n.2) d

/-- The row fired as WIN_OPEN or WIN_CLOSE. -/
def Fired.isWin (e : Fired) : Bool := rowAction e.bytes == 2 || rowAction e.bytes == 3

/-- A window action decides a stream where no later one of its beat names it (R315); a WIN_OPEN outside FORWARD is
none (R328). -/
def Fired.names (e : Fired) (s : Nat) : Bool :=
  e.isWin && bitAt (rowArg e.bytes) s && (rowAction e.bytes == 3 || e.fwd)

/-- A WIN_OPEN or WIN_CLOSE action takes effect (R327, R328, R315); `later` are the rows of its beat still to act. -/
def Dev.winAction (d : Dev) (e : Fired) (later : List Fired) : Dev :=
  if !d.planActive then d
  else if rowAction e.bytes == 2 && !e.fwd then d.inc R.CAD_CNT_WIN_SKIP
  else
    (List.range 16).foldl (fun a s =>
      if e.names s && !later.any (fun x => x.beat == e.beat && x.names s) then
        if rowAction e.bytes = 2 then a.openWindow s else a.closeWindow s none
      else a) d

/-- The window actions among some fired rows take effect, in order. -/
def Dev.winActions (d : Dev) (l : List Fired) : Dev :=
  match l with
  | [] => d
  | e :: r => ((if e.isWin then d.winAction e r else d)).winActions r

/-- The loop of the running plan is phase-driven (R330, R860). -/
def Dev.loopPhase (d : Dev) : Bool := d.planActive && decide (u8 (d.sec 14) 1 = 1)

/-- A phase-driven loop enters HOLD_TIMING (R330, R331). -/
def Dev.holdEnter (d : Dev) : Dev :=
  if !d.loopPhase || d.isSet R.CAD_STATUS_HOLD_TIMING then d
  else
    let d := (d.flag R.CAD_STATUS_HOLD_TIMING true).flag R.LPE_STATUS_HOLD true
    let d := d.setCad (fun c => { c with holdF := c.loopFire.getD d.beat, holdAt := d.beat, holdLast := none })
    d.cadLog 6 0xFFFF 0 0

/-- Every open window closes TRUNCATED (R329), after the window actions that take effect in this beat and the
WIN_CLOSE actions of rows that fired in it. -/
def Dev.truncate (d : Dev) : Dev :=
  let old := d.cad.fired.filter (fun e => decide (e.beat < d.beat) && e.isWin)
  let now := d.cad.fired.filter (fun e => decide (d.beat ≤ e.beat) && rowAction e.bytes == 3)
  let d := (d.winActions old).winActions now
  let d := d.setCad (fun c => { c with fired := c.fired.filter (fun e => !decide (e ∈ old) && !decide (e ∈ now)) })
  let m := d.openMask
  if m = 0 then d
  else
    let d := d.addi R.CAD_CNT_WIN_TRUNC 0 (setBits m 16).length
    let d := d.cadLog 12 0xFFFF 0 m
    (setBits m 16).foldl (fun a s => a.closeWindow s (some 6)) d

/-- The state in which the actions of this beat's firings come (R316, R328, R332). -/
def Dev.stampFired (d : Dev) : Dev :=
  let ok := d.rd R.CAD_STATUS_MOTION == 0 && d.isSet R.CAD_STATUS_VALID
  d.setCad (fun c => { c with fired := c.fired.map (fun e => if e.beat = d.beat then { e with fwd := ok } else e) })

/-- Bring VALID and MOTION up to date with the source that drives the phase word, with all that a change brings
(R309, R329, R330, R253, R338). -/
def Dev.syncPhase (d : Dev) : Dev :=
  let m0 := d.rd R.CAD_STATUS_MOTION
  let v0 := d.isSet R.CAD_STATUS_VALID
  let m1 := if d.cad.acq then (d.psrc d.cad.src).motion else 1
  let v1 := d.srcValid d.cad.src
  let d := ((d.wr R.CAD_STATUS_MOTION m1).flag R.CAD_STATUS_VALID v1).flag R.GLB_START_PHASE_VALID v1
  let d := d.syncEvents
  let d := if v0 = v1 then d else d.cadLog (if v1 then 9 else 8) 0xFFFF 0 0
  let d := if m0 = m1 then d else d.cadLog (match m1 with | 0 => 4 | 1 => 2 | _ => 3) 0xFFFF 0 0
  if (m0 ≠ m1 ∧ m1 ≠ 0) ∨ (v0 ∧ !v1) then d.truncate.holdEnter else d

/-- The phase word takes its value of this beat, rows fire, and the marks and states follow (R290, R296, R300, R305,
R312-R316, R1016). -/
def Pass.settle (p : Pass) : Dev :=
  let d := p.dev
  let w0 := d.phase
  let v := d.srcWord d.cad.src
  let w1 := if p.drop || d.cad.noFire || !beyond w0 v then v else w0
  let d := d.wr R.CAD_PHASE w1
  let on := d.isSet R.GLB_START_EVENTS_ON
  let d := if on && !d.cad.noFire && decide (w0 ≠ w1) then d.fireRows w0 w1 else d
  let d := d.notes p.notes
  let d := if d.cad.hwmSet || (on && beyond w1 (d.rd R.CAD_HWM)) then d.wr R.CAD_HWM w1 else d
  let d := d.setCad (fun c => { c with noFire := false, hwmSet := false })
  let d := d.syncPhase.stampFired
  d.wr R.CAD_PERIOD d.period16

/-- The internal timer moves on by one beat (R287). -/
def Dev.timerBeat (d : Dev) : Dev :=
  let p := max 1 (d.rd R.CAD_TMR_PERIOD)
  let b := d.cad.tmBeat + 1
  d.setCad (fun c => { c with tmCycle := (c.tmCycle + b / p) % 2 ^ 40, tmBeat := b % p })

/-- Sources that do not drive the phase word stall by themselves (R302). -/
def Dev.idleStalls (d : Dev) : Dev :=
  [1, 2, 3].foldl (fun a k => if k ≠ a.cad.src ∧ a.stallDue k then a.setMotion k 1 else a) d

/-- The Cadence unit's part of a beat. -/
def Dev.cadBeat (d : Dev) : Dev :=
  if !d.cadOn then d
  else
    let d := d.timerBeat
    let due := d.cad.edges.filter (fun e => decide (e.eff ≤ d.beat))
    let d := d.setCad (fun c => { c with edges := c.edges.filter (fun e => !decide (e.eff ≤ d.beat)) })
    let p := due.foldl Pass.edge { dev := d }
    ({ p with dev := p.dev.idleStalls }).settle

/-- The phase stamp of this beat is kept for the words whose instant falls in it (R830). -/
def Dev.keepStamp (d : Dev) : Dev :=
  { d with sad := { d.sad with stamps := (d.beat, d.stamp) :: d.sad.stamps.take 15 } }

/-- Once per millisecond every control core that runs advances its heartbeat byte (R970). -/
def Dev.coreBeats (d : Dev) : Dev :=
  if !d.boot.cores then d
  else (List.range 4).foldl (fun a k =>
    if a.boot.dead.contains k || bitAt (a.rd R.MGT_DBG_HALTED) k then a else a.wri R.RAS_HB k (a.rdi R.RAS_HB k + 1)) d

/-- One beat passes (R290): time, the heartbeat of the calibration service, the rate window, and the phase word. -/
def Dev.tick (d : Dev) : Dev :=
  let d := { d with beat := d.beat + 1 }
  let d := if d.beat % 250000 = 0 ∧ d.fwReady then d.wr R.CAL_STATUS_HEARTBEAT (d.rd R.CAL_STATUS_HEARTBEAT + 1) else d
  let d := if d.beat % 250000 = 0 then d.coreBeats else d
  let d := if d.beat % 250 = 0 then d.setCad (fun c => { c with encRateEnd := c.encRate, encRate := 0 }) else d
  d.cadBeat.keepStamp

/-- Decoding begins (R250, R287): the timer is valid at once. -/
def Dev.acquire (d : Dev) : Dev :=
  let d := d.setCad (fun c => { c with acq := true, noFire := true, tmCycle := 0, tmBeat := 0, tfBeat := d.beat,
                                       perRef := d.beat })
  let v0 := d.isSet R.CAD_STATUS_VALID
  let d := d.wr R.CAD_PHASE (d.srcWord d.cad.src)
  let d := (d.wr R.CAD_STATUS_MOTION (d.psrc d.cad.src).motion).flag R.CAD_STATUS_VALID (d.srcValid d.cad.src)
  let d := (d.flag R.GLB_START_PHASE_VALID (d.srcValid d.cad.src)).syncEvents
  if v0 = d.srcValid d.cad.src then d else d.cadLog 9 0xFFFF 0 0

/-- The Cadence unit starts acquiring, 10 ms after the end of an episode (R250). -/
def acquireStart (d : Dev) : Dev :=
  if d.works 0 && !d.cad.acq then (d.atLeast (d.rst.endAt + 2500000)).acquire else d

def execCadAcquireStart (s : State) : Host.Outcome State Fault Refusal := onDev acquireStart s

/-- Queue an edge. -/
def Dev.queueEdge (d : Dev) (eff : Nat) (k : EdgeKind) : Dev :=
  d.setCad (fun c => { c with edges := c.edges ++ [{ eff := eff, kind := k }] })

/-- A count of this pin and stamp. -/
def Edge.isCount (e : Edge) (pinB : Bool) (stamp : Nat) : Bool :=
  match e.kind with
  | .count _ b t => b == pinB && t == stamp
  | _ => false

/-- An accepted edge of CAD_A or CAD_B (R271-R275, R277); `stamp` is the time of the edge at the ball in ns. -/
def encoderEdge (pinB forward : Bool) (stamp : Nat) (d : Dev) : Dev :=
  if !d.cadOn then d
  else
    let alone := d.setCad (fun c => { c with encEdge := some (pinB, stamp), encRate := c.encRate + 1 })
    let queued := alone.queueEdge ((stamp + d.rd R.CAD_FILT + 10) / 4 + 2)
      (.count (forward != d.isSet R.CAD_CTL_ENC_INV) pinB stamp)
    match d.cad.encEdge with
    | some (b, t) =>
      if b ≠ pinB ∧ stamp < t + 10 ∧ t < stamp + 10 then
        (d.inc R.CAD_CNT_QUAD_ERR).setCad (fun c => { c with
          encEdge := none, encRate := c.encRate - 1, edges := c.edges.filter (fun e => !e.isCount b t) })
      else queued
    | none => queued

def execEncoderEdge (pinB forward : Bool) (stamp : Nat) (s : State) : Host.Outcome State Fault Refusal :=
  onDev (encoderEdge pinB forward stamp) s

/-- An accepted rising edge of CAD_Z (R273, R278). -/
def encoderIndex (d : Dev) : Dev := if d.cadOn then d.queueEdge (d.beat + 2) .index else d

def execEncoderIndex (s : State) : Host.Outcome State Fault Refusal := onDev encoderIndex s

/-- An accepted rising edge of CAD_P (R273, R285). -/
def pulseEdge (d : Dev) : Dev := if d.cadOn then d.queueEdge (d.beat + 2) .pulse else d

def execPulseEdge (s : State) : Host.Outcome State Fault Refusal := onDev pulseEdge s

/-- An accepted edge of SYNC_IN (R273, R289). -/
def syncInEdge (rising : Bool) (d : Dev) : Dev := if d.cadOn then d.queueEdge (d.beat + 2) (.sync rising) else d

def execSyncInEdge (rising : Bool) (s : State) : Host.Outcome State Fault Refusal := onDev (syncInEdge rising) s

/-- An accepted rising edge of SETP_P (R288): the period in 1/16 beat is four times that in ns. -/
def setpEdge (stamp : Nat) (d : Dev) : Dev :=
  if !d.cadOn then d
  else
    let d := match d.cad.setpEdge with
      | some t => d.wr R.CAD_SETP_PERIOD (min 0xFFFFFFFF (4 * (stamp - t)))
      | none => d
    d.setCad (fun c => { c with setpEdge := some stamp, setpAt := some d.beat })

def execSetpEdge (stamp : Nat) (s : State) : Host.Outcome State Fault Refusal := onDev (setpEdge stamp) s

/-- A rate window ends (R277). -/
def rateWindowEnd (d : Dev) : Dev :=
  if !d.cadOn then d
  else
    let fast := decide (d.rd R.CAD_ENC_CFG_MAXRATE < d.cad.encRateEnd)
    let d := d.setCad (fun c => { c with encRateEnd := 0 })
    if fast then (({ dev := d.inc R.CAD_CNT_RATE_ERR : Pass }).setValid 1 false).dev.syncPhase.stampFired else d

def execRateWindowEnd (s : State) : Host.Outcome State Fault Refusal := onDev rateWindowEnd s

/-- A frame's characters are good but for their code (R281). -/
def tframeGood (c : List Nat) : Bool :=
  decide (c.length = 16) && u8 c 0 == 1 && u8 c 1 == 0 && u16 c 10 == 0 && u32 c 12 == crc32c (bytesAt c 0 12)

/-- A timing frame arrives (R281, R282): a good one acts at the next update of the phase word. -/
def tframe (codeOk : Bool) (chars : List Nat) (d : Dev) : Dev :=
  if !d.cadOn then d
  else if !codeOk then (d.inc R.CAD_CNT_TF_DEC).setCad (fun c => { c with tfRun := 0 })
  else if !tframeGood chars then (d.inc R.CAD_CNT_TF_CRC).setCad (fun c => { c with tfRun := 0 })
  else
    let phase := leVal (bytesAt chars 2 5) * 2 ^ 24 + u24 chars 7
    d.queueEdge (d.beat + 1) (.frame { phase := phase, at_ := 4 * d.beat - d.rd R.CAD_TF_CFG_LAT_NS })

def execTframeReceived (codeOk : Bool) (chars : List Nat) (s : State) : Host.Outcome State Fault Refusal :=
  onDev (tframe codeOk chars) s

/-- No good timing frame for TO_US (R283). -/
def tframeTimeout (d : Dev) : Dev :=
  if !d.cadOn || decide (d.beat < d.cad.tfBeat + 250 * d.rd R.CAD_TF_CFG_TO_US) then d
  else
    let d := (d.inc R.CAD_CNT_TF_MISS).setCad (fun c => { c with tfBeat := d.beat, tfRun := 0 })
    (({ dev := d : Pass }).setValid 2 false).dev.syncPhase.stampFired

def execTframeTimeout (s : State) : Host.Outcome State Fault Refusal := onDev tframeTimeout s

/-- No step of the selected source for its stall time (R302): STALLED. -/
def motionStall (d : Dev) : Dev :=
  if d.cadOn && d.stallDue d.cad.src then (d.setMotion d.cad.src 1).syncPhase.stampFired else d

def execMotionStall (s : State) : Host.Outcome State Fault Refusal := onDev motionStall s

/-- The selected source changes at a frame boundary (R308). -/
def Dev.changeSource (d : Dev) : Dev :=
  let k := d.rd R.CAD_CTL_SRC
  let d := d.setCad (fun c => { c with srcPending := false })
  if k = d.cad.src || !d.cadOn then d.setCad (fun c => { c with src := k })
  else
    let d := d.setCad (fun c => { c with src := k, perRef := d.beat })
    let d := d.wr R.CAD_PHASE (d.srcWord k)
    let d := (d.wr R.CAD_HWM d.phase).wr R.CAD_PERIOD d.period16
    (d.cadLog 5 0xFFFF 0 0).syncPhase.stampFired

/-- CAD_ENC_N or CAD_TMR_PERIOD takes a new value (R1016): the next change of the phase word fires no row, and the
high-water mark takes it. A position that the new N does not have is not stated: a free value below N. -/
def Dev.cadRescale (d : Dev) : Dev :=
  let n := max 1 (d.rd R.CAD_ENC_N)
  let d := if n ≤ d.rd R.CAD_ENC_POS then (d.freeVal 24).2.wr R.CAD_ENC_POS ((d.freeVal 24).1 % n) else d
  if d.cad.acq then d.setCad (fun c => { c with noFire := true, hwmSet := true }) else d

/-- A row whose action takes effect now: the first that waits, fired before this beat (R315, R316). -/
def Dev.acting (d : Dev) (row act : Nat) : Option Fired :=
  match d.cad.fired with
  | e :: _ => if e.row = row ∧ rowAction e.bytes = act ∧ e.beat < d.beat then some e else none
  | [] => none

/-- The acting row is done. -/
def Dev.acted (d : Dev) : Dev := d.setCad (fun c => { c with fired := c.fired.drop 1 })

/-- A WIN_OPEN or WIN_CLOSE row acts. -/
def winRow (act row : Nat) (d : Dev) : Dev :=
  match d.acting row act with
  | some e => d.acted.winAction e (d.cad.fired.drop 1)
  | none => d

/-- A WIN_OPEN action (R327, R328). -/
def execWinOpen (row : Nat) (s : State) : Host.Outcome State Fault Refusal :=
  unit (decide (row < 1024)) (onDev (winRow 2 row) s)

/-- A WIN_CLOSE action (R327). -/
def execWinClose (row : Nat) (s : State) : Host.Outcome State Fault Refusal :=
  unit (decide (row < 1024)) (onDev (winRow 3 row) s)

/-- A PLAN_ARM action gates a pending phase-gated arm (R334). -/
def planArmRow (row : Nat) (d : Dev) : Dev :=
  match d.acting row 6 with
  | some _ =>
    let d := d.acted
    match d.sq.arm with
    | some a => if a.wait = 2 then d.setCad (fun c => { c with armGate := true }) else d
    | none => d
  | none => d

def execPlanArmRow (row : Nat) (s : State) : Host.Outcome State Fault Refusal :=
  unit (decide (row < 1024)) (onDev (planArmRow row) s)

/-- A FRAME_START action (R321-R323, R1014): a frame start becomes due, or is held while a frame runs. -/
def frameStartRow (row : Nat) (d : Dev) : Dev :=
  match d.acting row 1 with
  | some e =>
    let d := d.acted
    if !d.planActive || !d.isSet R.CAD_FSTART_EN || d.cad.due.isSome || d.cad.targetGate.isSome then d
    else (d.setCad (fun c => { c with due := some e.beat })).flag R.CAD_STATUS_HELD d.sq.frameAt.isSome
  | none => d

def execFrameStartRow (row : Nat) (s : State) : Host.Outcome State Fault Refusal :=
  unit (decide (row < 1024)) (onDev (frameStartRow row) s)

/-- Timing of a LOOP_SAMPLE action for a phase-driven loop (R331-R333): whether it yields a sample. -/
def Dev.loopTiming (d : Dev) (e : Fired) : Dev × Bool :=
  let h := d.rd R.CAD_LOOP_HOLD
  if !d.loopPhase then (d, false)
  else
    let d := d.setCad (fun c => { c with loopFire := some e.beat })
    if !d.isSet R.CAD_STATUS_HOLD_TIMING then
      let d := match d.cad.loopCount with
        | some b => d.wr R.CAD_LOOP_HOLD (e.beat - b)
        | none => d
      (d.setCad (fun c => { c with loopCount := some e.beat }), true)
    else if !e.fwd then (d, false)
    else
      let late := match d.cad.holdLast with
        | some b => decide (h ≤ 2 * (e.beat - b))
        | none => true
      let d := (d.flag R.CAD_STATUS_HOLD_TIMING false).flag R.LPE_STATUS_HOLD false
      let d := d.setCad (fun c => { c with loopCount := some e.beat, holdLast := none })
      (d.cadLog 7 0xFFFF 0 0, late)

/-- A held loop sample is due at this beat: F + k * H after the entry into HOLD_TIMING (R331). -/
def Dev.heldDue (d : Dev) : Bool :=
  d.loopPhase && d.isSet R.CAD_STATUS_HOLD_TIMING && decide (d.cad.holdAt < d.beat) &&
    decide ((d.beat - d.cad.holdF) % max 1 (d.rd R.CAD_LOOP_HOLD) = 0) && !decide (d.cad.holdLast = some d.beat)

/-- What a phase-driven loop of the plan taking effect starts from (R331): no firing, the nominal period. -/
def Dev.loopTimingStart (d : Dev) : Dev :=
  let d := (d.flag R.CAD_STATUS_HOLD_TIMING false).flag R.LPE_STATUS_HOLD false
  let d := d.setCad (fun c => { c with loopFire := none, loopCount := none, holdLast := none })
  d.wr R.CAD_LOOP_HOLD (if d.loopPhase then planLoopPeriod d.sq.active d.sq.plan else 0)

end Sys2Proof.Machine
end

