-- ==== Sys2Proof/Machine/Net.lean ====
section
/-!
DEFINITION. Ethernet, IP and UDP as the stream and AET ports read and answer them (R693, R694, ING.2): checksums, the
UDP payload of a frame addressed to a port, ARP replies and Neighbour Advertisements. Frames run from the destination
address to before the FCS.
-/

namespace Sys2Proof.Machine

/-- Sum of the 16-bit big-endian words of a byte list, an odd last byte padded with zero. -/
def sum16 (l : List Nat) : Nat :=
  match l with
  | [] => 0
  | [a] => (a % 256) * 256
  | a :: b :: r => (a % 256) * 256 + b % 256 + sum16 r

/-- Fold a sum to 16 bits with end-around carry. -/
def fold16 (n : Nat) : Nat :=
  let a := n % 65536 + n / 65536
  let b := a % 65536 + a / 65536
  b % 65536 + b / 65536

/-- The one's-complement sum of a byte list. -/
def ocSum (l : List Nat) : Nat := fold16 (sum16 l)

/-- Addresses of a port: MAC, VLAN identifier (none untagged), IPv6 or IPv4 address, UDP port. -/
structure NetAddr where
  mac : List Nat
  vlan : Option Nat
  v6 : Bool
  ip : List Nat
  udp : Nat
deriving DecidableEq, Repr

/-- The VLAN identifier of a frame's tag, its EtherType, and the offset of what follows. -/
def ethHead (f : List Nat) : Option Nat × Nat × Nat :=
  if be16 f 12 = 0x8100 then (some (be16 f 14 % 4096), be16 f 16, 18) else (none, be16 f 12, 14)

/-- A PAUSE frame (R693). -/
def isPause (f : List Nat) : Bool :=
  let h := ethHead f
  h.2.1 == 0x8808 && be16 f h.2.2 == 1

/-- An ARP request for the port's IPv4 address. -/
def isArpFor (n : NetAddr) (f : List Nat) : Bool :=
  let h := ethHead f
  let a := f.drop h.2.2
  !n.v6 && h.2.1 == 0x0806 && be16 a 0 == 1 && be16 a 2 == 0x0800 && u8 a 4 == 6 && u8 a 5 == 4 && be16 a 6 == 1 &&
    bytesAt a 24 4 == n.ip.take 4

/-- A Neighbour Solicitation for the port's IPv6 address. -/
def isNsFor (n : NetAddr) (f : List Nat) : Bool :=
  let h := ethHead f
  let a := f.drop h.2.2
  n.v6 && h.2.1 == 0x86DD && u8 a 6 == 58 && u8 a 40 == 135 && bytesAt a 48 16 == n.ip

/-- The head of a frame that a port sends: addresses, the port's tag, and the EtherType. -/
def ethTx (n : NetAddr) (dst : List Nat) (ty : Nat) : List Nat :=
  dst ++ n.mac ++ (match n.vlan with
                   | some v => beBytes 2 0x8100 ++ beBytes 2 v
                   | none => []) ++ beBytes 2 ty

/-- Pad a frame to the least size, 60 bytes before its FCS. -/
def ethPad (f : List Nat) : List Nat := f ++ List.replicate (60 - f.length) 0

/-- The ARP reply to a request. -/
def arpReply (n : NetAddr) (f : List Nat) : List Nat :=
  let a := f.drop (ethHead f).2.2
  ethPad (ethTx n (bytesAt a 8 6) 0x0806 ++ [0, 1, 8, 0, 6, 4, 0, 2] ++ n.mac ++ n.ip.take 4 ++ bytesAt a 8 6 ++
    bytesAt a 14 4)

/-- The Neighbour Advertisement that answers a solicitation: solicited, override, with the port's link address. -/
def neighbourAdv (n : NetAddr) (f : List Nat) : List Nat :=
  let a := f.drop (ethHead f).2.2
  let dst := bytesAt a 8 16
  let body (c : Nat) : List Nat := [136, 0] ++ beBytes 2 c ++ [0x60, 0, 0, 0] ++ n.ip ++ [2, 1] ++ n.mac
  let c := 0xFFFF - ocSum (n.ip ++ dst ++ [0, 0, 0, 32, 0, 0, 0, 58] ++ body 0)
  ethPad (ethTx n (bytesAt f 6 6) 0x86DD ++ [0x60, 0, 0, 0, 0, 32, 58, 255] ++ n.ip ++ dst ++ body c)

/-- The UDP datagram of an IPv4 packet to the port, with the pseudo header of its checksum (R694). -/
def ipv4Udp (n : NetAddr) (a : List Nat) : Option (List Nat × List Nat) :=
  let h := a.take 20
  let len := be16 h 2
  if h.length = 20 ∧ u8 h 0 = 0x45 ∧ ocSum h = 0xFFFF ∧ be16 h 6 % 0x4000 = 0 ∧ u8 h 9 = 17 ∧
     bytesAt h 16 4 = n.ip.take 4 ∧ 28 ≤ len ∧ len ≤ a.length then
    some (bytesAt a 20 (len - 20), bytesAt h 12 8 ++ [0, 17] ++ beBytes 2 (len - 20))
  else none

/-- The UDP datagram of an IPv6 packet to the port, with the pseudo header of its checksum (R694). -/
def ipv6Udp (n : NetAddr) (a : List Nat) : Option (List Nat × List Nat) :=
  let h := a.take 40
  let len := be16 h 4
  if h.length = 40 ∧ u8 h 0 / 16 = 6 ∧ u8 h 6 = 17 ∧ bytesAt h 24 16 = n.ip ∧ 8 ≤ len ∧ 40 + len ≤ a.length then
    some (bytesAt a 40 len, bytesAt h 8 32 ++ beBytes 4 len ++ [0, 0, 0, 17])
  else none

/-- The UDP payload of a frame addressed to the port (R694). -/
def udpPayload (n : NetAddr) (f : List Nat) : Option (List Nat) :=
  let h := ethHead f
  let a := f.drop h.2.2
  if f.take 6 ≠ n.mac ∨ h.1 ≠ n.vlan then none
  else
    let d := if n.v6 then (if h.2.1 = 0x86DD then ipv6Udp n a else none)
             else (if h.2.1 = 0x0800 then ipv4Udp n a else none)
    match d with
    | some (u, pseudo) =>
      if be16 u 2 ≠ n.udp ∨ be16 u 4 ≠ u.length then none
      else if be16 u 6 = 0 then (if n.v6 then none else some (u.drop 8))
      else if ocSum (pseudo ++ u) = 0xFFFF then some (u.drop 8) else none
    | none => none

/-- The answer of a port to a frame that is no datagram for it: an ARP reply or a Neighbour Advertisement. -/
def netAnswer (n : NetAddr) (f : List Nat) : Option (List Nat) :=
  if isArpFor n f then some (arpReply n f) else if isNsFor n f then some (neighbourAdv n f) else none

end Sys2Proof.Machine
end

