-- ==== Sys2Proof/Machine/Ingress.lean ====
section
/-!
DEFINITION. Detector stream ingress (chapter 15): ports, the checks of a detector frame, hits on their way to the
coincidence stage, and the end of windows. A stream port is named by the stream that its plan binds to it.
-/

namespace Sys2Proof.Machine

/-- Fields of a stream record (ING.1). -/
def strDie (r : List Nat) : Nat := u8 r 1
def strLane (r : List Nat) : Nat := u8 r 2
def strMode (r : List Nat) : Nat := u8 r 3
def strFlag (r : List Nat) (i : Nat) : Bool := bitAt (u8 r 5) i
def strLanes (r : List Nat) : Nat := if strMode r = 2 then 2 else if strMode r = 3 then 4 else 1

/-- Addresses of a stream port. -/
def strAddr (r : List Nat) : NetAddr :=
  { mac := bytesAt r 16 6, vlan := if strFlag r 3 then some (u16 r 22) else none, v6 := strFlag r 2,
    ip := bytesAt r 32 16, udp := u16 r 24 }

/-- Two records describe the same port (ING.6). -/
def samePort (a b : List Nat) : Bool :=
  !a.isEmpty && bytesAt a 1 3 == bytesAt b 1 3 && u8 a 6 == u8 b 6 && strFlag a 1 == strFlag b 1

/-- LINK of a stream port (0 HELD, 1 TRAINING, 2 UP, 3 RETRY); a change raises event class 6 (HIF.3). -/
def Dev.setLink (d : Dev) (s v : Nat) : Dev :=
  if d.rdi R.STP_STATUS_LINK s = v then d else (d.wri R.STP_STATUS_LINK s v).evt 6

/-- Signal detected on the lanes of a port. -/
def Dev.setSignal (d : Dev) (r : List Nat) (on : Bool) : Dev :=
  (List.range (strLanes r)).foldl (fun a k => a.flagi R.STP_SIGNAL (16 * strDie r + strLane r + k) on) d

/-- A stream port comes up (R698, R703). -/
def Dev.streamUp (d : Dev) (s : Nat) : Dev :=
  let k := d.rdi R.STP_STATUS_LINK s
  if d.works 7 && (k == 1 || k == 3) then
    ((d.setLink s 2).wri R.STP_STATUS_SYNC s 0).setSignal (d.streamRec s) true
  else d

/-- A stream port goes down and retries without limit (R698); its windows have a LINK fault. -/
def Dev.streamDown (d : Dev) (s : Nat) : Dev :=
  let k := d.rdi R.STP_STATUS_LINK s
  if !d.works 7 || k == 0 then d
  else
    let d := if k = 2 then (d.inci R.STP_CNT_LINK_DOWN s).faultWins s 0 (fun _ => true) else d
    (d.setLink s 3).setSignal (d.streamRec s) false

/-- Format rows' fields (ING.3). -/
def fmtMin (r : List Nat) : Nat := u16 r 0
def fmtMax (r : List Nat) : Nat := u16 r 2
def fmtBe (r : List Nat) : Bool := bitAt (u8 r 5) 0
def fmtCrc (r : List Nat) : Nat := if bitAt (u8 r 5) 1 then 4 else 0
def fmtSeqW (r : List Nat) : Nat := if u8 r 9 = 0 then 0 else 2 ^ (u8 r 9 - 1)
def fmtTs (r : List Nat) : Nat := u8 r 11

/-- A field of `n` bytes of a payload, in the row's byte order. -/
def fmtField (r p : List Nat) (o n : Nat) : Nat := if fmtBe r then beVal (bytesAt p o n) else leVal (bytesAt p o n)

/-- The row that applies to a frame of a stream whose first byte arrived at a beat (R699); empty for none. -/
def Dev.formatAt (d : Dev) (s first : Nat) : List Nat :=
  let t := if d.ing.formatsAt ≤ first then d.ing.formats else d.ing.formatsOld
  let r := nth [] t (u8 (d.streamRec s) 4)
  if zerosAt r 0 64 then [] else r

/-- Timestamp of a payload; none where it has no readable one. -/
def fmtStamp (r p : List Nat) : Option Nat :=
  let n := if fmtTs r = 1 then 4 else 8
  if r.isEmpty || fmtTs r == 0 || decide (p.length < u8 r 10 + n) then none else some (fmtField r p (u8 r 10) n)

/-- `a` is beyond `b` in the arithmetic of a timestamp mode (R299, R704). -/
def tsBeyond (mode a b : Nat) : Bool :=
  let w := if mode = 1 then 32 else 64
  let x := (a + 2 ^ w - b % 2 ^ w) % 2 ^ w
  decide (1 ≤ x) && decide (x < 2 ^ (w - 1))

/-- A phase word as a timestamp mode sees it. -/
def tsOf (mode w : Nat) : Nat := if mode = 1 then bits w 16 32 else w

/-- The window to which a frame that arrives now belongs (R707-R709, R720). -/
def Dev.windowOf (d : Dev) (s : Nat) (r p : List Nat) : Option Win :=
  let t := d.stream s
  let grace := t.wins.filter (fun w => match w.closeAt with
    | some b => decide (d.beat < b + w.grace)
    | none => false)
  match t.openWin with
  | some o =>
    match fmtStamp r p with
    | some x =>
      match grace.find? (fun w => !tsBeyond (fmtTs r) x (tsOf (fmtTs r) w.closePhase)) with
      | some w => some w
      | none => some o
    | none => some o
  | none =>
    match fmtStamp r p, grace with
    | some x, _ :: _ :: _ =>
      match grace.find? (fun w => !tsBeyond (fmtTs r) x (tsOf (fmtTs r) w.closePhase)) with
      | some w => some w
      | none => grace.getLast?
    | _, _ => grace.getLast?

/-- Change a window of a stream. -/
def Dev.setWin (d : Dev) (s num : Nat) (f : Win → Win) : Dev :=
  d.setStream s (fun t => { t with wins := t.wins.map (fun w => if w.num = num then f w else w) })

/-- Set a fault of the window a frame belongs to. -/
def Dev.winFault (d : Dev) (s bit : Nat) (w : Option Win) : Dev :=
  match w with
  | some x => d.setWin s x.num (fun y => { y with status := putBit y.status bit true })
  | none => d

/-- Hits that a payload holds by its row; none where the length check fails (check 3). -/
def fmtHits (r p : List Nat) : Option Nat :=
  let len := p.length
  let hs := u8 r 18
  let area := len - fmtCrc r - u8 r 17
  if len < fmtMin r ∨ fmtMax r < len ∨ len < fmtCrc r + u8 r 17 then none
  else if u8 r 4 ≠ 0xFF ∧ (fmtField r p (u8 r 4) 2 : Int) + i16 r 6 ≠ len then none
  else
    let n := if u8 r 16 = 0xFF then area / max 1 hs else fmtField r p (u8 r 16) 2
    if u16 r 24 < n ∨ area < n * hs ∨ (u8 r 16 = 0xFF ∧ area % max 1 hs ≠ 0) then none else some n

/-- The payload of a lane-direct frame given as blocks of nine numbers (R695, R696); none for a frame to discard. -/
def directPayload (f : List Nat) : Option (List Nat) :=
  let n := f.length / 9
  let blk (i : Nat) : List Nat := bytesAt f (9 * i) 9
  let len := u16 (blk 0) 2
  let data := ((List.range (n - 2)).map (fun i => (blk (i + 1)).drop 1)).flatten
  let eof := blk (n - 1)
  if f.length % 9 ≠ 0 ∨ n < 3 then none
  else if u8 (blk 0) 0 ≠ 2 ∨ u8 (blk 0) 1 ≠ 0x55 ∨ !zerosAt (blk 0) 4 5 ∨ len < 8 ∨ 9144 < len then none
  else if n ≠ (len + 7) / 8 + 2 ∨ !(List.range (n - 2)).all (fun i => u8 (blk (i + 1)) 0 == 1) then none
  else if u8 eof 0 ≠ 2 ∨ u8 eof 1 ≠ 0x66 ∨ !zerosAt eof 6 3 ∨ !(data.drop len).all (· == 0) then none
  else if u32 eof 2 ≠ crc32c (data.take len) then none
  else some (data.take len)

/-- Bytes of a die's ingress buffer (R706). -/
def ingressBuffer : Nat := 4 * 1024 * 1024

/-- The sequence check of a frame (R702, R703): the device, and whether a gap was found; none when discarded. -/
def Dev.seqCheck (d : Dev) (s : Nat) (r p : List Nat) (w : Option Win) : Dev × Option Bool :=
  let nb := fmtSeqW r
  if nb = 0 then (d.wri R.STP_STATUS_SYNC s 1, some false)
  else
    let m := 2 ^ (8 * nb)
    let q := fmtField r p (u8 r 8) nb
    let k := (q + m - (d.stream s).expect % m) % m
    let adv (e : Dev) : Dev := (e.setStream s (fun t => { t with expect := (q + 1) % m })).wri R.STP_STATUS_SYNC s 1
    if !d.isSeti R.STP_STATUS_SYNC s || k == 0 then (adv d, some false)
    else if k ≤ m / 2 - 1 then
      let d := (adv d).addi R.STP_CNT_SEQ_GAP s k
      let d := match w with
        | some x => d.setWin s x.num (fun y => { y with missing := min (y.missing + k) (2 ^ 32 - 1) })
        | none => d
      (d.winFault s 2 w, some true)
    else (d.inci R.STP_CNT_SEQ_OLD s, none)

/-- The timestamp check (R704). -/
def Dev.stampOk (d : Dev) (r p : List Nat) (w : Win) : Bool :=
  if fmtTs r = 0 then true
  else
    let m := fmtTs r
    let o := tsOf m w.openPhase
    let n := tsOf m (if w.closeAt.isSome then w.closePhase else d.phase)
    match fmtStamp r p with
    | some t => !tsBeyond m t (n + u32 r 12) && !tsBeyond m (o + 2 ^ 64 - u32 r 12) t
    | none => false

/-- The hits of a payload in order: channel, time and amplitude (R705). -/
def payloadHits (r p : List Nat) (n : Nat) : List (Nat × Nat × Nat) :=
  (List.range n).map (fun i =>
    let o := u8 r 17 + i * u8 r 18
    (fmtField r p (o + u8 r 19) 2 + u16 r 22, fmtField r p (o + u8 r 20) 2,
     if u8 r 21 = 0xFF then 0 else fmtField r p (o + u8 r 21) 2))

/-- Hits waiting on a die. -/
def Dev.hitQueue (d : Dev) (die : Nat) : List Hit := nth [] d.ing.queues die
def Dev.setHitQueue (d : Dev) (die : Nat) (q : List Hit) : Dev :=
  { d with ing := { d.ing with queues := d.ing.queues.set die q } }

/-- Write a frame that passed checks 1 to 7 and 8 (R705, R706, R714): its FRAGMENT record and its hits. A hit behind
16,384 others cannot be extracted within 256 beats. -/
def Dev.fragment (d : Dev) (s : Nat) (r p : List Nat) (n : Nat) (w : Win) (gap : Bool) : Dev :=
  let die := strDie (d.streamRec s)
  let ring := d.rawRingOf s
  let hits := payloadHits r p n
  let good := hits.filter (fun h => decide (h.1 < 4096))
  let room := 16384 - (d.hitQueue die).length
  let kept := good.take room
  let grace := w.closeAt.isSome
  let d := d.addi R.STP_CNT_HIT_BAD s (hits.length - good.length)
  let d := if good.length < hits.length then d.winFault s 1 (some w) else d
  let d := d.addi R.STP_CNT_HIT_OVF s (good.length - kept.length)
  let d := if kept.length < good.length then d.winFault s 5 (some w) else d
  let seqF := if fmtSeqW r = 0 then 0 else fmtField r p (u8 r 8) (fmtSeqW r)
  let pos := d.rdi R.MEM_RAW_WP ring
  let d := d.rawAppend ring (rawHeader p.length s 1 w.num seqF d.phase kept.length
    ((if gap then 1 else 0) + (if grace then 2 else 0)) ++ p)
  let d := d.wri R.STP_FRAMES s (d.rdi R.STP_FRAMES s + 1)
  let d := d.setWin s w.num (fun y => { y with frames := y.frames + 1, bytes := y.bytes + p.length,
                                               mark := if grace then y.mark else d.beat })
  d.setHitQueue die (d.hitQueue die ++ kept.map (fun h =>
    { stream := s, win := w.num, set := w.set, ch := h.1, t := h.2.1, amp := h.2.2, at_ := d.beat, ring := ring, pos := pos }))

/-- Checks 3 to 9 of a payload (R701). -/
def Dev.payloadChecks (d : Dev) (s first fill : Nat) (p : List Nat) : Dev :=
  let r := d.formatAt s first
  let w := d.windowOf s r p
  if r.isEmpty then (d.inci R.STP_CNT_LEN_ERR s).winFault s 1 w
  else match fmtHits r p with
    | none => (d.inci R.STP_CNT_LEN_ERR s).winFault s 1 w
    | some n =>
      let len := p.length
      if fmtCrc r = 4 ∧ fmtField r p (len - 4) 4 ≠ crc32c (p.take (len - 4)) then
        (d.inci R.STP_CNT_CRC_ERR s).winFault s 1 w
      else
        let q := d.seqCheck s r p w
        match q.2, w with
        | none, _ => q.1
        | some _, none => q.1.inci R.STP_CNT_OUT_WIN s
        | some gap, some x =>
          let d := q.1
          if !d.stampOk r p x then (d.inci R.STP_CNT_TS_ERR s).winFault s 3 w
          else
            let die := strDie (d.streamRec s)
            let rec_ := (32 + len + 63) / 64 * 64
            let peak := min (fill + rec_) ingressBuffer / 65536
            let d := d.wri R.STP_FILL die (max (d.rdi R.STP_FILL die) peak)
            if ingressBuffer < fill + rec_ then (d.inci R.STP_CNT_DROP s).winFault s 5 w
            else d.fragment s r p n x gap

/-- A detector frame arrives on a stream's port (R701, R693-R696). -/
def frameArrived (s : Nat) (linkOk : Bool) (first fill : Nat) (f : List Nat) (d : Dev) : Dev :=
  let r := d.streamRec s
  if !d.works 7 || d.rdi R.STP_STATUS_LINK s ≠ 2 then d
  else if strMode r = 4 then
    match (if linkOk then directPayload f else none) with
    | some p => d.payloadChecks s first fill p
    | none => d.inci R.STP_CNT_FCS_ERR s
  else if !linkOk || f.length < 60 || 9212 < f.length then d.inci R.STP_CNT_FCS_ERR s
  else match udpPayload (strAddr r) f with
    | some p => d.payloadChecks s first fill p
    | none =>
      if isPause f then d.inci R.STP_CNT_PAUSE s
      else match netAnswer (strAddr r) f with
        | some a => d.emit (.frame s a)
        | none => d.inci R.STP_CNT_ADDR_MISS s

def execStreamFrameArrived (port : Nat) (linkOk : Bool) (first fill : Nat) (frame : List Nat) (s : State) :
    Host.Outcome State Fault Refusal :=
  unit (decide (port < 16)) (onDev (frameArrived port linkOk first fill frame) s)

/-- TIMEOUT beats without a frame in an open window (R710). -/
def windowTimeout (s : Nat) (d : Dev) : Dev :=
  match (d.stream s).openWin with
  | some w =>
    if d.timeoutOf s ≠ 0 ∧ w.mark + d.timeoutOf s ≤ d.beat then
      (d.inci R.STP_CNT_TIMEOUT s).setWin s w.num (fun y => { y with status := putBit y.status 4 true, mark := d.beat })
    else d
  | none => d

def execStreamWindowTimeout (stream : Nat) (s : State) : Host.Outcome State Fault Refusal :=
  unit (decide (stream < 16)) (onDev (windowTimeout stream) s)

/-- A window's grace ends (R711, R715). -/
def windowFinal (s : Nat) (d : Dev) : Dev :=
  match (d.stream s).wins.find? (fun w => match w.closeAt with
      | some b => decide (b + w.grace ≤ d.beat)
      | none => false) with
  | some w => d.finalWindow s w
  | none => d

def execWindowFinal (stream : Nat) (s : State) : Host.Outcome State Fault Refusal :=
  unit (decide (stream < 16)) (onDev (windowFinal stream) s)

/-- A hit is taken back from its FRAGMENT record: HITS falls by one and HCRC follows (ING.5). -/
def Dev.unhit (d : Dev) (h : Hit) : Dev :=
  let k := ringRec (d.lastSec 18) h.ring
  let hd := d.ringGet (u64 k 0) (u64 k 8) h.pos 28
  let hd := hd.take 20 ++ leBytes 2 (u16 hd 20 - 1) ++ hd.drop 22
  if u64 k 8 = 0 then d else d.ringPut (u64 k 0) (u64 k 8) h.pos (hd ++ leBytes 4 (crc32c hd))

/-- One hit that was not extracted in time is dropped (R706). -/
def Dev.dropHit (d : Dev) (h : Hit) : Dev :=
  ((d.inci R.STP_CNT_HIT_OVF h.stream).unhit h).setWin h.stream h.win (fun y => { y with status := putBit y.status 5 true })

/-- The hits of a die that wait since more than 256 beats are dropped (R706). -/
def extractTimeout (die : Nat) (d : Dev) : Dev :=
  let late := (d.hitQueue die).filter (fun h => decide (h.at_ + 256 ≤ d.beat))
  let d := d.setHitQueue die ((d.hitQueue die).filter (fun h => !decide (h.at_ + 256 ≤ d.beat)))
  late.foldl Dev.dropHit d

def execHitExtractTimeout (die : Nat) (s : State) : Host.Outcome State Fault Refusal :=
  unit (decide (die < 2)) (onDev (extractTimeout die) s)

/-- The format table changes at a frame boundary (R699). -/
def Dev.setFormats (d : Dev) (t : List (List Nat)) : Dev :=
  { d with ing := { d.ing with formatsAt := d.beat, formatsOld := d.ing.formats, formats := t } }

/-- Rows of a FORMATS section, 64 of them (ING.3). -/
def formatsOf (sec : List Nat) : List (List Nat) :=
  (List.range 64).map (fun i => if i < u16 sec 0 then bytesAt sec (16 + 64 * i) 64 else List.replicate 64 0)

/-- Ports and formats when a plan takes effect (R716-R718): `old` is the STREAMS section before it, and `fresh` the
raw rings whose write position starts at 0. -/
def Dev.streamsPlan (d : Dev) (old new formats : List Nat) (fresh : List Nat) : Dev :=
  let was := (List.range 16).map (fun s =>
    (streamRecOf old s, d.rdi R.STP_STATUS_LINK s, d.rdi R.STP_STATUS_SYNC s, (d.stream s).expect))
  let d := d.setFormats (formatsOf formats)
  (List.range 16).foldl (fun a s =>
    let r := streamRecOf new s
    if r.isEmpty then
      let a := (a.setLink s 0).wri R.STP_STATUS_MODE s 0
      let o := nth ([], 0, 0, 0) was s
      let a := if (List.range 16).any (fun q => samePort o.1 (streamRecOf new q)) then a else a.setSignal o.1 false
      a.wri R.STP_STATUS_SYNC s 0
    else
      let a := a.wri R.STP_STATUS_MODE s (strMode r)
      let a := match (List.range 16).find? (fun q => samePort (nth ([], 0, 0, 0) was q).1 r) with
        | some q =>
          let o := nth ([], 0, 0, 0) was q
          let a := a.setLink s o.2.1
          if q = s then a.wri R.STP_STATUS_SYNC s o.2.2.1 else a.wri R.STP_STATUS_SYNC s 0
        | none => (a.setLink s 1).wri R.STP_STATUS_SYNC s 0
      if u8 r 14 ∈ fresh then a.setStream s (fun t => { t with nextWin := 0 }) else a) d

/-- Ports after a BLOCK reach of STP (R721): those of the active plan train again. -/
def Dev.streamsRestart (d : Dev) : Dev :=
  if !d.planActive then d
  else (List.range 16).foldl (fun a s =>
    if (a.streamRec s).isEmpty then a
    else (a.setLink s 1).wri R.STP_STATUS_MODE s (strMode (a.streamRec s))) d

end Sys2Proof.Machine
end

