-- ==== Sys2Proof/Machine/Lau.lean ====
section
/-!
DEFINITION. The coincidence stage and the LAU (chapter 16): hits, feature sets, traces, rules, commits, freezing and
rollback.
-/

namespace Sys2Proof.Machine

/-- Further fields of a COINC header (COI.1). -/
def coLearn (c : List Nat) : Bool := coFlag c 0
def coKeep (c : List Nat) : Bool := coFlag c 1
def coStampSh (c : List Nat) : Nat := u8 c 20
def coInc (c : List Nat) : Nat := u8 c 21
def coHalf (c : List Nat) : Nat := u16 c 22
def coWlim (c : List Nat) : Nat := u8 c 24
def coDlim (c : List Nat) : Nat := u16 c 26
def coClampMax (c : List Nat) : Nat := u16 c 28
def coCkptSets (c : List Nat) : Nat := u16 c 30
def coSalt (c : List Nat) : Nat := u16 c 32

/-- Fields of the channel record of channel `ch`. -/
def chRec (c : List Nat) (ch : Nat) : List Nat := bytesAt c (64 + 8 * ch) 8
def chFeat (c : List Nat) (ch : Nat) : Nat := u16 (chRec c ch) 0
def chW0 (c : List Nat) (ch : Nat) : Int := i8 (chRec c ch) 2
def chFlag (c : List Nat) (ch i : Nat) : Bool := bitAt (u8 (chRec c ch) 3) i
def chD0 (c : List Nat) (ch : Nat) : Nat := u16 (chRec c ch) 4

/-- Change the hidden state of the coincidence stage. -/
def Dev.setLau (d : Dev) (f : Lau → Lau) : Dev := { d with lau := f d.lau }

/-- The LAU is frozen. -/
def Dev.frozen (d : Dev) : Bool := d.isSet R.LAU_STATUS_FROZEN

/-- Bring LAU_CTL.FREEZE, LEARNING and PENDING up to date. -/
def Dev.syncLau (d : Dev) (fz : Bool) : Dev :=
  let l := d.lau
  let d := (d.flag R.LAU_STATUS_FROZEN fz).flag R.LAU_CTL_FREEZE fz
  let d := d.flag R.LAU_STATUS_LEARNING (coLearn (d.lastSec 10) && !fz)
  d.flag R.LAU_STATUS_PENDING (l.freeze.isSome || l.rollback || l.rebase || l.ckpt)

/-- A hit reaches the coincidence stage (R726, R727, R732). -/
def Dev.coHit (d : Dev) (h : Hit) : Dev :=
  let c := d.lastSec 10
  if c.isEmpty || !bitAt (coStreams c) h.stream then d
  else if coNch c ≤ h.ch ∨ chFeat c h.ch = 0xFFFF then d.inc R.LAU_CNT_NO_CH
  else match d.lau.sets.find? (fun x => decide (some x.n = h.set)) with
    | none => d
    | some x =>
      if x.abandoned || x.complete then d
      else
        let u := 16 * h.t + (nth (0, 0) x.chans h.ch).2
        if coNslice c ≤ u / (16 * coSliceW c) then d.inc R.LAU_CNT_LATE_HIT
        else
          let a := if chFlag c h.ch 0 then h.amp else 2 ^ coAmpSh c
          d.mapSets (fun y => if y.n = x.n then { y with hits := y.hits ++ [{ ch := h.ch, u := u, a := a }] } else y)

/-- Hits of a die are extracted and passed on, at most 64 in a beat (R705, R706). -/
def hitExtraction (die count : Nat) (d : Dev) : Dev :=
  let q := d.hitQueue die
  let n := min count 64
  (q.take n).foldl Dev.coHit (d.setHitQueue die (q.drop n))

def execHitExtraction (die count : Nat) (s : State) : Host.Outcome State Fault Refusal :=
  unit (decide (die < 2)) (onDev (hitExtraction die count) s)

/-- Slice of a hit of a set (R727). -/
def sliceOf (c : List Nat) (h : SetHit) : Nat := h.u / (16 * coSliceW c)

/-- Weight in force for a channel of a set (R728). -/
def FSet.weight (x : FSet) (ch : Nat) : Int := (nth (0, 0) x.chans ch).1

/-- Channels counted in the multiplicity of a slice, in the order of their first hits (R731). -/
def FSet.multOf (c : List Nat) (x : FSet) (k : Nat) : List SetHit :=
  x.hits.foldl (fun l h =>
    if sliceOf c h = k ∧ x.weight h.ch ≠ 0 ∧ !l.any (fun g => g.ch == h.ch) then l ++ [h] else l) []

/-- A slice is coincident (R731). -/
def FSet.coincident (c : List Nat) (x : FSet) (k : Nat) : Bool := decide (coMult c ≤ (x.multOf c k).length)

/-- Slices that hold hits, rising. -/
def FSet.slices (c : List Nat) (x : FSet) : List Nat :=
  (x.hits.foldl (fun (l : Sparse Unit) h => sins l (sliceOf c h) ()) []).map (·.1)

/-- Coincident slices of a set that hold hits. -/
def FSet.coSlices (c : List Nat) (x : FSet) : List Nat := (x.slices c).filter (x.coincident c)

/-- Exact sums of a slice, by feature (R732). -/
def FSet.sums (c : List Nat) (x : FSet) (k : Nat) : Sparse Int :=
  (x.hits.filter (fun h => sliceOf c h == k)).foldl (fun l h =>
    let f := chFeat c h.ch
    sput 0 l f (sget 0 l f + x.weight h.ch * h.a)) []

/-- A feature value as binary16, and whether it was limited (R732, R733). -/
def featureOf (c : List Nat) (acc : Int) : Nat × Bool :=
  let lim : Int := 2 ^ 39 - 1
  let a := clampInt (-lim) lim acc
  let sh := 6 + coAmpSh c
  if 65504 * 2 ^ sh < a.natAbs then (f16.encode (FV.ofInt (if a < 0 then -65504 else 65504) 0), true)
  else (f16.encode (FV.ofInt a (-(sh : Int))), decide (a ≠ acc))

/-- Element of feature `f` of slice `k` (COI.2). -/
def featElem (c : List Nat) (k f : Nat) : Nat := ((f / 64) * coNslice c + k) * 64 + f % 64

/-- The nonzero features of a set: element, binary16 pattern, limited. -/
def FSet.features (c : List Nat) (x : FSet) : List (Nat × Nat × Bool) :=
  ((x.coSlices c).map (fun k => (x.sums c k).map (fun e =>
    let v := featureOf c e.2
    (featElem c k e.1, v.1, v.2)))).flatten

/-- Zero `n` bytes of the staging buffer area and their poison marks. -/
def Dev.stgZero (d : Dev) (a n : Nat) : Dev :=
  { d with mem := { d.mem with stg := mclear d.mem.stg a n,
                               stgMark := skeep (fun g => decide (g < a / 64) || decide ((a + n + 63) / 64 ≤ g)) d.mem.stgMark } }

/-- REQUIRED streams among a COINC section's STREAMS. -/
def Dev.requiredMask (d : Dev) (c : List Nat) : Nat :=
  (List.range 16).foldl (fun a s => if bitAt (coStreams c) s && d.required s then a + 2 ^ s else a) 0

/-- A set lacks the windows it needs (R737). -/
def Dev.setNoWin (d : Dev) (c : List Nat) (x : FSet) : Bool :=
  let q := d.requiredMask c
  if q = 0 then !x.hasWin else decide (x.opened &&& q ≠ q)

/-- A set completes: its tensor is written and its status reported (R730-R734, R737). -/
def Dev.completeSet (d : Dev) (x : FSet) : Dev :=
  let c := d.lastSec 10
  let fs := x.features c
  let base := coBase c + (x.n % 2) * coZ c
  let d := d.stgZero base (2 * coNslice c * coFeats c)
  let d := fs.foldl (fun a e => a.putBytes 0 (base + 2 * e.1) (leBytes 2 e.2.1)) d
  let sat := (fs.filter (fun e => e.2.2)).length
  let d := d.addi R.LAU_CNT_ACC_SAT 0 (sat - x.sat)
  let no := d.setNoWin c x
  let y := { x with complete := true, invalid := x.invalid || x.faulted || no, sat := max x.sat sat }
  let d := d.mapSets (fun z => if z.n = x.n then y else z)
  (d.setStat y (if coMult c = 0 then coNslice c else (x.coSlices c).length)).flag R.LAU_SET_STAT_NOWIN no

/-- A set has no more windows to wait for at this beat (R730). -/
def Dev.setDue (d : Dev) (x : FSet) : Bool :=
  !x.complete && !x.abandoned &&
  (if x.hasWin then x.live == 0 && decide (x.lastFinal + 288 ≤ d.beat)
   else decide (x.n < d.frameIdx) || d.sq.frameAt.isNone || !d.planActive)

/-- The oldest feature set that is due completes (R730). -/
def featureSetComplete (d : Dev) : Dev :=
  match d.lau.sets.find? d.setDue with
  | some x => d.completeSet x
  | none => d

def execFeatureSetComplete (s : State) : Host.Outcome State Fault Refusal := onDev featureSetComplete s

/-- What a FETCH of frame `m`'s feature area finds (R736): a valid set, an invalid one, or one that is late; a late set
counts once. -/
def Dev.readSet (d : Dev) (m : Nat) : Dev × Bool × Bool :=
  match (if m = 0 then none else d.lau.sets.find? (fun x => x.n == m - 1)) with
  | some x =>
    if x.complete then (d, !x.invalid, false)
    else if x.abandoned then (d, false, false)
    else if x.late then (d, false, true)
    else ((d.inc R.LAU_CNT_FEAT_LATE).mapSets (fun y => if y.n = x.n then { y with late := true } else y), false, true)
  | none => (d, false, false)

/-- Generator key of set `n` (R742). -/
def Dev.lauKey (d : Dev) (n : Nat) : Nat :=
  let seed := u64 d.sq.active 24
  mix (mix ((bits seed 0 32) ^^^ coSalt (d.lastSec 10)) 0xFFFFFFFF ^^^ bits seed 32 32) n

/-- The trace of a channel decayed, then raised (R740, R741); `h` hits in coincident slices. -/
def traceNext (c : List Nat) (x s stamp g h : Nat) : Nat × Nat :=
  let j := ((stamp + 65536 - s % 65536) % 65536) / max 1 (coHalf c)
  let y := if j ≤ 7 then (x * 2 ^ (32 - j) + g) / 2 ^ 32 else 0
  if h = 0 then (y, s) else (min 255 (y + coInc c * h), stamp)

/-- Fields of a rule row (COI.4). -/
def ruEvent (r : List Nat) : Nat := u8 r 0
def ruDelay (r : List Nat) : Bool := u8 r 1 == 1
def ruStep (r : List Nat) : Int := i16 r 8
def ruShift (r : List Nat) : Nat := u8 r 10

/-- What a set says of one channel: its hits, those in coincident slices, and e of ALIGN (COI.4). -/
structure ChView where
  hits : Nat
  co : Nat
  e : Int
  feature : Bool

/-- The view of a channel in a set; `free` stands for the reference time of a slice that no channel is counted in. -/
def FSet.view (c : List Nat) (x : FSet) (cos : List Nat) (sums : List (Sparse Int)) (free : Nat) (ch : Nat) : ChView :=
  let hs := x.hits.filter (fun h => h.ch == ch)
  let co := hs.filter (fun h => decide (sliceOf c h ∈ cos))
  let k := co.foldl (fun m h => min m (sliceOf c h)) (coNslice c)
  let uc := ((co.find? (fun h => sliceOf c h == k)).map (·.u)).getD 0
  let ms := x.multOf c k
  let ref := if ms.isEmpty then free else (ms.map (·.u)).foldl (· + ·) 0 / ms.length
  { hits := hs.length, co := co.length, e := (ref : Int) - uc,
    feature := sums.any (fun l => decide (sget 0 l (chFeat c ch) ≠ 0)) }

/-- A rule's event occurs for a channel (COI.4). -/
def ruOccurs (r : List Nat) (v : ChView) : Bool :=
  match ruEvent r with
  | 1 => decide (0 < v.co)
  | 2 => decide (0 < v.hits) && v.co == 0
  | 3 => v.hits == 0 && v.feature
  | 4 => decide (0 < v.co)
  | _ => false

/-- A rule row applies to a channel with trace `x` (R744). -/
def ruApplies (c r : List Nat) (v : ChView) (ch x : Nat) : Bool :=
  ruOccurs r v && decide (u16 r 4 ≤ ch ∧ ch ≤ u16 r 6) && decide (u8 r 2 ≤ x ∧ x ≤ u8 r 3) &&
    chFlag c ch (if ruDelay r then 2 else 1)

/-- The step of an applying row (R745); `g` the row's generator word. -/
def ruDelta (r : List Nat) (v : ChView) (x g : Nat) : Int :=
  let q : Int := if ruEvent r = 4 then v.e else if bitAt (u8 r 11) 0 then x else 256
  (ruStep r * q * 2 ^ 32 + (g : Int) * (2 ^ (8 + ruShift r) : Nat)) / ((2 ^ (40 + ruShift r) : Nat) : Int)

/-- Sum of the steps of the rows that apply to one target of a channel (R746). -/
def ruSum (c : List Nat) (rules : List (List Nat)) (delay : Bool) (v : ChView) (key ch x : Nat) : Int :=
  (List.range 64).foldl (fun a i =>
    let r := nth [] rules i
    if ruDelay r == delay && ruApplies c r v ch x then a + ruDelta r v x (mix key (128 * ch + 64 + i)) else a) 0

/-- Range of a learned weight and of a learned delay (R746). -/
def wRange (c : List Nat) (ch : Nat) (w : Int) : Int :=
  clampInt (max (-127) (chW0 c ch - coWlim c)) (min 127 (chW0 c ch + coWlim c)) w
def dRange (c : List Nat) (ch : Nat) (x : Int) : Int :=
  clampInt (max 0 ((chD0 c ch : Int) - coDlim c)) (min 16383 ((chD0 c ch : Int) + coDlim c)) x

/-- Update of one channel (R746): the new weight and delay, and whether the channel counts in CLAMPS. -/
def chUpdate (c : List Nat) (rules : List (List Nat)) (v : ChView) (key ch x : Nat) (l : LauCh) : Int × Nat × Bool :=
  let w := l.w + ruSum c rules false v key ch x
  let t := (l.d : Int) + ruSum c rules true v key ch x
  (wRange c ch w, (dRange c ch t).toNat, decide (wRange c ch w ≠ w) || decide (dRange c ch t ≠ t))

/-- Evaluate a complete set at a boundary (R740-R749). -/
def Dev.evaluate (d : Dev) (skip : Bool) (x : FSet) : Dev :=
  let c := d.lastSec 10
  let fr := d.freeVal 32
  let d := fr.2.mapSets (fun y => if y.n = x.n then { y with evaluated := true } else y)
  let key := d.lauKey x.n
  let cos := if coMult c = 0 then List.range (coNslice c) else x.coSlices c
  let sums := (x.coSlices c).map (x.sums c)
  let views := (List.range (coNch c)).map (x.view c cos sums fr.1)
  let old := d.lau.traces.getD (d.lau.chans.map (fun l => (l.x, l.s)))
  let stamp := bits x.phase (coStampSh c) 16
  let tr := if !x.hasWin then old
            else (List.range (coNch c)).map (fun ch =>
              let o := nth (0, 0) old ch
              if chFlag c ch 1 || chFlag c ch 2 then
                traceNext c o.1 o.2 stamp (mix key (128 * ch)) ((views[ch]?).map (·.co) |>.getD 0)
              else o)
  let d := d.setLau (fun l => { l with traces := some tr })
  if !coLearn c || d.frozen then d
  else if skip then d
  else if x.invalid || (x.unanch && !coFlag c 2) then d.inc R.LAU_CNT_LEARN_SKIP
  else
    let up := (List.range (coNch c)).map (fun ch =>
      chUpdate c d.lau.rules ((views[ch]?).getD { hits := 0, co := 0, e := 0, feature := false }) key ch
        (nth (0, 0) tr ch).1 (nth {} d.lau.chans ch))
    let n := (up.filter (fun u => u.2.2)).length
    let d := d.addi R.LAU_CNT_CLAMPS 0 n
    d.setLau (fun l => { l with pend := l.pend ++ [{ n := x.n, vals := up.map (fun u => (u.1, u.2.1)), clamps := n }] })

/-- Give the live values; a change counts in LAU_COMMIT. -/
def Dev.setLive (d : Dev) (v : List (Int × Nat)) : Dev :=
  let new := (d.lau.chans.zip v).map (fun e => { e.1 with w := e.2.1, d := e.2.2 })
  if new.map (fun l => (l.w, l.d)) = d.lau.chans.map (fun l => (l.w, l.d)) then d
  else (d.setLau (fun l => { l with chans := new })).wr R.LAU_COMMIT (d.rd R.LAU_COMMIT + 1)

/-- The baseline of a COINC section. -/
def baseline (c : List Nat) : List (Int × Nat) := (List.range (coNch c)).map (fun ch => (chW0 c ch, chD0 c ch))

/-- Copy the live values to the checkpoint. -/
def Dev.checkpoint (d : Dev) : Dev :=
  (d.setLau (fun l => { l with chans := l.chans.map (fun k => { k with cw := k.w, cd := k.d }) })).wr R.LAU_STATUS_CKPT_AGE 0

/-- The checkpoint's values. -/
def Dev.ckptVals (d : Dev) : List (Int × Nat) := d.lau.chans.map (fun k => (k.cw, k.cd))

/-- A commit, or the guard in its place (R748, R750, R751); `barred` says that REBASE or ROLLBACK acted. -/
def Dev.commitSet (d : Dev) (barred : Bool) (p : LauPend) : Dev :=
  let c := d.lastSec 10
  if barred then d
  else if coClampMax c ≠ 0 ∧ coClampMax c < p.clamps then
    let d := ((d.inc R.LAU_CNT_GUARD_TRIPS).wr R.LAU_STATUS_AUTO 1).syncLau true
    if coFlag c 3 then d.setLive d.ckptVals else d
  else
    let d := (d.setLive p.vals).inc R.LAU_STATUS_CKPT_AGE
    if coCkptSets c ≠ 0 ∧ coCkptSets c ≤ d.rd R.LAU_STATUS_CKPT_AGE then d.checkpoint else d

/-- Traces of the evaluations since the last boundary become those of the channels (R756). -/
def Dev.takeTraces (d : Dev) : Dev :=
  match d.lau.traces with
  | some tr => d.setLau (fun k => { k with
      chans := (k.chans.zip tr).map (fun (e : LauCh × Nat × Nat) => { e.1 with x := e.2.1, s := e.2.2 }), traces := none })
  | none => d

/-- The baseline to the live values and the checkpoint, traces and stamps 0 (R752). -/
def Dev.rebase (d : Dev) : Dev :=
  ((d.setLive (baseline (d.lastSec 10))).checkpoint).setLau (fun k => { k with
    chans := k.chans.map (fun (e : LauCh) => { e with x := 0, s := 0 }) })

/-- Commits, evaluations and skips of the sets when frame `m` begins (R747, R748, R753); `barred` says that a commit
due is discarded. -/
def Dev.lauFrame (d : Dev) (m : Nat) (barred ckpt : Bool) : Dev :=
  let c := d.lastSec 10
  let due := d.lau.pend.filter (fun p => decide (p.n + 2 ≤ m))
  let d := d.setLau (fun k => { k with pend := k.pend.filter (fun p => !decide (p.n + 2 ≤ m)) })
  let d := due.foldl (fun a p => a.commitSet barred p) d
  let d := if ckpt then d.checkpoint else d
  let skipped := (d.lau.sets.filter (fun x => x.n + 1 == m && !x.complete)).length
  let d := if coLearn c && !d.frozen then d.addi R.LAU_CNT_LEARN_SKIP 0 skipped else d
  let d := (d.lau.sets.filter (fun x => x.complete && !x.evaluated)).foldl
    (fun a x => a.evaluate (decide (x.n + 1 < m)) x) d
  d.setLau (fun k => { k with sets := k.sets.filter (fun x => decide (m ≤ x.n + 4)) })

/-- The LAU at a frame boundary (R752, R753, R755, R757): `frame` is the frame of the plan that begins, none with no
plan active; `plan` says that a plan takes effect there. -/
def Dev.lauBoundary (d : Dev) (frame : Option Nat) (plan : Bool) : Dev :=
  let l := d.lau
  let reb := l.rebase || l.blockDue
  let barred := plan || reb || l.rollback
  let fz := l.freeze.getD d.frozen
  let d := d.takeTraces
  let d := if l.freeze = some false then d.wr R.LAU_STATUS_AUTO 0 else d
  let d := if reb then d.rebase else if l.rollback then d.setLive d.ckptVals else d
  let d := d.setLau (fun k => { k with freeze := none, rollback := false, rebase := false, ckpt := false, blockDue := false })
  let d := d.syncLau (fz || reb || l.rollback)
  match frame with
  | some m => d.lauFrame m barred l.ckpt
  | none => if l.ckpt then d.checkpoint else d

/-- The feature set of a frame that begins (R728, R729). -/
def Dev.openSet (d : Dev) (n : Nat) : Dev :=
  if (d.sec 10).isEmpty || d.lau.sets.any (fun x => x.n == n) then d
  else d.setLau (fun l => { l with sets := l.sets ++ [d.newSet n] })

/-- Learned state when a plan takes effect (R754): `old` and `new` are the COINC sections. -/
def Dev.lauPlan (d : Dev) (old new rules : List Nat) : Dev :=
  let keep := coKeep new && !new.isEmpty && !old.isEmpty && u32 old 0 == u32 new 0 && coNch old == coNch new
  let kept (ch : Nat) : LauCh :=
    let k := nth {} d.lau.chans ch
    let t := (nth (k.x, k.s) (d.lau.traces.getD []) ch)
    { k with w := wRange new ch k.w, d := (dRange new ch k.d).toNat, x := t.1, s := t.2 }
  let fresh (ch : Nat) : LauCh := { w := chW0 new ch, d := chD0 new ch, cw := chW0 new ch, cd := chD0 new ch }
  let n := if new.isEmpty then 0 else coNch new
  let fz := keep && d.frozen
  let d := d.setLau (fun l => { l with
    chans := (List.range n).map (fun ch => if keep then kept ch else fresh ch), sets := [], pend := [], traces := none,
    rules := (List.range 64).map (fun i => if i < u8 rules 0 then bytesAt rules (16 + 16 * i) 16 else List.replicate 16 0) })
  let d := { d with ing := { d.ing with queues := d.ing.queues.map (fun (q : List Hit) => q.map (fun (h : Hit) => { h with set := none })) } }
  let d := if keep then d else (d.wr R.LAU_STATUS_AUTO 0).wr R.LAU_STATUS_CKPT_AGE 0
  (d.wr R.LAU_COMMIT 0).syncLau fz

/-- A LAU_CTL write waits for the next frame boundary (R752). -/
def Dev.lauCtl (d : Dev) (value : Nat) : Dev :=
  let fz := d.frozen
  (d.setLau (fun l => { l with freeze := some (bitAt value 0), rollback := l.rollback || bitAt value 1,
                               rebase := l.rebase || bitAt value 2, ckpt := l.ckpt || bitAt value 3 })).syncLau fz

/-- A BLOCK reach of LAU (R757): sets that are not complete lose their hits and are invalid; the rest acts at the next
frame boundary. -/
def Dev.lauBlock (d : Dev) : Dev :=
  let d := d.mapSets (fun x => if x.complete || x.abandoned then x else { x with invalid := true, hits := [] })
  (d.setLau (fun l => { l with pend := [], freeze := none, rollback := false, rebase := false, ckpt := false, blockDue := true })).syncLau false

end Sys2Proof.Machine
end

