-- ==== Sys2Proof/Machine/Quant.lean ====
section
/-!
DEFINITION. Number formats, the shift search, conversion, Spread, escapes and expansion (chapter 11), over lists of
values and bytes.
-/

namespace Sys2Proof.Machine

/-- A value rounded to binary32, and to binary16. -/
def r32 (x : FV) : FV := f32.decode (f32.encode x)
def r16 (x : FV) : FV := f16.decode (f16.encode x)

/-- binary32 sum and product of values, each rounded to nearest even. -/
def add32 (x y : FV) : FV := r32 (x.add y)
def mul32 (x y : FV) : FV := r32 (x.mul y)

/-- The magnitude of a value. -/
def FV.abs (x : FV) : FV := if x.isNeg then x.neg else x

/-- A tensor descriptor (QNT.1). -/
structure Desc where
  fmt : Nat
  tie : Bool
  zp : Nat
  outlier : Nat
  headroom : Nat
  b32 : Bool
  nearest : Bool
  vary : Bool
  salt : Nat
deriving DecidableEq, Repr

/-- COUNT of a QUANT section, and its descriptor `i`. -/
def descCount (q : List Nat) : Nat := u32 q 0
def descBytes (q : List Nat) (i : Nat) : List Nat := bytesAt q (16 + 16 * i) 16
def descAt (q : List Nat) (i : Nat) : Desc :=
  let e := descBytes q i
  { fmt := u8 e 0 % 4, tie := bitAt (u8 e 0) 2, zp := u8 e 1, outlier := u8 e 2, headroom := u8 e 3 % 4,
    b32 := u8 e 4 == 1, nearest := u8 e 5 == 1, vary := bitAt (u8 e 6) 0, salt := u16 e 8 }

/-- Code width of a format, and whether it has a zero point: 0 N4, 1 N4 with zero point, 2 N8, 3 N8 with zero point. -/
def fmtN8 (fmt : Nat) : Bool := decide (2 ≤ fmt)
def fmtZp (fmt : Nat) : Bool := decide (fmt % 2 = 1)

/-- Q+ and Q- of a format (QNT.1). -/
def qPos (fmt zp : Nat) : Nat := if fmtZp fmt then (if fmtN8 fmt then 255 else 15) - zp else if fmtN8 fmt then 127 else 7
def qNeg (fmt zp : Nat) : Nat := if fmtZp fmt then zp else if fmtN8 fmt then 127 else 7

/-- The escape code of a symmetric format. -/
def escCode (fmt : Nat) : Nat := if fmtN8 fmt then 0x80 else 8

/-- Element `i` of a code list (R419). -/
def codeAt (fmt : Nat) (b : List Nat) (i : Nat) : Nat :=
  if fmtN8 fmt then nth 0 b i % 256 else bits (nth 0 b (i / 2)) (4 * (i % 2)) 4

/-- The signed difference of a code (R415, R416, R517); an escape code gives 0. -/
def codeD (fmt zp c : Nat) : Int :=
  if fmtZp fmt then (c : Int) - zp
  else if c = escCode fmt then 0
  else toInt (if fmtN8 fmt then 8 else 4) c

/-- Bytes of the codes of `e` elements. -/
def codeBytes (fmt e : Nat) : Nat := if fmtN8 fmt then e else e / 2

/-- Bytes of the side list (QNT.4). -/
def sideBytes (ds : Desc) (e : Nat) : Nat := if ds.outlier ≠ 2 then 0 else if fmtN8 ds.fmt then e / 8 else e / 16

/-- Bytes of a quantised token. -/
def quantBytes (ds : Desc) (e : Nat) : Nat := codeBytes ds.fmt e + 32 + e / 32 + sideBytes ds e

/-- The elements of a binary16 or binary32 tensor. -/
def tensor (b32 : Bool) (bs : List Nat) (e : Nat) : List FV :=
  (List.range e).map (fun i => if b32 then f32.decode (u32 bs (4 * i)) else f16.decode (u16 bs (2 * i)))

/-- One butterfly stage of R522. -/
def butterfly (y : List FV) (s : Nat) : List FV :=
  (List.range 64).map (fun i =>
    let a := nth .nan y i
    if bitAt i s then add32 (nth .nan y (i - 2 ^ s)) a.neg else add32 a (nth .nan y (i + 2 ^ s)))

/-- The rotation of one group (R522, R523). -/
def spreadGroup (x : List FV) : List FV :=
  if x.any FV.nonFinite then x.map (fun _ => .nan)
  else ((List.range 6).foldl butterfly x).map (fun v => mul32 v (.fin false 1 (-3)))

/-- Cut a list into pieces of `n`, at most `k` of them. -/
def pieces {α : Type} (n : Nat) (l : List α) : Nat → List (List α)
  | 0 => []
  | k + 1 => l.take n :: pieces n (l.drop n) k

/-- The values searched and converted: the elements, rotated with SPREAD (QNT.3). -/
def quantVals (ds : Desc) (v : List FV) : List FV :=
  if ds.outlier = 1 then ((pieces 64 v (v.length / 64)).map spreadGroup).flatten else v

/-- Indices of the `k` largest magnitudes among finite values, ties toward the lower index (R510). -/
def topIdx (v : List FV) (k : Nat) : List Nat :=
  match k with
  | 0 => []
  | k + 1 =>
    let t := topIdx v k
    match (List.range v.length).foldl (fun (b : Option Nat) i =>
      let x := nth .nan v i
      if x.nonFinite || t.contains i then b
      else match b with
        | none => some i
        | some j => if (nth .nan v j).abs.lt x.abs then some i else b) none with
    | some i => t ++ [i]
    | none => t

/-- The values a block's search keeps: finite, less the escape reserve (R510). -/
def keepBlocks (ds : Desc) (v : List FV) : List (List FV) :=
  let n := if ds.outlier = 2 then (if fmtN8 ds.fmt then 4 else 1) else 0
  let w := if fmtN8 ds.fmt then 64 else 32
  let kept := ((pieces w v (v.length / w)).map (fun g =>
    let t := topIdx g n
    (List.range g.length).map (fun i => let x := nth .nan g i
                                        if x.nonFinite || t.contains i then .nan else x))).flatten
  (pieces 32 kept (kept.length / 32)).map (fun b => b.filter (fun x => !x.nonFinite))

/-- Whether a shift holds every kept value of a block (R511). -/
def shiftHolds (ds : Desc) (b : List FV) (e : Int) : Bool :=
  let p := qPos ds.fmt ds.zp
  let n := qNeg ds.fmt ds.zp
  b.all (fun x => if x.isNeg then n == 0 || !((FV.ofInt n e).lt x.abs) else p == 0 || !((FV.ofInt p e).lt x))

/-- The 33 shifts, rising (R501). -/
def shifts : List Int := (List.range 33).map (fun (k : Nat) => Int.ofNat k - 24)

/-- Base shift of a block and whether it is saturated (R511). -/
def baseShift (ds : Desc) (b : List FV) : Int × Bool :=
  match shifts.find? (shiftHolds ds b) with
  | some e => (e, false)
  | none => (8, true)

/-- The shifts of every block (R511-R513), and the number of saturated blocks. -/
def scaleSearch (ds : Desc) (v : List FV) : List Int × Nat :=
  let e0 := (keepBlocks ds (quantVals ds v)).map (baseShift ds)
  let e1 := if ds.tie then
      (List.range e0.length).map (fun i => max (nth (0, false) e0 (2 * (i / 2))).1 (nth (0, false) e0 (2 * (i / 2) + 1)).1)
    else e0.map (·.1)
  (e1.map (fun e => max (e - ds.headroom) (-24)), (e0.filter (·.2)).length)

/-- Generator key of R518. -/
def quantKey (seed salt item t : Nat) : Nat := mix (mix (bits seed 0 32 ^^^ salt) item ^^^ bits seed 32 32) t

/-- What conversion makes of one element. -/
structure Conv where
  code : Nat
  clipped : Bool := false
  esc : Option Nat := none
  ovf : Bool := false
  nan : Bool := false
  inf : Bool := false
deriving DecidableEq, Repr

/-- The code of a difference (R517). -/
def codeOf (fmt zp : Nat) (d : Int) : Nat := if fmtZp fmt then (d + zp).toNat else ofInt (if fmtN8 fmt then 8 else 4) d

/-- Convert one element with shift `e` and generator word `g`; `free` tells that an escape slot is free (R514-R517,
R525, R526). -/
def convert (ds : Desc) (x : FV) (e : Int) (g : Nat) (free : Bool) : Conv :=
  let p : Int := qPos ds.fmt ds.zp
  let n : Int := qNeg ds.fmt ds.zp
  let code := codeOf ds.fmt ds.zp
  match x with
  | .nan => { code := code 0, nan := true }
  | .inf s => { code := code (if s then -n else p), clipped := true, inf := true }
  | .fin _ _ _ =>
    let q := (x.floorMul (32 - e) + g) / 2 ^ 32
    if -n ≤ q ∧ q ≤ p then { code := code q }
    else
      let cand := ds.outlier == 2 && !(r16 x).nonFinite
      if cand && free then { code := escCode ds.fmt, esc := some (f16.encode x) }
      else { code := code (if q < 0 then -n else p), clipped := true, ovf := cand }

/-- Elements that share a side-list pool, and its slots (R526). -/
def poolSize (fmt : Nat) : Nat := if fmtN8 fmt then 64 else 32
def poolSlots (fmt : Nat) : Nat := if fmtN8 fmt then 4 else 1

/-- Convert the elements of one pool in index order; `used` slots are taken. -/
def convertPool (ds : Desc) (g : Nat → Nat) (e : Nat → Int) (i used : Nat) (v : List FV) : List Conv :=
  match v with
  | [] => []
  | x :: r =>
    let c := convert ds x (e i) (g i) (decide (used < poolSlots ds.fmt))
    c :: convertPool ds g e (i + 1) (if c.esc.isSome then used + 1 else used) r

/-- Pack codes (R419). -/
def packCodes (fmt : Nat) (l : List Nat) : List Nat :=
  if fmtN8 fmt then l else (List.range (l.length / 2)).map (fun i => nth 0 l (2 * i) + 16 * nth 0 l (2 * i + 1))

/-- Sum of a count over a list. -/
def countIf {α : Type} (p : α → Bool) (l : List α) : Nat := (l.filter p).length

/-- What a QUANT item writes and counts. -/
structure Quantised where
  bytes : List Nat
  clipped : Nat
  escaped : Nat
  nonFinite : Bool
  sat : Nat
deriving DecidableEq, Repr

/-- Every element's conversion, in index order. -/
def convertAll (ds : Desc) (key : Nat) (sh : List Int) (v : List FV) : List Conv :=
  let g (i : Nat) : Nat := if ds.nearest then 0x80000000 else mix key i
  let e (i : Nat) : Int := nth 0 sh (i / 32)
  let n := poolSize ds.fmt
  ((pieces n v (v.length / n)).zipIdx.map (fun p => convertPool ds g e (n * p.2) 0 p.1)).flatten

/-- The token of a QUANT item: codes, statistics, clip map and side list (QNT.4). -/
def quantise (ds : Desc) (key : Nat) (sh : List Int) (sat : Nat) (v : List FV) : Quantised :=
  let cs := convertAll ds key sh v
  let clipped := countIf (·.clipped) cs
  let escaped := countIf (·.esc.isSome) cs
  let nans := countIf (·.nan) cs
  let infs := countIf (·.inf) cs
  let stats := leBytes 4 v.length ++ leBytes 4 clipped ++ leBytes 4 escaped ++ leBytes 4 (countIf (·.ovf) cs) ++
    leBytes 4 nans ++ leBytes 4 infs ++ [ofInt 8 (sh.foldl min (nth 0 sh 0)), ofInt 8 (sh.foldl max (nth 0 sh 0))] ++
    leBytes 2 (min sat 65535) ++ leBytes 4 0
  let map := (pieces 32 cs (cs.length / 32)).map (countIf (·.clipped))
  let n := poolSize ds.fmt
  let side := if ds.outlier ≠ 2 then [] else
    ((pieces n cs (cs.length / n)).map (fun l =>
      let s := l.filterMap (·.esc)
      ((List.range (poolSlots ds.fmt)).map (fun k => leBytes 2 (nth 0 s k))).flatten)).flatten
  { bytes := packCodes ds.fmt (cs.map (·.code)) ++ stats ++ map ++ side, clipped := clipped, escaped := escaped,
    nonFinite := nans ≠ 0 || infs ≠ 0, sat := sat }

/-- Slot `k` of the side list of a token that holds pool `j`. -/
def sideSlot (ds : Desc) (b : List Nat) (e j k : Nat) : Nat :=
  u16 b (codeBytes ds.fmt e + 32 + e / 32 + 2 * (poolSlots ds.fmt * j + k))

/-- Escape codes of a pool before element `i`. -/
def escRank (ds : Desc) (b : List Nat) (i : Nat) : Nat :=
  countIf (fun k => codeAt ds.fmt b (i - i % poolSize ds.fmt + k) == escCode ds.fmt) (List.range (i % poolSize ds.fmt))

/-- Element `i` of a quantised token is an escape code. -/
def isEsc (ds : Desc) (b : List Nat) (i : Nat) : Bool := !fmtZp ds.fmt && codeAt ds.fmt b i == escCode ds.fmt

/-- The slot value of an escape code; none where it has no slot (R530). -/
def escValue (ds : Desc) (b : List Nat) (e i : Nat) : Option FV :=
  let k := escRank ds b i
  if ds.outlier = 2 ∧ k < poolSlots ds.fmt then some (f16.decode (sideSlot ds b e (i / poolSize ds.fmt) k)) else none

/-- The value of element `i` before the DMU multiplier, and whether it is an orphan (R529, R530). -/
def expandAt (ds : Desc) (b : List Nat) (sh : List Int) (e i : Nat) : FV × Bool :=
  if isEsc ds b i then
    match escValue ds b e i with
    | some v => (v, false)
    | none => (.fin false 0 0, true)
  else
    let d := codeD ds.fmt ds.zp (codeAt ds.fmt b i)
    (if d = 0 then .fin false 0 0 else FV.ofInt d (nth 0 sh (i / 32)), false)

/-- The values of a quantised tensor, and the number of orphans. -/
def expand (ds : Desc) (b : List Nat) (sh : List Int) (e : Nat) : List FV × Nat :=
  let l := (List.range e).map (expandAt ds b sh e)
  (l.map (·.1), countIf (·.2) l)

end Sys2Proof.Machine
end

