-- ==== Sys2Proof/Machine/Items.lean ====
section
/-!
DEFINITION. Work items (PLN.4, ORC.5, QNT.3-QNT.6, MEM.1, MEM.3-MEM.6): tokens and their buffer slots, FETCH, STORE,
TILE, DMU, VU, SCAN and QUANT. The same operations run the resident timeline and the runs of client sections.
-/

namespace Sys2Proof.Machine

/-- What items run against: the resident timeline of a frame, or one run of a client section. -/
structure Ctx where
  /-- None for the resident service. -/
  client : Option Nat
  /-- Base of its buffers in the staging buffer area (R543). -/
  base : Nat
  /-- Buffers and token map in the layout of a BUFFERS section. -/
  bufs : List Nat
  /-- Items with their indices (R518, R666). -/
  items : List (Nat × Item)
  /-- t of R519, before FRAME_VARY. -/
  t : Nat
  /-- Added to the ADDR of every tier FETCH (R936). -/
  shift : Nat := 0
deriving DecidableEq, Repr

/-- Tokens of a frame or a run, and the device they live in. -/
structure Run where
  d : Dev
  tok : Sparse TokenState := []
  slot : Sparse Nat := []
  scale : Sparse (List Nat) := []
  /-- Data of the host FETCHes to come, oldest first. -/
  host : List (List Nat) := []
  late : Bool := false
  ecc : Bool := false
  /-- An access left the client's window (R563), with the host address for a host access. -/
  viol : Bool := false
deriving DecidableEq, Repr

/-- Operand fields of a work item. -/
def Item.o8 (it : Item) (k : Nat) : Nat := u8 it.ops k
def Item.o16 (it : Item) (k : Nat) : Nat := u16 it.ops k
def Item.o32 (it : Item) (k : Nat) : Nat := u32 it.ops k

/-- FETCH and STORE: ADDR, LEN, SPACE, SEQ, APPEND, WIN (MEM.3). -/
def Item.mAddr (it : Item) : Nat := u64 it.ops 0
def Item.mLen (it : Item) : Nat := u32 it.ops 8
def Item.mSpace (it : Item) : Nat := bits (it.o8 12) 0 2
def Item.mSeq (it : Item) : Bool := bitAt (it.o8 12) 2
def Item.mAppend (it : Item) : Bool := bitAt (it.o8 12) 3
def Item.mWin (it : Item) : Nat := it.o8 13

/-- TILE: NV, format, mode, ZP, S, ROW_FIRST, ROW_COUNT, WSEC (ORC.5). -/
def Item.tNv (it : Item) : Nat := it.o16 0
def Item.tFmt (it : Item) : Nat := bits (it.o8 2) 0 2
def Item.tMode (it : Item) : Nat := bits (it.o8 2) 2 2
def Item.tZp (it : Item) : Nat := it.o8 3
def Item.tS (it : Item) : Nat := bits (it.o8 4) 0 5
def Item.tRow (it : Item) : Nat := it.o8 5
def Item.tRows (it : Item) : Nat := it.o16 6
def Item.tSec (it : Item) : Nat := it.o16 8

/-- DMU: M, N, K, formats, TRANS_B (MEM.5). -/
def Item.dM (it : Item) : Nat := it.o16 0
def Item.dN (it : Item) : Nat := it.o16 2
def Item.dK (it : Item) : Nat := it.o32 4
def Item.dQa (it : Item) : Bool := it.o8 8 == 1
def Item.dQb (it : Item) : Bool := it.o8 9 == 1
def Item.dOut32 (it : Item) : Bool := it.o8 10 == 1
def Item.dTrans (it : Item) : Bool := bitAt (it.o8 11) 0

/-- VU: VOP, OUT16, IN16, AUX, E, ROWS, SHIFT, W_EXP, DESC, ACT (MEM.6). -/
def Item.vOp (it : Item) : Nat := it.o8 0
def Item.vOut16 (it : Item) : Bool := bitAt (it.o8 1) 0
def Item.vIn16 (it : Item) : Bool := bitAt (it.o8 1) 1
def Item.vAux (it : Item) : Nat := it.o16 2
def Item.vE (it : Item) : Nat := it.o32 4
def Item.vRows (it : Item) : Nat := it.o16 8
def Item.vShift (it : Item) : Nat := it.o8 10
def Item.vExp (it : Item) : Int := i8 it.ops 11
def Item.vDesc (it : Item) : Nat := it.o16 12
def Item.vAct (it : Item) : Nat := it.o8 14

/-- SCAN and QUANT: E and DESC (QNT.3). -/
def Item.qE (it : Item) : Nat := it.o32 0
def Item.qDesc (it : Item) : Nat := it.o16 4

/-- Tokens an item reads; AUX of a VU item is one of them (R583). -/
def Item.ins (it : Item) : List Nat :=
  (it.inA :: it.inB :: (if it.op = 5 then [it.vAux] else [])).filter (fun t => t ≠ noTok)

/-- Bytes of an item's OUT token; `q` is the QUANT section. -/
def Item.outSize (q : List Nat) (it : Item) : Nat :=
  match it.op with
  | 1 => it.mLen
  | 3 => it.tNv * it.tRows
  | 4 => it.dM * it.dN * (if it.dOut32 then 4 else 2)
  | 5 => it.vE * (if it.vOut16 then 2 else 4)
  | 6 => quantBytes (descAt q it.qDesc) it.qE
  | 7 => it.qE / 32
  | 8 => 64
  | _ => 0

/-- Descriptors in force (R499). -/
def Dev.quantSec (d : Dev) : List Nat := d.sec 17

/-- PLAN_SEED of the active Maquette. -/
def Dev.planSeed (d : Dev) : Nat := u64 d.sq.active 24

/-- The producer of a token, and its readers. -/
def Ctx.prod (c : Ctx) (t : Nat) : Option (Nat × Item) := c.items.find? (fun e => e.2.out == t)
def Ctx.readers (c : Ctx) (t : Nat) : List Item := (c.items.filter (fun e => e.2.ins.contains t)).map (·.2)

/-- Last beat in which a token occupies its slot (R539). -/
def Ctx.lastUse (c : Ctx) (t : Nat) : Nat :=
  match c.readers t with
  | [] => match c.prod t with
    | some (_, p) => p.start + p.dur - 1
    | none => 0
  | l => (l.map (fun it => it.start + it.dur - 1)).foldl max 0

/-- Staging offset of a token's slot. -/
def Ctx.addr (c : Ctx) (r : Run) (t : Nat) : Nat :=
  let b := tokBuf c.bufs t
  c.base + bufBase c.bufs b + (sget 1 r.slot t - 1) * bufSlot c.bufs b

/-- Size of a token as its producer declares it. -/
def Ctx.size (c : Ctx) (r : Run) (t : Nat) : Nat :=
  match c.prod t with
  | some (_, p) => p.outSize r.d.quantSec
  | none => 0

/-- The first `n` bytes of a token; bytes past its end are zero. -/
def Ctx.bytes (c : Ctx) (r : Run) (t n : Nat) : List Nat :=
  let k := min n (c.size r t)
  r.d.memBytes 0 (c.addr r t) k ++ List.replicate (n - k) 0

/-- Give a token the lowest-numbered free slot of its buffer at beat `now` (R540); none when every slot is taken. -/
def Ctx.take (c : Ctx) (r : Run) (t now : Nat) : Option Run :=
  let b := tokBuf c.bufs t
  let busy (s : Nat) : Bool := r.slot.any (fun e => e.2 == s + 1 && tokBuf c.bufs e.1 == b && decide (now ≤ c.lastUse e.1))
  ((List.range (bufSlots c.bufs b)).find? (fun s => !busy s)).map (fun s => { r with slot := sins r.slot t (s + 1) })

/-- Mark a token valid or invalid. -/
def Run.setTok (r : Run) (t : Nat) (ok : Bool) : Run :=
  { r with tok := sins r.tok t (if ok then .valid else .invalid) }

/-- Write a token's bytes and its validity. -/
def Ctx.put (c : Ctx) (r : Run) (t : Nat) (bs : List Nat) (ok : Bool) : Run :=
  if t = noTok then r else { r with d := r.d.store 0 (c.addr r t) bs false }.setTok t ok

/-- A range of the staging area lies wholly in the feature span (R735). -/
def featSpan (co : List Nat) (it : Item) : Bool :=
  !co.isEmpty && it.mSpace == 0 && within it.mAddr it.mLen (coBase co) (coZ co)

/-- Copy a feature FETCH's bytes from the half that holds the set of the frame before (R735). -/
def Ctx.featCopy (c : Ctx) (r : Run) (it : Item) : Run :=
  let co := r.d.sec 10
  let o := it.mAddr + ((r.d.frameIdx + 1) % 2) * coZ co
  { r with d := r.d.store 0 (c.addr r it.out) (r.d.memBytes 0 o it.mLen) false }

/-- An item starts reading a token (R370, R736): whether it is valid. A FETCH's token whose last byte has not arrived is
late and stays invalid. -/
def Ctx.use (c : Ctx) (r : Run) (t : Nat) : Run × Bool :=
  match sfind r.tok t with
  | some .valid =>
    match c.prod t with
    | some (_, p) =>
      if p.op = 1 ∧ c.client.isNone ∧ featSpan (r.d.sec 10) p then
        let (d, ok, _) := r.d.readSet r.d.frameIdx
        let r := { r with d := d }
        if ok then (c.featCopy r p, true) else (r.setTok t false, false)
      else (r, true)
    | none => (r, true)
  | some _ => (r, false)
  | none =>
    match c.prod t with
    | some (_, p) => ({ r with late := r.late || p.op == 1 }.setTok t false, false)
    | none => (r, false)

/-- An item starts reading all its inputs. -/
def Ctx.useAll (c : Ctx) (r : Run) (it : Item) : Run × Bool :=
  it.ins.foldl (fun a t => let (r, ok) := c.use a.1 t; (r, a.2 && ok)) (r, true)

/-- Memory ranges of a FETCH or STORE in its space, with the number of leading zero bytes of a SEQ FETCH that reaches
back before the first element (R571-R573, R562). -/
def Dev.ranges (d : Dev) (c : Ctx) (it : Item) (h : Nat) : Nat × List (Nat × Nat) :=
  if it.mSeq || it.mAppend then
    let w := seqRec (d.sec 18) it.mWin
    let es := u16 w 12
    let n := it.mLen / es
    let first : Int := if it.mSeq then (h : Int) - it.mAddr else h
    let z := if first < 0 then min n first.natAbs else 0
    let j := (first + z).toNat
    let size := u32 w 8 * es
    let o := (j % u32 w 8) * es
    let len := (n - z) * es
    if o + len ≤ size then (z * es, [(u64 w 0 + o, len)])
    else (z * es, [(u64 w 0 + o, size - o), (u64 w 0, len - (size - o))])
  else
    let base := match c.client with
      | none => 0
      | some k => if it.mSpace = 1 then d.rdi R.ENT_T1_BASE k else if it.mSpace = 2 then d.rdi R.ENT_T2_BASE k
                  else if it.mSpace = 0 then c.base else 0
    let s := if it.op = 1 ∧ (it.mSpace = 1 ∨ it.mSpace = 2) then c.shift else 0
    (0, [(base + it.mAddr + s, it.mLen)])

/-- A client item's range stays in its client's window or area (R563, R609). -/
def Dev.inWindow (d : Dev) (c : Ctx) (it : Item) : Bool :=
  match c.client with
  | none => true
  | some k =>
    let s := if it.op = 1 ∧ (it.mSpace = 1 ∨ it.mSpace = 2) then c.shift else 0
    match it.mSpace with
    | 0 => match clientArea (d.sec 18) k with
      | some (_, n) => decide (it.mAddr + it.mLen ≤ n)
      | none => decide (k = 0)
    | 1 => decide (it.mAddr + s + it.mLen ≤ d.rdi R.ENT_T1_SIZE k)
    | 2 => decide (it.mAddr + s + it.mLen ≤ d.rdi R.ENT_T2_SIZE k)
    | _ => d.reqOk k it.mAddr it.mLen

/-- Data of memory ranges: bytes, whether a failed stack or channel is reached, and whether a granule is poisoned. -/
def Dev.readRanges (d : Dev) (space : Nat) (l : List (Nat × Nat)) : List Nat × Bool × Bool :=
  ((l.map (fun r => d.memBytes space r.1 r.2)).flatten,
   l.any (fun r => d.reachesFailed space r.1 r.2), l.any (fun r => d.poisoned space r.1 r.2))

/-- Deliver a FETCH's data (R370, R537, R553-R558, R567); `h` is the window's head at its START. -/
def Ctx.deliver (c : Ctx) (r : Run) (it : Item) (h : Nat) (ecc : EccResult) : Run :=
  let d := r.d
  let (z, l) := d.ranges c it h
  let (bs, failed, poison) := d.readRanges it.mSpace l
  let base := match l with
    | p :: _ => p.1
    | [] => 0
  let d := d.eccNote (c.client.getD noClient) it.mSpace base ecc
  let d := if poison then d.inc R.MEM_CNT_POISON_RD else d
  let bad := eccBad ecc || failed
  let r := c.put { r with d := d } it.out (List.replicate z 0 ++ bs) (!bad && !poison)
  { r with ecc := r.ecc || bad }

/-- A client FETCH from host memory takes the next data; data that are not all there by its reader's START make it late. -/
def Ctx.deliverHost (c : Ctx) (r : Run) (k : Nat) (it : Item) : Run :=
  let bs := nth [] r.host 0
  let r := { r with host := r.host.drop 1, d := r.d.emit (.hostRead k it.mAddr it.mLen) }
  if bs.length = it.mLen then c.put r it.out bs true else { r with late := true }.setTok it.out false

/-- A FETCH leaves its client's window: nothing is transferred (R563). -/
def Ctx.violate (c : Ctx) (r : Run) (it : Item) : Run :=
  let d := if it.mSpace = 3 then r.d.hostDeny (c.client.getD 0) it.mAddr else r.d.inc R.MEM_CNT_WIN_VIOL
  let r := { r with d := d, viol := true }
  if it.op = 1 then r.setTok it.out false else r

/-- Head of the sequence window an item names. -/
def Dev.seqHead (d : Dev) (it : Item) : Nat := d.rdi R.MEM_SEQ_H it.mWin

/-- A STORE writes its token's bytes (R565, R567, R572). -/
def Ctx.store (c : Ctx) (r : Run) (it : Item) : Run :=
  let (r, ok) := c.useAll r it
  if !r.d.inWindow c it then c.violate r it
  else
    let bs := c.bytes r it.inA it.mLen
    if it.mSpace = 3 then { r with d := r.d.emit (.hostWrite (c.client.getD 0) it.mAddr bs) }
    else
      let (_, l) := r.d.ranges c it (r.d.seqHead it)
      let (d, _) := l.foldl (fun (a : Dev × List Nat) p => (a.1.store it.mSpace p.1 (a.2.take p.2) (!ok), a.2.drop p.2)) (r.d, bs)
      let d := if it.mAppend then d.wri R.MEM_SEQ_H it.mWin (d.seqHead it + it.mLen / u16 (seqRec (d.sec 18) it.mWin) 12)
               else d
      { r with d := d }

/-- Weight code of logical row `l`, channel `ch`, of a WEIGHTS section's content (ORC.3, R426). -/
def weightAt (w : List Nat) (l ch : Nat) : Int :=
  let f := u16 w 2
  if f ≤ l ∧ l < f + u16 w 0 then i8 w (16 + 64 * (l - f) + ch) else 0

/-- The ideal dot product of a vector and a row (ORC.4). -/
def dotProduct (w : List Nat) (l : Nat) (ds : List Int) : Int :=
  (ds.zipIdx.map (fun p => weightAt w l p.2 * p.1)).foldl (· + ·) 0

/-- The integer nearest to `i / 2 ^ s`, an exact half away from zero (R431). -/
def nearestShift (i : Int) (s : Nat) : Int :=
  let m := (2 * i.natAbs + 2 ^ s) / 2 ^ (s + 1)
  if i < 0 then -(m : Int) else m

/-- What a row converter delivers, and whether it clips (R431, R433): the ideal code and its free deviation. A dot
product beyond the range is delivered with its own sign. -/
def convertRow (i : Int) (s : Nat) (noise : Int) : Int × Bool :=
  let o := nearestShift i s
  if o < -64 then (-64, true) else if 63 < o then (63, true)
  else (clampInt (-64) 63 (o + noise), decide (o + noise < -64 ∨ 63 < o + noise))

/-- The output codes of a TILE item, by vector and row; with no section loaded the weights are undefined (R443). -/
def tileCodes (w : List Nat) (noise : Nat → Nat → Int) (it : Item) (inp : List Nat) : List (Int × Bool) :=
  let vs := if fmtN8 it.tFmt then 64 else 32
  ((List.range it.tNv).map (fun v =>
    let b := bytesAt inp (v * vs) vs
    let ds := (List.range 64).map (fun ch => codeD it.tFmt it.tZp (codeAt it.tFmt b ch))
    (List.range it.tRows).map (fun k =>
      if w.isEmpty then convertRow 0 0 (noise v k)
      else convertRow (dotProduct w (it.tRow + k) ds) it.tS (noise v k)))).flatten

/-- A TILE item (ORC.5). -/
def Ctx.tile (c : Ctx) (r : Run) (it : Item) : Run :=
  let (r, ok) := c.useAll r it
  let t := nth it.unit r.d.sq.tileMap it.unit
  let inp := c.bytes r it.inA (it.tNv * (if fmtN8 it.tFmt then 64 else 32))
  let os := tileCodes (nth [] r.d.opt.act t) (Config.tileNoise r.d.free) it inp
  let d := { r.d with free := r.d.free + 1 }
  let bad := !ok || d.tileSpoiled t it.tRow it.tRows || d.opt.spoiled.contains t
  let d := d.addi R.OPT_TILE_CLIP t (countIf (·.2) os)
  let d := if bad then d.inci R.OPT_TILE_INVALID t else d
  let d := (d.inci R.OPT_TILE_ITEMS t).addi R.OPT_VEC 0 it.tNv
  c.put { r with d := d } it.out (os.map (fun o => ofInt 8 o.1)) (!bad)

/-- Shifts of a quantised token; free values where nothing gives them (R529). -/
def Ctx.shiftsOf (c : Ctx) (r : Run) (t n : Nat) : Run × List Int :=
  match sfind r.scale t with
  | some l => (r, l.map (fun b => toInt 8 b))
  | none =>
    let _ := c
    ({ r with d := { r.d with free := r.d.free + n } },
     (List.range n).map (fun b => Int.ofNat (Config.freeNat (r.d.free + b) % 33) - 24))

/-- A DMU operand: its binary16 values, quantised or not (R529, R530). -/
def Ctx.dmuIn (c : Ctx) (r : Run) (t n : Nat) (q : Bool) (desc : Nat) : Run × List FV :=
  if q then
    let ds := descAt r.d.quantSec desc
    let (r, sh) := c.shiftsOf r t (n / 32)
    let (v, orph) := expand ds (c.bytes r t (quantBytes ds n)) sh n
    ({ r with d := r.d.addi R.QNT_CNT_ORPHAN 0 orph }, v)
  else (r, tensor false (c.bytes r t (2 * n)) n)

/-- Exact sum of values (R580, R581). -/
def sumExact (l : List FV) : FV :=
  match l with
  | [] => .fin false 0 0
  | x :: r => r.foldl FV.add x

/-- One DMU output: chunks of 64 products summed exactly, each chunk rounded to binary32, added in order (R580). -/
def dmuDot (l : List FV) : FV :=
  match (pieces 64 l (cdiv l.length 64)).map (fun k => r32 (sumExact k)) with
  | [] => .fin false 0 0
  | x :: r => r.foldl add32 x

/-- The outputs of a DMU item (MEM.5). -/
def dmuOut (it : Item) (a b : List FV) : List FV :=
  ((List.range it.dM).map (fun m => (List.range it.dN).map (fun n =>
    dmuDot ((List.range it.dK).map (fun k =>
      (nth .nan a (m * it.dK + k)).mul (nth .nan b (if it.dTrans then n * it.dK + k else k * it.dN + n))))))).flatten

/-- Patterns of values in binary32 or binary16. -/
def pats (b32 : Bool) (l : List FV) : List Nat :=
  (l.map (fun v => if b32 then leBytes 4 (f32.encode v) else leBytes 2 (f16.encode v))).flatten

/-- A DMU item (R578-R582). -/
def Ctx.dmu (c : Ctx) (r : Run) (it : Item) : Run :=
  let (r, ok) := c.useAll r it
  let (r, a) := c.dmuIn r it.inA (it.dM * it.dK) it.dQa (it.o16 12)
  let (r, b) := c.dmuIn r it.inB (it.dK * it.dN) it.dQb (it.o16 14)
  let out := dmuOut it a b
  let d := r.d.inc R.DMU_ITEMS
  let d := if out.any FV.isNan then d.inc R.DMU_NAN else d
  c.put { r with d := d } it.out (pats it.dOut32 out) ok

/-- `i * 2 ^ k / 127` rounded once to binary32 (R585, R586). -/
def over127 (i : Int) (k : Int) : FV := if i = 0 then .fin false 0 0 else f32.decode (f32.divMag (decide (i < 0)) i.natAbs k 127 0)

/-- TILE_ACC of one element (R585). -/
def tileAcc (it : Item) (o e : Int) (b : FV) : FV := add32 (over127 o (it.vShift + e + it.vExp)) b

/-- ESC_FIX of one element: `v` the vector, `row` the row (R586). -/
def escFix (it : Item) (ds : Desc) (tok : List Nat) (n : Nat) (aux : List Nat) (v row : Nat) (b : FV) : FV :=
  (List.range 64).foldl (fun acc ch =>
    let i := 64 * v + ch
    if isEsc ds tok i then
      match escValue ds tok n i with
      | some (.fin s m e) =>
        let w := i8 aux (row * 64 + ch)
        add32 acc (over127 ((if s then -1 else 1) * m * w) (e + it.vExp))
      | some x => add32 acc x
      | none => acc
    else acc) b

/-- Value of a tensor element. -/
def elemAt (b32 : Bool) (bs : List Nat) (i : Nat) : FV := if b32 then f32.decode (u32 bs (4 * i)) else f16.decode (u16 bs (2 * i))

/-- ACT of one element (MEM.6): RELU keeps a NaN. -/
def actOf (it : Item) (x : FV) : FV :=
  if it.vAct = 0 then (if x.isNan || (FV.fin false 0 0).lt x then x else .fin false 0 0)
  else
    let lim := FV.fin false 1 it.vExp
    if x.isNan then x else if lim.lt x then lim else if x.lt lim.neg then lim.neg else x

/-- The outputs of a VU item (MEM.6). -/
def Ctx.vuOut (c : Ctx) (r : Run) (it : Item) : List FV :=
  let e := it.vE
  let w := if it.vIn16 then 2 else 4
  match it.vOp with
  | 1 => tensor (!it.vIn16) (c.bytes r it.inA (w * e)) e
  | 2 =>
    let a := c.bytes r it.inA (w * e)
    let b := c.bytes r it.inB (w * e)
    (List.range e).map (fun i => add32 (elemAt (!it.vIn16) a i) (elemAt (!it.vIn16) b i))
  | 3 =>
    let a := c.bytes r it.inA e
    let sc := c.bytes r it.vAux (2 * (e / it.vRows))
    let b := if it.inB = noTok then [] else c.bytes r it.inB (4 * e)
    (List.range e).map (fun i => tileAcc it (i8 a i) (i8 sc (2 * (i / it.vRows)))
      (if it.inB = noTok then .fin false 0 0 else elemAt true b i))
  | 4 =>
    let ds := descAt r.d.quantSec it.vDesc
    let n := 64 * (e / it.vRows)
    let q := c.bytes r it.inA (quantBytes ds n)
    let aux := c.bytes r it.vAux (64 * it.vRows)
    let b := c.bytes r it.inB (4 * e)
    (List.range e).map (fun i => escFix it ds q n aux (i / it.vRows) (i % it.vRows) (elemAt true b i))
  | _ => (tensor (!it.vIn16) (c.bytes r it.inA (w * e)) e).map (actOf it)

/-- A VU item (R583-R588). -/
def Ctx.vu (c : Ctx) (r : Run) (it : Item) : Run :=
  let (r, ok) := c.useAll r it
  let out := c.vuOut r it
  let d := r.d.inci R.VU_ITEMS it.unit
  let d := if out.any FV.isNan then d.inc R.VU_NAN else d
  c.put { r with d := d } it.out (pats (!it.vOut16) out) ok

/-- Free bytes: the contents of a token whose item had an invalid input (R533). -/
def Run.freeBytes (r : Run) (n : Nat) : Run × List Nat :=
  ({ r with d := { r.d with free := r.d.free + n } }, (List.range n).map (fun i => Config.freeNat (r.d.free + i) % 256))

/-- A SCAN item (R510-R513, R533). -/
def Ctx.scan (c : Ctx) (r : Run) (it : Item) : Run :=
  let (r, ok) := c.useAll r it
  if ok then
    let ds := descAt r.d.quantSec it.qDesc
    let v := tensor ds.b32 (c.bytes r it.inA ((if ds.b32 then 4 else 2) * it.qE)) it.qE
    c.put r it.out ((scaleSearch ds v).1.map (ofInt 8)) true
  else
    let (r, bs) := r.freeBytes (it.qE / 32)
    c.put { r with d := r.d.inc R.QNT_CNT_INVALID_IN } it.out bs false

/-- A QUANT item (R514-R526, R533); `i` is its index. -/
def Ctx.quant (c : Ctx) (r : Run) (i : Nat) (it : Item) : Run :=
  let (r, ok) := c.useAll r it
  let ds := descAt r.d.quantSec it.qDesc
  let sc := c.bytes r it.inB (it.qE / 32)
  let r := { r with scale := sins r.scale it.out sc }
  if ok then
    let v := tensor ds.b32 (c.bytes r it.inA ((if ds.b32 then 4 else 2) * it.qE)) it.qE
    let key := quantKey r.d.planSeed ds.salt i (if ds.vary || c.client.isSome then c.t else 0)
    let q := quantise ds key (sc.map (toInt 8)) (scaleSearch ds v).2 (quantVals ds v)
    let d := ((r.d.addi R.QNT_ELEM 0 it.qE).addi R.QNT_CLIP 0 q.clipped).addi R.QNT_ESC 0 q.escaped
    let d := if q.nonFinite then d.inc R.QNT_CNT_NONFINITE else d
    let d := if q.sat = 0 then d else d.inc R.QNT_CNT_SAT_ITEMS
    c.put { r with d := d } it.out q.bytes true
  else
    let (r, bs) := r.freeBytes (quantBytes ds it.qE)
    c.put { r with d := r.d.inc R.QNT_CNT_INVALID_IN } it.out bs false

/-- Run one item of a client section: FETCH and STORE act at once. -/
def Ctx.item (c : Ctx) (r : Run) (e : Nat × Item) : Run :=
  let it := e.2
  let r := if it.out = noTok then r else (c.take r it.out it.start).getD r
  match it.op with
  | 1 =>
    if !r.d.inWindow c it then c.violate r it
    else if it.mSpace = 3 then c.deliverHost r (c.client.getD 0) it
    else c.deliver r it 0 .clean
  | 2 => c.store r it
  | 3 => c.tile r it
  | 4 => c.dmu r it
  | 5 => c.vu r it
  | 6 => c.quant r e.1 it
  | 7 => c.scan r it
  | _ => r

/-- Items in the order in which they start; equal STARTs in ascending index (R540). -/
def Ctx.ordered (c : Ctx) : List (Nat × Item) :=
  c.items.mergeSort (fun a b => decide (a.2.start < b.2.start ∨ (a.2.start = b.2.start ∧ a.1 ≤ b.1)))

/-! ### The resident timeline -/

/-- Items of the running variant: those its slots name (PLN.2). -/
def Dev.variantItems (d : Dev) : List (Nat × Item) :=
  if d.planActive then
    let s := planSec d.sq.active d.sq.plan 3
    (d.slotsNow.map (fun k => (List.range k.itemCount).map (fun i => (k.itemFirst + i, itemAt s (k.itemFirst + i))))).flatten
  else []

/-- The resident context of the running frame. -/
def Dev.resCtx (d : Dev) : Ctx :=
  { client := none, base := 0, bufs := d.sec 18, items := d.variantItems, t := d.frameIdx % 2 ^ 32 }

/-- The tokens of the running frame. -/
def Dev.resRun (d : Dev) : Run := { d := d, tok := d.sq.tokens, slot := d.sq.slots, scale := d.sq.scales }

/-- Change the sequencer's hidden state. -/
def Dev.setSq (d : Dev) (f : Seq → Seq) : Dev := { d with sq := f d.sq }

/-- Keep what an item did: tokens, slots, and the LATE and ECC flags of the frame (PLN.4). -/
def Run.keep (r : Run) : Dev :=
  r.d.setSq (fun s => { s with tokens := r.tok, slots := r.slot, scales := r.scale,
                               status := s.status ||| (if r.late then 16 else 0) ||| (if r.ecc then 32 else 0) })

/-- Planned work runs: a frame of an active plan, REFCLK not lost (R372, MOD.4). -/
def Dev.framing (d : Dev) : Bool := d.running && !d.rst.refLost && d.planActive && d.sq.frameAt.isSome && !d.cutOver

/-- The item of an index, when it belongs to the running variant, is of kind `op` and has not run in this frame. -/
def Dev.itemNow (d : Dev) (i op : Nat) : Option Item :=
  if d.framing && !d.sq.doneItems.contains i then
    match d.variantItems.find? (fun e => e.1 == i) with
    | some (_, it) => if it.op = op ∧ it.start ≤ d.frameBeat then some it else none
    | none => none
  else none

/-- An item has run. -/
def Dev.itemDone (d : Dev) (i : Nat) : Dev := d.setSq (fun s => { s with doneItems := i :: s.doneItems })

/-- A FETCH of the same engine precedes item `i` and has not been issued (R369). -/
def Dev.fetchBehind (d : Dev) (i : Nat) (it : Item) : Bool :=
  d.variantItems.any (fun e => e.2.op == 1 && e.2.unit == it.unit && !d.sq.doneItems.contains e.1 && e.1 != i &&
    decide (e.2.start < it.start ∨ (e.2.start = it.start ∧ e.1 < i)))

/-- A resident FETCH is issued (R368, R369). -/
def fetchItem (i : Nat) (d : Dev) : Dev :=
  match d.itemNow i 1 with
  | some it =>
    if d.fetchBehind i it then d
    else match d.resCtx.take d.resRun it.out d.frameBeat with
      | some r => (r.keep.itemDone i).setSq (fun s => { s with inflight := s.inflight ++ [(i, r.d.seqHead it)] })
      | none => d
  | none => d

def execFetchItem (item : Nat) (s : State) : Host.Outcome State Fault Refusal := onDev (fetchItem item) s

/-- The last byte of a FETCH's data arrives (R370). A token that a reader has already found late stays invalid. -/
def fetchArrived (i : Nat) (ecc : EccResult) (d : Dev) : Dev :=
  match d.sq.inflight.find? (fun e => e.1 == i), d.variantItems.find? (fun e => e.1 == i) with
  | some (_, h), some (_, it) =>
    let d := d.setSq (fun s => { s with inflight := s.inflight.filter (fun e => e.1 ≠ i) })
    let late := (sfind d.sq.tokens it.out).isSome
    let r := d.resCtx.deliver d.resRun it h ecc
    (if late then r.setTok it.out false else r).keep
  | _, _ => d

def execFetchDataArrived (item : Nat) (ecc : EccResult) (s : State) : Host.Outcome State Fault Refusal :=
  onDev (fetchArrived item ecc) s

/-- Run a resident item of kind `op` with its meaning over tokens; `f` takes the context, the run and the item. -/
def Dev.runItem (d : Dev) (i op : Nat) (f : Ctx → Run → Item → Run) : Dev :=
  match d.itemNow i op with
  | some it =>
    let c := d.resCtx
    if it.out = noTok then ((f c d.resRun it).keep).itemDone i
    else match c.take d.resRun it.out d.frameBeat with
      | some r => ((f c r it).keep).itemDone i
      | none => d
  | none => d

def execStoreItem (item : Nat) (s : State) : Host.Outcome State Fault Refusal := onDev (fun d => d.runItem item 2 Ctx.store) s

def execTileItem (item : Nat) (s : State) : Host.Outcome State Fault Refusal := onDev (fun d => d.runItem item 3 Ctx.tile) s

def execDmuItem (item : Nat) (s : State) : Host.Outcome State Fault Refusal := onDev (fun d => d.runItem item 4 Ctx.dmu) s

def execVuItem (item : Nat) (s : State) : Host.Outcome State Fault Refusal := onDev (fun d => d.runItem item 5 Ctx.vu) s

def execScanItem (item : Nat) (s : State) : Host.Outcome State Fault Refusal := onDev (fun d => d.runItem item 7 Ctx.scan) s

def execQuantItem (item : Nat) (s : State) : Host.Outcome State Fault Refusal :=
  onDev (fun d => d.runItem item 6 (fun c r it => c.quant r item it)) s

end Sys2Proof.Machine
end

