-- ==== Sys2Proof/Machine/Rings.lean ====
section
/-!
DEFINITION. Rings, doorbells and commands (chapter 14): ring set-up, doorbell records, descriptors, starting and ending
commands, steps in slots, completion records, halts, repeated tags and interrupts.
-/

namespace Sys2Proof.Machine

/-- Fields of a descriptor (RNG.3). -/
def Cmd.op (k : Cmd) : Nat := u8 k.desc 0
def Cmd.tag (k : Cmd) : Nat := u32 k.desc 4
def Cmd.src (k : Cmd) : Nat := u64 k.desc 16
def Cmd.dest (k : Cmd) : Nat := u64 k.desc 24
def Cmd.len (k : Cmd) : Nat := u64 k.desc 32
def Cmd.par8 (k : Cmd) (o : Nat) : Nat := u8 k.desc o
def Cmd.par16 (k : Cmd) (o : Nat) : Nat := u16 k.desc o
def Cmd.irqNow (k : Cmd) : Bool := bitAt (u8 k.desc 1) 1

/-- Opcodes (RNG.4). -/
def opNop : Nat := 0x00
def opFence : Nat := 0x01
def opLoad : Nat := 0x02
def opStore : Nat := 0x03
def opSection : Nat := 0x04
def opTrain : Nat := 0x05
def opQp : Nat := 0x06
def opTrace : Nat := 0x07
def opStats : Nat := 0x08
def opCal : Nat := 0x09
def opTable : Nat := 0x0A
def opStage : Nat := 0x40
def opArm : Nat := 0x41
def opChunk : Nat := 0x48
def opVerify : Nat := 0x49
def opActivate : Nat := 0x4A
def opConfirm : Nat := 0x4B
def opOtp : Nat := 0x50

/-- Status codes (RNG.3). -/
def stOk : Nat := 0
def stDegraded : Nat := 1
def stDuplicate : Nat := 2
def stAborted : Nat := 3
def stMalformed : Nat := 4
def stRange : Nat := 5
def stForbidden : Nat := 6
def stTimeout : Nat := 7
def stUnavailable : Nat := 8
def stNoSpace : Nat := 9
def stOverflow : Nat := 10

/-- Bytes 8 to 55 of a descriptor that an opcode uses (RNG.4, RTN.1, QPS.4, LPE.7, HLD.6); none for an unknown opcode. -/
def fieldsUsed (op len : Nat) : Option (List Nat) :=
  let r (a n : Nat) : List Nat := (List.range n).map (· + a)
  let src := r 16 8
  let dst := r 24 8
  let ln := r 32 8
  if op = opNop ∨ op = opFence ∨ op = opConfirm then some []
  else if op = opLoad ∨ op = opStore then some (src ++ dst ++ ln)
  else if op = opSection then some (src ++ ln ++ r 40 2)
  else if op = opTrain then some (src ++ dst ++ ln ++ r 40 3)
  else if op = opQp then some (src ++ dst ++ ln ++ r 40 4)
  else if op = opTrace then some (dst ++ ln ++ [40] ++ r 42 4)
  else if op = opStats then some ([8] ++ dst ++ ln)
  else if op = opCal then some (dst ++ ln ++ r 40 4)
  else if op = opTable then some ([8] ++ r 10 2 ++ src ++ ln ++ (if len ≤ 16 then r 40 16 else []))
  else if op = opStage ∨ op = opOtp then some (src ++ ln)
  else if op = opArm ∨ op = opVerify ∨ op = opActivate then some [40]
  else if op = opChunk then some (src ++ dst ++ ln ++ [40])
  else none

/-- A descriptor is malformed (R644). -/
def malformed (crcReq : Bool) (b : List Nat) : Bool :=
  let crc := bitAt (u8 b 1) 0
  match fieldsUsed (u8 b 0) (u64 b 32) with
  | none => true
  | some us =>
    !zerosAt b 2 2 || !zerosAt b 56 4 || decide (4 ≤ u8 b 1) ||
    (List.range 48).any (fun i => !us.contains (8 + i) && u8 b (8 + i) != 0) ||
    (if crc then u32 b 60 != crc32c (b.take 60) else crcReq || u32 b 60 != 0)

/-- Commands of a client. -/
def Dev.cmds (d : Dev) (c : Nat) : List Cmd := (d.client c).cmds

/-- Change the rings of a client. -/
def Dev.mapClient (d : Dev) (c : Nat) (f : Client → Client) : Dev := d.setClient c (f (d.client c))

/-- Change one command of a client. -/
def Dev.upd (d : Dev) (c seq : Nat) (f : Cmd → Cmd) : Dev :=
  d.mapClient c (fun k => { k with cmds := k.cmds.map (fun x => if x.seqNo = seq then f x else x) })

/-- A command of a client by its sequence number. -/
def Dev.cmd? (d : Dev) (c seq : Nat) : Option Cmd := (d.cmds c).find? (fun k => k.seqNo == seq)

/-- A command is decided: its record waits to be posted. -/
def Dev.finish (d : Dev) (c : Nat) (k : Cmd) (status result detail : Nat) : Dev :=
  let st := d.stamp
  d.upd c k.seqNo (fun x => { x with phase := .done, status := status, result := result, detail := detail, stamp := st })

/-- A command ends with its own status: OK, or OK_DEGRADED when a result of it was invalid. -/
def Dev.finishOk (d : Dev) (c : Nat) (k : Cmd) (result : Nat) : Dev :=
  d.finish c k (if k.degraded then stDegraded else stOk) result 0

/-- State of a submission ring: 0 OFF, 1 RUN, 2 HALTED, 3 STOPPING, 4 STOPPED; RNG_STATUS follows it. -/
def Dev.setRing (d : Dev) (c s st : Nat) : Dev :=
  let d := d.pwr c R.RING_CTL_STATE st s
  let d := d.pwr c R.RNG_STATUS_RUN (b2n (decide (st = 1))) s
  let d := d.pwr c R.RNG_STATUS_HALTED (b2n (decide (st = 2))) s
  d.pwr c R.RNG_STATUS_STOPPED (b2n (decide (st = 4))) s

/-- State of a ring. -/
def Dev.ringState (d : Dev) (c s : Nat) : Nat := d.prd c R.RING_CTL_STATE s

/-- The producer index of a ring is taken as its consumer index: nothing more is fetched before the next record. -/
def Dev.holdFetch (d : Dev) (c s : Nat) : Dev :=
  let n := d.prd c R.RING_CONS s
  d.mapClient c (fun k => { k with pi := k.pi.set s n })

/-- A ring halts at a command (R645, R678). -/
def Dev.haltRing (d : Dev) (c : Nat) (k : Cmd) : Dev :=
  let d := d.finish c k stMalformed 0 0
  let d := d.upd c k.seqNo (fun x => { x with halt := true, tagged := false })
  let d := d.mapClient c (fun x => { x with cmds := x.cmds.filter (fun y => y.ring ≠ k.ring || decide (y.seqNo ≤ k.seqNo)) })
  let d := (d.pwr c R.RING_HALT k.index k.ring).setRing c k.ring 2
  let d := d.pwr c R.RING_CONS (k.index + 1) k.ring
  (d.pinc c R.RNG_CNT_MALF).holdFetch c k.ring

/-! ### Starting commands -/

/-- The command of a ring that runs or is next to run (R668): the oldest not decided and not waiting for a boundary. -/
def Dev.head (d : Dev) (c s : Nat) : Option Cmd :=
  (d.cmds c).find? (fun k => k.ring == s && k.phase ≠ .done && k.phase ≠ .waiting)

/-- A command waits behind a FENCE, or a FENCE behind earlier commands (R672). A descriptor on its way may be one. -/
def Dev.fenced (d : Dev) (c : Nat) (k : Cmd) : Bool :=
  (d.cmds c).any (fun x => decide (x.seqNo < k.seqNo) && x.phase ≠ .done &&
    (x.phase == .issued || x.op == opFence || k.op == opFence))

/-- The command of a ring that may start now, when its opcode is `op`. -/
def Dev.starting (d : Dev) (c s op : Nat) : Option Cmd :=
  if !d.running || d.inReset 6 || !(d.ringState c s == 1 || d.ringState c s == 2) then none
  else match d.head c s with
    | some k => if k.phase = .ready ∧ k.op = op ∧ !d.fenced c k then some k else none
    | none => none

/-- What a tag finds (R674): an earlier completion, or a command that started and has not completed. -/
def Dev.tagMatch (d : Dev) (c : Nat) (k : Cmd) : Option (Option (Nat × Nat)) :=
  if k.tag = 0 then none
  else match (d.cmds c).reverse.find? (fun x => x.ring == k.ring && decide (x.seqNo < k.seqNo) && x.tag == k.tag &&
      (x.phase == .done && x.tagged || x.phase == .waiting || x.phase == .running)) with
    | some x => some (if x.phase = .done then some (x.result, x.status) else none)
    | none => match (d.client c).tags.find? (fun e => e.ring == k.ring && e.tag == k.tag) with
      | some e => some (some (e.result, e.status))
      | none => none

/-- Right bit of an opcode (RNG.4); none where it needs none. -/
def rightBit (op : Nat) : Option Nat :=
  if op = opLoad ∨ op = opStore then some 0 else if op < opSection ∨ opTable < op then none else some (op - 3)

/-- Opcodes that clients 1-256 may not give (R652). -/
def clientZeroOnly (op : Nat) : Bool := decide (opTable ≤ op)

/-- Start a command: it is a duplicate, or forbidden, or `body` runs it (R652, R674-R676). -/
def Dev.start (d : Dev) (c s op : Nat) (body : Cmd → Dev → Dev) : Dev :=
  match d.starting c s op with
  | none => d
  | some k =>
    match d.tagMatch c k with
    | some none => d
    | some (some (res, st)) =>
      ((d.finish c k stDuplicate res st).upd c k.seqNo (fun x => { x with tagged := false })).pinc c R.RNG_CNT_DUP
    | none =>
      if c ≠ 0 ∧ clientZeroOnly op then d.finish c k stForbidden 0 0
      else match rightBit op with
        | some b => if d.rightOk c b then body k d
                    else (d.rightDeny c (if k.src = 0 ∨ op = opStore then k.dest else k.src)).finish c k stForbidden 0 0
        | none => body k d

/-- A command starts running with what `f` gives it. -/
def Dev.begin (d : Dev) (c : Nat) (k : Cmd) (f : Cmd → Cmd) : Dev := d.upd c k.seqNo (fun x => f { x with phase := .running })

/-- The running command of a ring, when its opcode is `op`. -/
def Dev.runningCmd (d : Dev) (c s op : Nat) : Option Cmd :=
  if !d.running || d.inReset 6 then none
  else match d.head c s with
    | some k => if k.phase = .running ∧ k.op = op then some k else none
    | none => none

/-! ### Steps in slots (PLN.7) -/

/-- Resources that a step needs: tiles, vector units, UNITS bits (0 DMU, 1 HDMA), and some vector unit. -/
structure Need where
  tiles : Nat := 0
  vu : Nat := 0
  units : Nat := 0
  anyVu : Bool := false
deriving DecidableEq, Repr

/-- A slot holds what a step needs. -/
def Slot.holds (k : Slot) (n : Need) : Bool :=
  k.tiles &&& n.tiles == n.tiles && k.vu &&& n.vu == n.vu && k.units &&& n.units == n.units && (!n.anyVu || k.vu != 0)

/-- CLIENT slots of a client in every variant of the active plan that hold a need. -/
def Dev.clientSlots (d : Dev) (c : Nat) (n : Need) : List Slot :=
  if d.planActive then
    ((List.range (planVars d.sq.active d.sq.plan)).map (fun v =>
      (planSlots d.sq.active d.sq.plan v).filter (fun k => k.kind == 2 && k.client == c && k.holds n))).flatten
  else []

/-- A client's steps of a kind run in HOUSEKEEPING slots: client 0's, where it has no CLIENT slot for them (R655). -/
def Dev.usesHkp (d : Dev) (c : Nat) (n : Need) : Bool := decide (c = 0) && (d.clientSlots 0 n).isEmpty

/-- A step of `n` beats fits some slot of the client (R400). -/
def Dev.fitsSome (d : Dev) (c : Nat) (need : Need) (n : Nat) : Bool :=
  d.usesHkp c { need with tiles := 0, vu := 0 } && need.tiles == 0 && need.vu == 0 ||
  (d.clientSlots c need).any (fun k => decide (n ≤ k.len))

/-- The first HOUSEKEEPING slot of the running frame. -/
def Dev.firstHkp (d : Dev) : Option Slot := d.slotsNow.find? (fun k => k.kind == 4)

/-- Room for a step: the key of what it uses, the beat of the frame at which it would start, and the beats left; `first`
is the arrival beat of a command that has had no step (R643). -/
def Dev.room (d : Dev) (c : Nat) (need : Need) (first : Option Nat) : Option (Nat × Nat × Nat) :=
  if d.sq.frameAt.isNone || d.rst.refLost || d.cutOver then none
  else
    let hkp := d.usesHkp c need
    let key := if hkp then 0 else c + 1
    let now := max d.frameBeat (sget 0 d.sq.used key)
    match d.slotsNow.find? (fun k => (if hkp then k.kind == 4 else k.kind == 2 && k.client == c && k.holds need) &&
        decide (k.start ≤ now ∧ now < k.start + k.len)) with
    | some k =>
      let late := match first with
        | some a => decide (d.sq.frameAt.getD 0 + k.start ≤ a)
        | none => false
      if late || (hkp && d.firstHkp == some k && !d.sq.hkpDone) then none
      else some (key, now, k.start + k.len - now)
    | none => none

/-- A step of `n` beats of a command runs from beat `p` of the frame (R397). -/
def Dev.chargeBeats (d : Dev) (c : Nat) (k : Cmd) (key p n : Nat) : Dev :=
  let d := d.setSq (fun s => { s with used := sins s.used key (p + n) })
  (d.upd c k.seqNo (fun x => { x with steps := x.steps + 1 })).pinc c R.RNG_STEPS

/-- Key of a client's turn: that of HOUSEKEEPING slots, or of its CLIENT slots. -/
def turnKey (c key : Nat) : Nat := if key = 0 then 2 * c + 1 else 2 * c

/-- Key of a client's turn in the calibration reserve. -/
def calTurn (c : Nat) : Nat := 1000 + c

/-- The next `n` rings after ring `l`, ascending and round again (R399, R670). -/
def ringsAfter (l n : Nat) : List Nat := (List.range n).map (fun i => (l + 1 + i) % 8)

/-- A step of a ring's command runs from beat `p` of the frame, and the ring has had its turn (R399, R670). -/
def Dev.useBeats (d : Dev) (c : Nat) (k : Cmd) (key p n : Nat) : Dev :=
  (d.chargeBeats c k key p n).setSq (fun s => { s with turn := sins s.turn (turnKey c key) (s.frameAt.getD 0 + p, k.ring) })

/-- Arrival beat that the first step of a command must follow (R643). -/
def Cmd.firstOf (k : Cmd) : Option Nat := if k.steps = 0 then some k.readyAt else none

/-- Take a step of `n` beats now, or do nothing where it does not fit. -/
def Dev.takeStep (d : Dev) (c : Nat) (k : Cmd) (need : Need) (n : Nat) (f : Dev → Dev) : Dev :=
  match d.room c need k.firstOf with
  | some (key, p, left) => if n ≤ left then f (d.useBeats c k key p n) else d
  | none => d

/-! ### Host traffic -/

/-- Cut a range into requests of at most `lim` bytes, none across a 4 KiB boundary (R591). -/
def hostCuts (lim a : Nat) : Nat → Nat → List (Nat × Nat)
  | 0, _ => []
  | f + 1, n =>
    if n = 0 then []
    else
      let k := min n (min lim (4096 - a % 4096))
      (a, k) :: hostCuts lim (a + k) f (n - k)

/-- Issue host reads of a range for a client. -/
def Dev.hostRead (d : Dev) (c a n : Nat) : Dev :=
  let lim := max 128 (d.fn 0).mrrs
  (hostCuts lim a (n / 128 + 2) n).foldl (fun e p => e.emit (.hostRead c p.1 p.2)) d

/-- Issue host writes for a client. -/
def Dev.hostWrite (d : Dev) (c a : Nat) (bs : List Nat) : Dev :=
  let lim := max 128 (d.fn 0).mps
  (hostCuts lim a (bs.length / 128 + 2) bs.length).foldl (fun e p => e.emit (.hostWrite c p.1 (bytesAt bs (p.1 - a) p.2))) d

/-- Need of a step that moves data (R655). -/
def moveNeed : Need := { units := 2 }

/-- Beats and bytes of the largest transfer step (R655): `left` beats in the slot, `bytes` still to move. -/
def moveStep (left bytes : Nat) : Nat × Nat :=
  let n := max 16 (min (min left 1000) (8 + cdiv bytes 256))
  (n, min bytes (256 * (n - 8)))

/-! ### Doorbells and descriptors -/

/-- The client takes part: client 0 always, a VF while it is enabled and answers (R597). -/
def Dev.clientOn (d : Dev) (c : Nat) : Bool :=
  c == 0 || (d.hif.vfEnable && d.hif.vfReady && decide (c ≤ d.hif.numVfs) && !d.rst.flr.contains c)

/-- Issue a client's doorbell read at a poll occasion (R612, R635, R636). -/
def Dev.poll (d : Dev) (c : Nat) : Dev :=
  if !d.pset c R.RNG_CTL_EN || !d.clientOn c then d
  else
    let k := d.client c
    let d := d.setClient c { k with occasions := k.occasions + 1 }
    let a := d.prd c R.RNG_DB_ADDR
    if k.occasions % max 1 (d.prd c R.RNG_POLL) ≠ 0 || k.polling || !d.busOk c || !d.reqOk c a 64 then d
    else (d.mapClient c (fun x => { x with polling := true })).hostRead c a 64

/-- Act on a record (R638, R639). -/
def Dev.actRecord (d : Dev) (c : Nat) (b : List Nat) : Dev :=
  if u32 b 32 ≠ d.prd c R.RNG_EPOCH then d.pinc c R.RNG_CNT_EPOCH_MISS
  else if !zerosAt b 36 28 then d.pinc c R.RNG_CNT_DB_BAD
  else (List.range 8).foldl (fun a s =>
    if a.ringState c s ≠ 1 then a
    else
      let n := (u32 b (4 * s) + 2 ^ 32 - a.prd c R.RING_CONS s) % 2 ^ 32
      if 2 ^ a.prd c R.RING_CFG_LOG2 s < n then a.pinc c R.RNG_CNT_DB_BAD
      else a.mapClient c (fun x => { x with pi := x.pi.set s (u32 b (4 * s)) })) d

/-- Act on every record that arrived before this item (R637). -/
def Dev.actRecords (d : Dev) : Dev :=
  (d.clients.map (·.1)).foldl (fun a c =>
    match (a.client c).record with
    | some b => (a.mapClient c (fun x => { x with record := none })).actRecord c b
    | none => a) d

/-- Issue one descriptor read for a ring: up to 64 descriptors, not across the ring's end, at most 64 held (R641,
R642). -/
def Dev.fetchRing (d : Dev) (c s : Nat) : Dev × Bool :=
  let cons := d.prd c R.RING_CONS s
  let size := 2 ^ d.prd c R.RING_CFG_LOG2 s
  let held := countIf (fun k => k.ring == s && k.phase ≠ .done) (d.cmds c)
  let n := min (min ((nth 0 (d.client c).pi s + 2 ^ 32 - cons) % 2 ^ 32) (64 - held)) (size - cons % size)
  let a := d.prd c R.RING_BASE s + 64 * (cons % size)
  if d.ringState c s ≠ 1 || n = 0 || !d.busOk c || !d.reqOk c a (64 * n) then (d, false)
  else
    let k := d.client c
    let new := (List.range n).map (fun i => ({ ring := s, index := (cons + i) % 2 ^ 32, seqNo := k.nextSeq + i } : Cmd))
    let d := d.setClient c { k with cmds := k.cmds ++ new, nextSeq := k.nextSeq + n }
    ((d.pwr c R.RING_CONS (cons + n) s).hostRead c a (64 * n), true)

/-- Descriptor reads of one item: clients and rings ascending, at most 64 (R641). -/
def Dev.fetchAll (d : Dev) : Dev :=
  let rings := ((d.clients.map (·.1)).map (fun c => (List.range 8).map (fun s => (c, s)))).flatten
  (rings.foldl (fun (a : Dev × Nat) p =>
    if 64 ≤ a.2 then a
    else
      let (e, b) := a.1.fetchRing p.1 p.2
      let (e2, b2) := if b ∧ a.2 + 1 < 64 then e.fetchRing p.1 p.2 else (e, false)
      (e2, a.2 + b2n b + b2n b2)) (d, 0)).1

/-- A doorbell record arrives (R637). -/
def doorbell (c : Nat) (b : List Nat) (d : Dev) : Dev :=
  let k := d.client c
  if d.running && k.polling then d.setClient c { k with polling := false, record := some b } else d

def execDoorbellRecordArrived (client : Nat) (bytes : List Nat) (s : State) : Host.Outcome State Fault Refusal :=
  unit (decide (client ≤ 256)) (onDev (doorbell client bytes) s)

/-- The oldest descriptor of a ring that is still on its way. -/
def Dev.onTheWay (d : Dev) (c s : Nat) : Option Cmd := (d.cmds c).find? (fun k => k.ring == s && k.phase == .issued)

/-- A descriptor arrives: it becomes ready, halts its ring (R643-R645), or ends with a ring that stops (R680). -/
def descriptor (c s : Nat) (b : List Nat) (d : Dev) : Dev :=
  match d.onTheWay c s with
  | some k =>
    let now := d.beat
    let d := d.upd c k.seqNo (fun x => { x with desc := b, phase := .ready, readyAt := now })
    if d.ringState c s = 3 then d.finish c k stAborted 0 1
    else if malformed (d.pset c R.RNG_CTL_CRC_REQ) b then d.haltRing c { k with desc := b } else d
  | none => d

def execDescriptorArrived (client ring : Nat) (bytes : List Nat) (s : State) : Host.Outcome State Fault Refusal :=
  unit (decide (client ≤ 256 ∧ ring < 8)) (onDev (descriptor client ring bytes) s)

/-! ### Completion records and interrupts -/

/-- The 28 bytes before the phase of a record (RNG.3). -/
def Cmd.record (k : Cmd) : List Nat :=
  [k.status, k.ring + (if k.halt then 128 else 0)] ++ leBytes 2 k.index ++ leBytes 4 k.tag ++ leBytes 4 k.steps ++
  leBytes 8 k.result ++ leBytes 4 k.stamp ++ leBytes 4 k.detail

/-- Where the next record of a command's completion ring goes. -/
def Dev.cplAt (d : Dev) (c : Nat) (k : Cmd) : Nat :=
  let q := d.prd c R.RING_CFG_CPL k.ring
  d.prd c R.CPL_BASE q + 32 * (d.prd c R.CPL_TAIL q % 2 ^ d.prd c R.CPL_CFG_LOG2 q)

/-- A STOPPING ring whose last command is posted becomes STOPPED, or OFF (R631, R680). -/
def Dev.stopDone (d : Dev) (c s : Nat) : Dev :=
  if d.ringState c s = 3 && !(d.cmds c).any (fun k => k.ring == s) then
    if (d.client c).offAfter.contains s then
      ((d.setRing c s 0).pwr c R.RING_CTL_EN 0 s).mapClient c (fun x => { x with offAfter := x.offAfter.filter (· ≠ s) })
    else d.setRing c s 4
  else d

/-- Post a command's completion record (R634, R646-R650). -/
def Dev.post (d : Dev) (c : Nat) (k : Cmd) : Dev :=
  let q := d.prd c R.RING_CFG_CPL k.ring
  let tail := d.prd c R.CPL_TAIL q
  let ph := (1 + tail / 2 ^ d.prd c R.CPL_CFG_LOG2 q) % 2
  let a := d.cplAt c k
  let d := k.outs.foldl (fun e o => e.hostWrite c o.1 o.2) d
  let d := if d.prd c R.CPL_CFG_MODE q = 1 then (d.emit (.hostWrite c a k.record)).emit (.hostWrite c (a + 28) (leBytes 4 ph))
           else d.emit (.hostWrite c a (k.record ++ leBytes 4 ph))
  let d := (d.pwr c R.CPL_TAIL (tail + 1) q).pinc c R.RNG_CMDS
  let d := d.pinc c R.RNG_DONE k.ring
  let now := d.beat
  let d := d.mapClient c (fun x => { x with
    cmds := x.cmds.filter (fun y => y.seqNo ≠ k.seqNo)
    tags := if k.tagged && k.tag ≠ 0 then
        let e : TagEntry := { ring := k.ring, tag := k.tag, status := k.status, result := k.result }
        (e :: x.tags.filter (fun t => t.ring == k.ring)).take 4096 ++ x.tags.filter (fun t => t.ring ≠ k.ring)
      else x.tags
    unrep := x.unrep.set q (nth 0 x.unrep q + 1)
    oldest := if (nth none x.oldest q).isNone then x.oldest.set q (some now) else x.oldest
    irqNow := if k.irqNow then x.irqNow.set q true else x.irqNow })
  d.stopDone c k.ring

/-- A decided command may be posted now: its host reads have been answered too (R650, R651, R669, R672). -/
def Dev.postable (d : Dev) (c : Nat) (k : Cmd) : Bool :=
  k.phase == .done && k.awaiting == 0 && d.busOk c && d.reqOk c (d.cplAt c k) 32 &&
  !(d.cmds c).any (fun x => decide (x.seqNo < k.seqNo) && (x.ring == k.ring || k.op == opFence))

/-- Post a client's records in order, at most `n`. -/
def Dev.postClient (d : Dev) (c n : Nat) : Dev × Nat :=
  match n with
  | 0 => (d, 0)
  | n + 1 =>
    match (d.cmds c).find? (d.postable c) with
    | some k => (d.post c k).postClient c n
    | none => (d, n + 1)

/-- Post up to 256 records, clients ascending (R651). -/
def Dev.postAll (d : Dev) : Dev :=
  ((d.clients.map (·.1)).foldl (fun (a : Dev × Nat) c => a.1.postClient c a.2) (d, 256)).1

/-- Whether a completion ring's vector is raised now (R685). -/
def Dev.cplDue (d : Dev) (c q : Nat) : Bool :=
  let k := d.client c
  let u := nth 0 k.unrep q
  let t := d.prd c R.CPL_MOD_TIME_US q
  d.pset c R.CPL_CFG_IEN q && decide (0 < u) &&
  (decide (d.prd c R.CPL_MOD_COUNT q ≤ u) || nth false k.irqNow q ||
   (t != 0 && (match nth none k.oldest q with
     | some b => decide (b + 250 * t ≤ d.beat)
     | none => false)))

/-- Raise the vectors of the completion rings that are due (R685, R686). -/
def Dev.cplIrqs (d : Dev) : Dev :=
  let rings := ((d.clients.map (·.1)).map (fun c => (List.range 8).map (fun q => (c, q)))).flatten
  rings.foldl (fun a p =>
    if a.cplDue p.1 p.2 then
      let v := (p.1, a.prd p.1 R.CPL_CFG_VEC p.2)
      let a := a.mapClient p.1 (fun x => { x with unrep := x.unrep.set p.2 0, oldest := x.oldest.set p.2 none,
                                                  irqNow := x.irqNow.set p.2 false })
      { a with hif := { a.hif with vecDue := if a.hif.vecDue.contains v then a.hif.vecDue else a.hif.vecDue ++ [v] } }
    else a) d

/-! ### Set-up -/

/-- Ring registers may be written: the PF or the VF reaches its own page, and HIF works. -/
def Dev.ringsOk (d : Dev) : Bool := d.running && !d.inReset 6

/-- Client `c`'s set-up page may be written: its function is enabled, answers and is in no FUNCTION reach (R143, R597). -/
def Dev.pageOk (d : Dev) (c : Nat) : Bool := d.ringsOk && d.clientOn c

/-- A write of RNG_CTL (R627). -/
def rngCtl (c value : Nat) (d : Dev) : Dev :=
  if !d.pageOk c then d
  else
    let d := d.pwr c R.RNG_CTL_CRC_REQ (bits value 1 1)
    if !bitAt value 0 then d.pwr c R.RNG_CTL_EN 0
    else if d.pset c R.RNG_CTL_EN then d.pwr c R.RNG_CTL_ERR 0
    else
      let a := d.prd c R.RNG_DB_ADDR
      if a % 4096 = 0 && d.reqOk c a 64 then
        ((d.pwr c R.RNG_CTL_EN 1).pwr c R.RNG_CTL_ERR 0).mapClient c (fun k => { k with occasions := 0 })
      else d.pwr c R.RNG_CTL_ERR 1

def execRngCtlEnable (client value : Nat) (s : State) : Host.Outcome State Fault Refusal :=
  unit (decide (client ≤ 256)) (onDev (rngCtl client value) s)

/-- An enabled submission ring names a completion ring. -/
def Dev.cplNamed (d : Dev) (c q : Nat) : Bool := (List.range 8).any (fun s => d.pset c R.RING_CTL_EN s && d.prd c R.RING_CFG_CPL s == q)

/-- A write of CPL_CFGq (R628, R630, R631). While EN is 1 only a write of EN = 0 acts. -/
def cplCfg (c q value : Nat) (d : Dev) : Dev :=
  if !d.pageOk c then d
  else if d.pset c R.CPL_CFG_EN q then
    if bitAt value 31 || d.cplNamed c q then d else d.pwr c R.CPL_CFG_EN 0 q
  else
    let d := d.pwr c R.CPL_CFG_LOG2 (bits value 0 5) q
    let d := d.pwr c R.CPL_CFG_MODE (bits value 8 1) q
    let d := d.pwr c R.CPL_CFG_VEC (bits value 16 3) q
    let d := d.pwr c R.CPL_CFG_IEN (bits value 19 1) q
    if !bitAt value 31 then d
    else
      let l := bits value 0 5
      let a := d.prd c R.CPL_BASE q
      if 6 ≤ l ∧ l ≤ 16 ∧ a % 4096 = 0 ∧ d.reqOk c a (32 * 2 ^ l) then
        let d := ((d.pwr c R.CPL_CFG_EN 1 q).pwr c R.CPL_CFG_ERR 0 q).pwr c R.CPL_TAIL 0 q
        d.mapClient c (fun k => { k with unrep := k.unrep.set q 0, oldest := k.oldest.set q none, irqNow := k.irqNow.set q false })
      else d.pwr c R.CPL_CFG_ERR 1 q

def execCplRingEnable (client q value : Nat) (s : State) : Host.Outcome State Fault Refusal :=
  unit (decide (client ≤ 256 ∧ q < 8)) (onDev (cplCfg client q value) s)

/-- A ring may be enabled (R629). -/
def Dev.ringFits (d : Dev) (c s : Nat) : Bool :=
  let l := d.prd c R.RING_CFG_LOG2 s
  let a := d.prd c R.RING_BASE s
  let q := d.prd c R.RING_CFG_CPL s
  let others := ((List.range 8).filter (fun t => t ≠ s && d.pset c R.RING_CTL_EN t && d.prd c R.RING_CFG_CPL t == q)).map
    (fun t => 2 ^ d.prd c R.RING_CFG_LOG2 t)
  decide (6 ≤ l ∧ l ≤ 16 ∧ a % 4096 = 0) && d.reqOk c a (64 * 2 ^ l) && d.pset c R.CPL_CFG_EN q &&
  decide (others.foldl (· + ·) (2 ^ l) ≤ 2 ^ d.prd c R.CPL_CFG_LOG2 q)

/-- A write of EN = 1 to a ring that is OFF (R629). -/
def ringEnable (c s : Nat) (d : Dev) : Dev :=
  if !d.pageOk c || d.pset c R.RING_CTL_EN s then d
  else if d.ringFits c s then
    let d := ((d.pwr c R.RING_CTL_EN 1 s).pwr c R.RING_CTL_ERR 0 s).pwr c R.RING_CONS 0 s
    let d := d.mapClient c (fun k => { k with tags := k.tags.filter (fun t => t.ring ≠ s), pi := k.pi.set s 0 })
    d.setRing c s 1
  else d.pwr c R.RING_CTL_ERR 1 s

/-- RESUME of a HALTED or STOPPED ring (R679, R682). -/
def ringResume (c s : Nat) (skip : Bool) (d : Dev) : Dev :=
  if !d.pageOk c then d
  else if d.ringState c s = 2 then
    let h := d.prd c R.RING_HALT s
    ((d.pwr c R.RING_CONS (if skip then h + 1 else h) s).setRing c s 1).holdFetch c s
  else if d.ringState c s = 4 then (d.setRing c s 1).holdFetch c s
  else d

/-! ### Commands without steps -/

/-- NOP (R673). -/
def nop (c s : Nat) (d : Dev) : Dev := d.start c s opNop (fun k d => d.finish c k stOk 0 0)

def execNop (client ring : Nat) (s : State) : Host.Outcome State Fault Refusal :=
  unit (decide (client ≤ 256 ∧ ring < 8)) (onDev (nop client ring) s)

/-- FENCE: it starts when every earlier command of the client is decided (R672). -/
def fence (c s : Nat) (d : Dev) : Dev := d.start c s opFence (fun k d => d.finish c k stOk 0 0)

def execFence (client ring : Nat) (s : State) : Host.Outcome State Fault Refusal :=
  unit (decide (client ≤ 256 ∧ ring < 8)) (onDev (fence client ring) s)

/-! ### Moving data (R654-R657) -/

/-- SPACE and offset of a device address. -/
def devSpace (a : Nat) : Nat := bits a 62 2
def devOff (a : Nat) : Nat := a % 2 ^ 62

/-- Base and size of a client's part of a space; none where it has no staging area (R657). -/
def Dev.clientSpace (d : Dev) (c space : Nat) : Option (Nat × Nat) :=
  match space with
  | 0 => clientArea (d.sec 18) c
  | 1 => some (d.rdi R.ENT_T1_BASE c, d.rdi R.ENT_T1_SIZE c)
  | _ => some (d.rdi R.ENT_T2_BASE c, d.rdi R.ENT_T2_SIZE c)

/-- A Tier 2 range in a client's window touches a hole. -/
def Dev.inHole (d : Dev) (space a n : Nat) : Bool :=
  space == 2 && (List.range ((a + n + 2 ^ 30 - 1) / 2 ^ 30 - a / 2 ^ 30)).any (fun i =>
    let o := max a (2 ^ 30 * (a / 2 ^ 30 + i))
    !d.t2Here o && !d.isSeti R.MEM_T2_STATUS_FAILED (channelAt o))

/-- Checks of a command that moves host data: bus, window and use range; true where it may go on (R610). -/
def Dev.hostCheck (d : Dev) (c : Nat) (k : Cmd) (a n : Nat) (go : Dev → Dev) : Dev :=
  if d.reqOk c a n then go d else (d.hostDeny c a).finish c k stForbidden 0 0

/-- Start LOAD_TENSOR or STORE_TENSOR (R653-R657). -/
def Dev.startMove (d : Dev) (c : Nat) (k : Cmd) (host dev : Nat) : Dev :=
  let sp := devSpace dev
  if host % 64 ≠ 0 ∨ devOff dev % 64 ≠ 0 ∨ k.len % 64 ≠ 0 ∨ k.len < 64 ∨ 2 ^ 36 < k.len ∨ sp = 3 then d.finish c k stRange 0 0
  else match d.clientSpace c sp with
    | none => d.finish c k stUnavailable 0 0
    | some (b, n) =>
      if n < devOff dev + k.len then (d.inc R.MEM_CNT_WIN_VIOL).finish c k stForbidden 0 0
      else if d.inHole sp (b + devOff dev) k.len then d.finish c k stRange 0 0
      else d.hostCheck c k host k.len (fun d =>
        if d.fitsSome c moveNeed 16 then d.begin c k (fun x => { x with total := k.len })
        else d.finish c k stUnavailable 0 0)

def execLoadTensor (client ring : Nat) (s : State) : Host.Outcome State Fault Refusal :=
  unit (decide (client ≤ 256 ∧ ring < 8))
    (onDev (fun d => d.start client ring opLoad (fun k d => d.startMove client k k.src k.dest)) s)

def execStoreTensor (client ring : Nat) (s : State) : Host.Outcome State Fault Refusal :=
  unit (decide (client ≤ 256 ∧ ring < 8))
    (onDev (fun d => d.start client ring opStore (fun k d => d.startMove client k k.dest k.src)) s)

/-- Direction of the present transfer of a running command: it reads host memory, or writes it; none where the command
has no transfer in progress. -/
def Cmd.movesIn (k : Cmd) : Option Bool :=
  if k.op = opLoad then some true
  else if k.op = opStore ∨ k.op = opTrace then some false
  else if k.op = opSection ∨ k.op = opTrain then (if k.stage = 0 then some true else none)
  else if k.op = opQp then (if k.stage = 0 then some true else if k.stage = 2 then some false else none)
  else none

/-- Bytes that an outgoing transfer sends from its position, and whether they are poisoned. -/
def Dev.outBytes (d : Dev) (c : Nat) (k : Cmd) (n : Nat) : List Nat × Bool :=
  if k.op = opStore then
    let sp := devSpace k.src
    let b := ((d.clientSpace c sp).getD (0, 0)).1 + devOff k.src + k.pos
    (d.memBytes sp b n, d.poisoned sp b n || d.reachesFailed sp b n)
  else (bytesAt k.data k.pos n, false)

/-- Need of a command's transfer steps (R655, R918). -/
def Cmd.moveNeed (k : Cmd) : Need := if k.op = opQp then { units := 3 } else { units := 2 }

/-- One transfer step (R655, R656); `limit` bounds its beats where the slot is shared. -/
def transferStep (c s limit : Nat) (d : Dev) : Dev :=
  match d.head c s with
  | some k =>
    if k.phase ≠ .running || !d.running || d.inReset 6 || !d.busOk c || k.total ≤ k.pos then d
    else match k.movesIn, d.room c k.moveNeed k.firstOf with
      | some inw, some (key, p, left) =>
        let (n, by_) := moveStep (min left limit) (k.total - k.pos)
        let host := if inw then k.src else k.dest
        if left < n then d
        else if !d.reqOk c (host + k.pos) by_ then (d.hostDeny c (host + k.pos)).finish c k stForbidden 0 0
        else
          let d := d.useBeats c k key p n
          if inw then
            (d.upd c k.seqNo (fun x => { x with pos := x.pos + by_, awaiting := x.awaiting + by_ })).hostRead c (host + k.pos) by_
          else
            let (bs, bad) := d.outBytes c k by_
            let d := (d.hostWrite c (host + k.pos) bs).upd c k.seqNo (fun x => { x with pos := x.pos + by_, degraded := x.degraded || bad })
            if k.pos + by_ < k.total then d
            else if k.op = opQp then d.finish c k k.status k.result 0
            else d.finishOk c { k with degraded := k.degraded || bad } k.total
      | _, _ => d
  | none => d

end Sys2Proof.Machine
end

