-- ==== Sys2Proof/Machine/Aet.lean ====
section
/-!
DEFINITION. Aelf Event Transport (chapter 18): ports, datagrams, the send queues, retention, sessions and transmit
opportunities of paths, and the exchange of decisions with peers.
-/

namespace Sys2Proof.Machine

/-! ### The AETCFG section (AET.1) -/

def aetNPort (s : List Nat) : Nat := u8 s 0
def aetNFlow (s : List Nat) : Nat := u8 s 1
def aetNPath (s : List Nat) : Nat := u8 s 2
def aetNPeer (s : List Nat) : Nat := u8 s 3
def aetPeerBase (s : List Nat) : Nat := u32 s 4

/-- Records of the four parts, in file order. -/
def aetPorts (s : List Nat) : List (List Nat) := (List.range (aetNPort s)).map (fun i => bytesAt s (16 + 64 * i) 64)
def aetFlows (s : List Nat) : List (List Nat) :=
  (List.range (aetNFlow s)).map (fun i => bytesAt s (16 + 64 * aetNPort s + 32 * i) 32)
def aetPaths (s : List Nat) : List (List Nat) :=
  (List.range (aetNPath s)).map (fun i => bytesAt s (16 + 64 * aetNPort s + 32 * aetNFlow s + 64 * i) 64)
def aetPeers (s : List Nat) : List (List Nat) :=
  (List.range (aetNPeer s)).map (fun i =>
    bytesAt s (16 + 64 * aetNPort s + 32 * aetNFlow s + 64 * aetNPath s + 32 * i) 32)

/-- The record of a number; empty for none. -/
def recOf (l : List (List Nat)) (n : Nat) : List Nat := (l.find? (fun r => u8 r 0 == n)).getD []

/-- Port record's addresses (AET.1). -/
def prtFlag (r : List Nat) (i : Nat) : Bool := bitAt (u8 r 4) i
def prtAddr (r : List Nat) : NetAddr :=
  { mac := bytesAt r 16 6, vlan := if prtFlag r 2 then some (u16 r 8) else none, v6 := prtFlag r 1,
    ip := bytesAt r 32 16, udp := u16 r 10 }
/-- Lanes of a port, and its capacity in bytes per beat (R792). -/
def prtLanes (r : List Nat) : Nat := if u8 r 3 = 2 then 2 else if u8 r 3 = 3 then 4 else 1
def prtRate (r : List Nat) : Nat := 50 * prtLanes r
/-- Two records describe the same port (ING.6). -/
def prtSame (a b : List Nat) : Bool :=
  !a.isEmpty && bytesAt a 1 3 == bytesAt b 1 3 && u8 a 5 == u8 b 5 && prtFlag a 0 == prtFlag b 0

/-- Flow record fields. -/
def flwFirst (r : List Nat) : Nat := u8 r 1
def flwN (r : List Nat) : Nat := u8 r 2
def flwKeep (r : List Nat) : Bool := bitAt (u8 r 3) 0
def flwGiveup (r : List Nat) : Nat := u32 r 4
def flwBase (r : List Nat) : Nat := u64 r 8
def flwSize (r : List Nat) : Nat := u64 r 16

/-- Path record fields. -/
def pthPort (r : List Nat) : Nat := u8 r 1
def pthSeg (r : List Nat) : Nat := u16 r 4
def pthWinMax (r : List Nat) : Nat := u16 r 6
def pthPeriod (r : List Nat) : Nat := u32 r 8
def pthRto (r : List Nat) : Nat := 250 * u32 r 12
def pthBase (r : List Nat) : Nat := u64 r 16
def pthSize (r : List Nat) : Nat := u64 r 24

/-- The section in force: the running plan's, in HALTED that of the plan before it (R821). -/
def Dev.aetSec (d : Dev) : List Nat := d.lastSec 13
def Dev.prtRec (d : Dev) (p : Nat) : List Nat := recOf (aetPorts d.aetSec) p
def Dev.pthRec (d : Dev) (k : Nat) : List Nat := recOf (aetPaths d.aetSec) k
def Dev.flwRec (d : Dev) (f : Nat) : List Nat := recOf (aetFlows d.aetSec) f

/-- Path number of event `e` of a flow (R798). -/
def pathOfEvent (s flow : List Nat) (e : Nat) : Nat := u8 (nth [] (aetPaths s) (flwFirst flow + e % max 1 (flwN flow))) 0

/-- The flow that path number `k` belongs to; empty for none. -/
def flowOfPath (s : List Nat) (k : Nat) : List Nat :=
  let i := ((aetPaths s).findIdx? (fun r => u8 r 0 == k)).getD 256
  ((aetFlows s).find? (fun f => decide (flwFirst f ≤ i) && decide (i < flwFirst f + flwN f))).getD []

/-! ### State of paths and flows -/

def Dev.setAet (d : Dev) (f : Aet → Aet) : Dev := { d with aet := f d.aet }
def Dev.path (d : Dev) (k : Nat) : AetPath := nth {} d.aet.paths k
def Dev.setPath (d : Dev) (k : Nat) (f : AetPath → AetPath) : Dev :=
  d.setAet (fun a => { a with paths := a.paths.set k (f (nth {} a.paths k)) })
def Dev.flow (d : Dev) (f : Nat) : AetFlow := nth {} d.aet.flows f
def Dev.setFlow (d : Dev) (f : Nat) (g : AetFlow → AetFlow) : Dev :=
  d.setAet (fun a => { a with flows := a.flows.set f (g (nth {} a.flows f)) })

/-- The AET block works. -/
def Dev.aetOn (d : Dev) : Bool := d.works 10

/-- Distance from `b` up to `a` in sequence arithmetic modulo 2^32 (AET.2). -/
def seqDiff (a b : Nat) : Nat := (a + 2 ^ 32 - b % 2 ^ 32) % 2 ^ 32

/-- `a` is at or above `b` in sequence arithmetic. -/
def seqGe (a b : Nat) : Bool := decide (seqDiff a b < 2 ^ 31)

/-- Bytes of a circular region of a memory space. -/
def Dev.circGet (d : Dev) (space base size p n : Nat) : List Nat :=
  let o := p % size
  if o + n ≤ size then d.memBytes space (base + o) n
  else d.memBytes space (base + o) (size - o) ++ d.memBytes space base (n - (size - o))

/-- Write bytes into a circular region of a memory space. -/
def Dev.circPut (d : Dev) (space base size p : Nat) (bs : List Nat) : Dev :=
  let o := p % size
  let n := size - o
  if bs.length ≤ n then d.store space (base + o) bs false
  else (d.store space (base + o) (bs.take n) false).store space base (bs.drop n) false

/-- Bytes of a list of segments. -/
def segBytes (l : List AetSeg) : Nat := l.foldl (fun a s => a + s.len) 0

/-- Events that segments belong to. -/
def segEvents (l : List AetSeg) : Nat := (l.map (·.ev)).eraseDups.length

/-- The event that path `k` copies next, with its flow. -/
def Dev.nextCopy (d : Dev) (k : Nat) : Option (Nat × AetEvt) :=
  let f := flowOfPath d.aetSec k
  if f.isEmpty then none
  else ((d.flow (u8 f 0)).queue.find? (fun e => pathOfEvent d.aetSec f e.ev == k)).map (fun e => (u8 f 0, e))

/-- The retention region of path `k` has room for an event (R799). -/
def Dev.retRoom (d : Dev) (k : Nat) (e : AetEvt) : Bool :=
  decide (segBytes (d.path k).segs + e.len ≤ pthSize (d.pthRec k))

/-- Bring RET and FULL of a path up to date. -/
def Dev.aetSync (d : Dev) (k : Nat) : Dev :=
  let d := d.wri R.AET_PATH_RET k (segBytes (d.path k).segs)
  d.flagi R.AET_PATH_FULL k (match d.nextCopy k with
    | some (_, e) => !d.retRoom k e
    | none => false)

/-- Free space that a flow's send queue offers (R797). A region freed behind an event still queued is not offered. -/
def Dev.aetSpace (d : Dev) (f : Nat) : Nat :=
  let q := d.flow f
  let size := flwSize (d.flwRec f)
  match q.queue with
  | [] => size
  | e :: _ => size - (q.wpos - e.pos)

/-- The builder hands an event to a flow (R785, R797, R798). -/
def Dev.aetPush (d : Dev) (f evNo : Nat) (bs : List Nat) : Dev :=
  let r := d.flwRec f
  let q := d.flow f
  let d := d.circPut 1 (flwBase r) (flwSize r) q.wpos bs
  let e : AetEvt := { ev := q.count, evNo := evNo, pos := q.wpos, len := bs.length }
  let d := d.setFlow f (fun q => { queue := q.queue ++ [e], count := q.count + 1, wpos := q.wpos + bs.length })
  d.aetSync (pathOfEvent d.aetSec r e.ev)

/-- Segments of an event (R798). -/
def segmentsOf (seg : Nat) (p : AetPath) (e : AetEvt) (now : Nat) : List AetSeg :=
  let n := cdiv e.len seg
  (List.range n).map (fun i =>
    { num := (p.newNum + i) % 2 ^ 32, ev := e.ev, evNo := e.evNo, off := i * seg, len := min seg (e.len - i * seg),
      first := i == 0, last := i + 1 == n, pos := p.wpos + i * seg, retAt := now })

/-- The copy of an event into retention ends (R799). -/
def retentionCopy (k : Nat) (d : Dev) : Dev :=
  match (if d.aetOn then d.nextCopy k else none) with
  | some (f, e) =>
    let r := d.pthRec k
    if !d.retRoom k e then d
    else
      let fr := d.flwRec f
      let p := d.path k
      let d := d.circPut 2 (pthBase r) (pthSize r) p.wpos (d.circGet 1 (flwBase fr) (flwSize fr) e.pos e.len)
      let l := segmentsOf (pthSeg r) p e d.beat
      let d := d.setPath k (fun p => { p with segs := p.segs ++ l, newNum := (p.newNum + l.length) % 2 ^ 32,
                                              wpos := p.wpos + e.len })
      let d := d.setFlow f (fun q => { q with queue := q.queue.filter (fun x => x.ev ≠ e.ev) })
      d.aetSync k
  | none => d

def execRetentionCopyDone (path : Nat) (s : State) : Host.Outcome State Fault Refusal :=
  unit (decide (path < 32)) (onDev (retentionCopy path) s)

/-! ### Datagrams (AET.2) -/

/-- A datagram: type, FLAGS, PATH, SESSION, SEQ, OFF, AUX, WIN, and its data. -/
structure Dgram where
  ty : Nat
  flags : Nat := 0
  path : Nat
  session : Nat := 0
  seq : Nat := 0
  off : Nat := 0
  aux : Nat := 0
  win : Nat := 0
  data : List Nat := []
deriving DecidableEq, Repr

/-- The bytes of a datagram (R795). -/
def Dgram.bytes (g : Dgram) : List Nat :=
  let h := [16 + g.ty, g.flags] ++ beBytes 2 g.path ++ beBytes 4 g.session ++ beBytes 4 g.seq ++ beBytes 4 g.off ++
    beBytes 8 g.aux ++ beBytes 2 g.data.length ++ beBytes 2 g.win
  h ++ beBytes 4 (crc32c (h ++ g.data)) ++ g.data

/-- The fields of a received datagram. -/
def readDgram (u : List Nat) : Dgram :=
  { ty := u8 u 0 % 16, flags := u8 u 1, path := be16 u 2, session := be32 u 4, seq := be32 u 8, off := be32 u 12,
    aux := beVal (bytesAt u 16 8), win := be16 u 26, data := u.drop 32 }

/-- A datagram meets the layout of AET.2, with the fields that its type gives as 0. -/
def dgramLayout (u : List Nat) : Bool :=
  let g := readDgram u
  let noData := g.off == 0 && g.aux == 0 && g.data.isEmpty
  decide (32 ≤ u.length) && u8 u 0 / 16 == 1 && be16 u 24 == g.data.length &&
    (match g.ty with
     | 1 => decide (g.flags < 8) && g.win == 0
     | 2 => g.flags == 0 && g.off == 0 && g.data.isEmpty
     | 3 => g.flags == 0 && noData && g.win == 0
     | 4 => decide (g.flags < 2) && noData
     | 5 => g.flags == 0 && g.session == 0 && g.seq == 0 && g.off == 0 && g.aux == 0 && g.data.length == 64 && g.win == 0
     | _ => false)

/-- The CRC of a datagram matches (R796). -/
def dgramCrc (u : List Nat) : Bool := be32 u 28 == crc32c (u.take 28 ++ u.drop 32)

/-- A path sends a datagram to its receiver. -/
def Dev.pathSend (d : Dev) (k : Nat) (g : Dgram) : Dev :=
  let r := d.pthRec k
  (d.emit (.udp (pthPort r) (bytesAt r 32 6) (bytesAt r 40 16) (u16 r 38) g.bytes)).setPath k
    (fun p => { p with lastTx := d.beat })

/-! ### Sessions and transmit opportunities (AET.3) -/

/-- BASE of a HELLO (R802). -/
def AetPath.base (p : AetPath) : Nat :=
  match p.segs with
  | s :: _ => s.num
  | [] => p.newNum

/-- RTO of a path in beats (R806). -/
def Dev.rto (d : Dev) (k : Nat) : Nat := pthRto (d.pthRec k) * 2 ^ d.rdi R.AET_PATH_RTO_X k

/-- A segment is marked in a SACK bitmap with its CUM. -/
def sacked (cum sack num : Nat) : Bool :=
  let i := seqDiff num (cum + 1)
  decide (i < 64) && bitAt sack i

/-- Segments in flight (R804). -/
def Dev.inFlight (d : Dev) (k : Nat) : List AetSeg :=
  let cum := d.rdi R.AET_PATH_CUM k
  (d.path k).segs.filter (fun s => s.sentAt.isSome && !sacked cum (d.path k).sack s.num)

/-- A path begins (R796a, R803). -/
def Dev.pathBegin (d : Dev) (k : Nat) : Dev :=
  let (v, d) := d.freeVal 32
  let d := d.setPath k (fun _ => {})
  let d := (d.wri R.AET_PATH_SESSION k v).wri R.AET_PATH_STATE k 1
  let d := ((d.wri R.AET_PATH_CUM k 0).wri R.AET_PATH_NEXT k 0).wri R.AET_PATH_RTO_X k 0
  (d.flagi R.AET_PATH_WINDOW k false).aetSync k

/-- A path enters HELLO again (R803). -/
def Dev.rehello (d : Dev) (k : Nat) : Dev :=
  ((d.wri R.AET_PATH_STATE k 1).inci R.AET_PATH_REHELLO k).setPath k (fun p => { p with helloAt := none, timeouts := 0 })

/-- CUM of a path rises to a number: segments it passes are released (R800), and the timeout starts again (R806). -/
def Dev.raiseCum (d : Dev) (k cum : Nat) : Dev :=
  let adv := cum ≠ d.rdi R.AET_PATH_CUM k
  let d := d.wri R.AET_PATH_CUM k cum
  let d := if seqGe (d.rdi R.AET_PATH_NEXT k) cum then d else d.wri R.AET_PATH_NEXT k cum
  let d := d.setPath k (fun p => { p with segs := p.segs.filter (fun s => seqGe s.num cum),
                                          timeouts := if adv then 0 else p.timeouts })
  (if adv then d.wri R.AET_PATH_RTO_X k 0 else d).aetSync k

/-- An acknowledgement of an OPEN path (R807): CUM, SACK bitmap and WIN; the segments it shows missing become due
(R805). -/
def Dev.ack (d : Dev) (k cum sack win : Nat) : Dev :=
  if seqDiff cum (d.rdi R.AET_PATH_CUM k) ≤ seqDiff (d.rdi R.AET_PATH_NEXT k) (d.rdi R.AET_PATH_CUM k) then
    let d := (d.raiseCum k cum).setPath k (fun p => { p with sack := sack, win := some win })
    let late (s : AetSeg) : Bool := match s.sentAt with
      | some b => decide (b + d.rto k / 4 ≤ d.beat)
      | none => false
    let higher (s : AetSeg) : Bool := (List.range 64).any (fun i => bitAt sack i && decide (seqDiff s.num cum < i + 1))
    d.setPath k (fun p => { p with segs := p.segs.map (fun s =>
      if s.due = 0 ∧ late s ∧ !sacked cum sack s.num ∧ higher s then { s with due := 2 } else s) })
  else d.inci R.AET_PATH_BAD_ACK k

/-- An ACK datagram (R807). -/
def Dev.onAck (d : Dev) (g : Dgram) : Dev :=
  if (d.pthRec g.path).isEmpty then d
  else if d.rdi R.AET_PATH_STATE g.path = 2 ∧ g.session = d.rdi R.AET_PATH_SESSION g.path then
    d.ack g.path g.seq g.aux g.win
  else d.inci R.AET_PATH_BAD_ACK g.path

/-- A HELLO_ACK datagram (R802, R808). -/
def Dev.onHelloAck (d : Dev) (g : Dgram) : Dev :=
  let k := g.path
  if (d.pthRec k).isEmpty || g.session ≠ d.rdi R.AET_PATH_SESSION k then d
  else if d.rdi R.AET_PATH_STATE k = 2 then d.ack k g.seq 0 g.win
  else if d.rdi R.AET_PATH_STATE k = 1 then
    let base := (d.path k).base
    let d := d.raiseCum k (if seqGe g.seq base then g.seq else base)
    (d.wri R.AET_PATH_STATE k 2).setPath k (fun p => { p with sack := 0, win := some g.win, helloAt := none, timeouts := 0 })
  else d

/-- Data of a segment, from Tier 2 (R801). -/
def Dev.segData (d : Dev) (k : Nat) (s : AetSeg) : List Nat :=
  d.circGet 2 (pthBase (d.pthRec k)) (pthSize (d.pthRec k)) s.pos s.len

/-- Transmit a segment (R804, R805). -/
def Dev.sendSeg (d : Dev) (k : Nat) (s : AetSeg) (retx : Bool) : Dev :=
  let fl := b2n s.first + 2 * b2n s.last + 4 * b2n retx
  let d := d.pathSend k { ty := 1, flags := fl, path := k, session := d.rdi R.AET_PATH_SESSION k, seq := s.num,
                          off := s.off, aux := s.evNo, data := d.segData k s }
  let d := d.setPath k (fun p => { p with segs := p.segs.map (fun x =>
    if x.num = s.num then { x with sentAt := some d.beat, due := 0 } else x) })
  d.wri R.AET_PATH_SENT k (d.rdi R.AET_PATH_SENT k + 1)

/-- Transmit a HELLO (R802, R808). -/
def Dev.sendHello (d : Dev) (k : Nat) : Dev :=
  (d.pathSend k { ty := 3, path := k, session := d.rdi R.AET_PATH_SESSION k, seq := (d.path k).base }).setPath k
    (fun p => { p with helloAt := some d.beat })

/-- A HELLO is due: in HELLO by R802, in OPEN as a window probe by R808. -/
def Dev.helloDue (d : Dev) (k : Nat) : Bool :=
  let p := d.path k
  if d.rdi R.AET_PATH_STATE k = 1 then
    match p.helloAt with
    | some b => decide (b + pthRto (d.pthRec k) ≤ d.beat)
    | none => true
  else p.win == some 0 && (d.inFlight k).isEmpty && decide (p.lastTx + d.rto k ≤ d.beat)

/-- The port of a path is paused by PFC. -/
def Dev.aetPaused (d : Dev) (port : Nat) : Bool := decide (d.beat < nth 0 d.aet.paused port)

/-- A transmit opportunity (R804). -/
def pathTx (k : Nat) (d : Dev) : Dev :=
  let r := d.pthRec k
  let port := pthPort r
  if !d.aetOn || r.isEmpty || d.rdi R.AET_PATH_STATE k = 0 || (d.beat - d.sq.planAt) % max 1 (pthPeriod r) ≠ 0 then d
  else
    let d := d.flagi R.AET_PATH_WINDOW k false
    if d.rdi R.AET_PORT_LINK port ≠ 2 || d.aetPaused port then d
    else if d.helloDue k then d.sendHello k
    else
      let p := d.path k
      match p.segs.find? (fun s => s.due ≠ 0) with
      | some s => (d.sendSeg k s true).inci (if s.due = 2 then R.AET_PATH_RETX_SACK else R.AET_PATH_RETX_TO) k
      | none =>
        match p.segs.find? (fun s => s.sentAt.isNone) with
        | some s =>
          if (d.inFlight k).length < min (pthWinMax r) (p.win.getD 0) then
            (d.sendSeg k s false).wri R.AET_PATH_NEXT k (s.num + 1)
          else d.flagi R.AET_PATH_WINDOW k true
        | none => d

def execPathTxOpportunity (path : Nat) (s : State) : Host.Outcome State Fault Refusal :=
  unit (decide (path < 32)) (onDev (pathTx path) s)

/-- A retransmission timeout (R803, R805, R806). -/
def rtoExpiry (k : Nat) (d : Dev) : Dev :=
  let rto := d.rto k
  let out (s : AetSeg) : Bool := s.due == 0 && (match s.sentAt with
    | some b => decide (b + rto ≤ d.beat)
    | none => false)
  if !d.aetOn || d.rdi R.AET_PATH_STATE k = 0 || !(d.path k).segs.any out then d
  else
    let opened := d.rdi R.AET_PATH_STATE k = 2
    let d := d.setPath k (fun p => { p with segs := p.segs.map (fun s => if out s then { s with due := 1 } else s),
                                            timeouts := if opened then p.timeouts + 1 else p.timeouts })
    let d := d.wri R.AET_PATH_RTO_X k (min 6 (d.rdi R.AET_PATH_RTO_X k + 1))
    if 8 ≤ (d.path k).timeouts then d.rehello k else d

def execRtoExpiry (path : Nat) (s : State) : Host.Outcome State Fault Refusal :=
  unit (decide (path < 32)) (onDev (rtoExpiry path) s)

/-- Events retained for GIVEUP_MS are released with those before them (R809). -/
def giveup (k : Nat) (d : Dev) : Dev :=
  let g := flwGiveup (flowOfPath d.aetSec k) * 250000
  let p := d.path k
  match (p.segs.filter (fun s => decide (s.retAt + g ≤ d.beat))).getLast? with
  | some s =>
    if !d.aetOn || g = 0 then d
    else
      let gone := p.segs.takeWhile (fun x => x.ev ≠ s.ev) ++ p.segs.filter (fun x => x.ev = s.ev)
      let d := d.addi R.AET_PATH_LOST k (segEvents gone)
      let d := d.setPath k (fun p => { p with segs := p.segs.drop gone.length })
      let base := (d.path k).base
      let d := if seqGe (d.rdi R.AET_PATH_NEXT k) base then d else d.wri R.AET_PATH_NEXT k base
      (d.rehello k).aetSync k
  | none => d

def execGiveupExpiry (path : Nat) (s : State) : Host.Outcome State Fault Refusal :=
  unit (decide (path < 32)) (onDev (giveup path) s)

/-! ### Peers (AET.5) -/

def perSend (r : List Nat) : Bool := bitAt (u8 r 2) 0
def perRecv (r : List Nat) : Bool := bitAt (u8 r 2) 1

/-- DECISION datagrams of a valid decision (R816). -/
def Dev.sendDecision (d : Dev) (rec_ : List Nat) : Dev :=
  (aetPeers (d.sec 13)).foldl (fun a r =>
    if perSend r && a.aetOn && a.rdi R.AET_PORT_LINK (u8 r 1) == 2 then
      a.emit (.udp (u8 r 1) (bytesAt r 4 6) (bytesAt r 12 16) (u16 r 10)
        ({ ty := 5, path := u8 r 0, data := rec_ } : Dgram).bytes)
    else a) d

/-- Source address and port of a datagram's frame, in the form of an address field. -/
def udpSource (n : NetAddr) (f : List Nat) : List Nat × Nat :=
  let a := f.drop (ethHead f).2.2
  if n.v6 then (bytesAt a 8 16, be16 a 40) else (bytesAt a 12 4 ++ List.replicate 12 0, be16 a 20)

/-- A DECISION datagram arrives on a port (R817, R821). -/
def Dev.onDecision (d : Dev) (port : Nat) (src : List Nat × Nat) (g : Dgram) : Dev :=
  if !d.planActive then d
  else match (aetPeers d.aetSec).find? (fun r => perRecv r && u8 r 1 == port && (bytesAt r 12 16, u16 r 10) == src) with
    | some r =>
      (d.store 0 (aetPeerBase d.aetSec + 4096 * u8 r 0 + 64 * (u64 g.data 0 % 64)) g.data false).inc R.AET_CNT_PEER_RX
    | none => d.inc R.AET_CNT_PEER_BAD

/-! ### Ports -/

/-- PFC (IEEE 802.1Qbb): class-enable vector and pause time of a priority, in quanta of 64 bytes. -/
def isPfc (f : List Nat) : Bool := let h := ethHead f; h.2.1 == 0x8808 && be16 f h.2.2 == 0x0101
def pfcTime (f : List Nat) (prio : Nat) : Option Nat :=
  let o := (ethHead f).2.2
  if bitAt (be16 f (o + 2)) prio then some (be16 f (o + 4 + 2 * prio)) else none

/-- A PFC frame for PRIO pauses a port, or resumes it (R794). -/
def Dev.onPfc (d : Dev) (p : Nat) (f : List Nat) : Dev :=
  let r := d.prtRec p
  match (if prtFlag r 3 then pfcTime f (u8 r 6) else none) with
  | some q => (d.inci R.AET_PORT_PFC_RX p).setAet (fun a => { a with paused := a.paused.set p (d.beat + cdiv (64 * q) (prtRate r)) })
  | none => d

/-- Act on a datagram addressed to a port (R793, R796). -/
def Dev.onDgram (d : Dev) (p : Nat) (f u : List Nat) : Dev :=
  let g := readDgram u
  if !dgramLayout u || !dgramCrc u then d.inc R.AET_CNT_BAD
  else match g.ty with
    | 2 => d.onAck g
    | 4 => d.onHelloAck g
    | 5 => d.onDecision p (udpSource (prtAddr (d.prtRec p)) f) g
    | _ => d.inc R.AET_CNT_UNKNOWN

/-- A frame arrives on an AET port (R793-R796). -/
def aetReceive (p : Nat) (f : List Nat) (d : Dev) : Dev :=
  let r := d.prtRec p
  if !d.aetOn || r.isEmpty || d.rdi R.AET_PORT_LINK p ≠ 2 then d
  else if isPause f then d.inci R.AET_PORT_PAUSE p
  else if isPfc f then d.onPfc p f
  else match udpPayload (prtAddr r) f with
    | some u => d.onDgram p f u
    | none =>
      let tx := { prtAddr r with vlan := (prtAddr r).vlan.map (fun v => v + 8192 * u8 r 6) }
      match (netAnswer (prtAddr r) f).bind (fun _ => netAnswer tx f) with
      | some a => d.emit (.frame (16 + p) a)
      | none => d.inc R.AET_CNT_UNKNOWN

/-- An ACK arrives (R807). -/
def ackReceived (port : Nat) (frame : List Nat) (d : Dev) : Dev := aetReceive port frame d
def execAckReceived (port : Nat) (frame : List Nat) (s : State) : Host.Outcome State Fault Refusal :=
  unit (decide (port < 16)) (onDev (ackReceived port frame) s)

/-- A HELLO_ACK arrives (R802, R808). -/
def helloAckReceived (port : Nat) (frame : List Nat) (d : Dev) : Dev := aetReceive port frame d
def execHelloAckReceived (port : Nat) (frame : List Nat) (s : State) : Host.Outcome State Fault Refusal :=
  unit (decide (port < 16)) (onDev (helloAckReceived port frame) s)

/-- A DECISION arrives (R817). -/
def decisionReceived (port : Nat) (frame : List Nat) (d : Dev) : Dev := aetReceive port frame d
def execDecisionReceived (port : Nat) (frame : List Nat) (s : State) : Host.Outcome State Fault Refusal :=
  unit (decide (port < 16)) (onDev (decisionReceived port frame) s)

/-- A frame arrives that may be no valid datagram for the port (R793). -/
def aetFrameDiscard (port : Nat) (frame : List Nat) (d : Dev) : Dev := aetReceive port frame d
def execAetFrameDiscard (port : Nat) (frame : List Nat) (s : State) : Host.Outcome State Fault Refusal :=
  unit (decide (port < 16)) (onDev (aetFrameDiscard port frame) s)

/-- A PFC frame arrives (R794). -/
def pfcReceived (port : Nat) (frame : List Nat) (d : Dev) : Dev := aetReceive port frame d
def execPfcReceived (port : Nat) (frame : List Nat) (s : State) : Host.Outcome State Fault Refusal :=
  unit (decide (port < 16)) (onDev (pfcReceived port frame) s)

/-- The receive buffer of a port crosses three quarters full upwards, or one quarter downwards (R794). -/
def aetRxLevel (port : Nat) (high : Bool) (d : Dev) : Dev :=
  if d.aetOn && prtFlag (d.prtRec port) 3 && d.rdi R.AET_PORT_LINK port == 2 then d.emit (.pfc port high) else d

def execAetRxBufferLevel (port : Nat) (high : Bool) (s : State) : Host.Outcome State Fault Refusal :=
  unit (decide (port < 16)) (onDev (aetRxLevel port high) s)

/-- LINK of an AET port, coded as for streams; a change raises event class 6 (HIF.3). -/
def Dev.setAetLink (d : Dev) (p v : Nat) : Dev :=
  if d.rdi R.AET_PORT_LINK p = v then d else (d.wri R.AET_PORT_LINK p v).evt 6

/-- An AET port comes up, or goes down and retries (R698, R793). -/
def Dev.aetUp (d : Dev) (p : Nat) : Dev :=
  let k := d.rdi R.AET_PORT_LINK p
  if d.aetOn && (k == 1 || k == 3) then d.setAetLink p 2 else d
def Dev.aetDown (d : Dev) (p : Nat) : Dev :=
  if d.aetOn && d.rdi R.AET_PORT_LINK p ≠ 0 then d.setAetLink p 3 else d

/-- A stream or AET port comes up (R698). -/
def execStreamPortLinkUp (aet : Bool) (port : Nat) (s : State) : Host.Outcome State Fault Refusal :=
  unit (decide (port < 16)) (onDev (fun d => if aet then d.aetUp port else d.streamUp port) s)

/-- A stream or AET port goes down (R698). -/
def execStreamPortLinkDown (aet : Bool) (port : Nat) (s : State) : Host.Outcome State Fault Refusal :=
  unit (decide (port < 16)) (onDev (fun d => if aet then d.aetDown port else d.streamDown port) s)

/-! ### Plan changes and resets (AET.6) -/

/-- A path is the same in two sections. -/
def pathSame (old new : List Nat) (k : Nat) : Bool :=
  let a := recOf (aetPaths old) k
  let b := recOf (aetPaths new) k
  !a.isEmpty && !b.isEmpty && prtSame (recOf (aetPorts old) (pthPort a)) (recOf (aetPorts new) (pthPort b)) &&
    u8 a 2 == u8 b 2 && pthSeg a == pthSeg b && bytesAt a 16 24 == bytesAt b 16 24 && bytesAt a 40 16 == bytesAt b 40 16

/-- Path numbers of a flow. -/
def flowPaths (s flow : List Nat) : List Nat :=
  (List.range (flwN flow)).map (fun i => u8 (nth [] (aetPaths s) (flwFirst flow + i)) 0)

/-- A flow is the same in two sections. -/
def flowSame (old new : List Nat) (f : Nat) : Bool :=
  let a := recOf (aetFlows old) f
  let b := recOf (aetFlows new) f
  !a.isEmpty && !b.isEmpty && bytesAt a 8 16 == bytesAt b 8 16 && flwKeep b &&
    flowPaths old a == flowPaths new b && (flowPaths old a).all (pathSame old new)

/-- An AETCFG section ends, or begins, for one path (R819, R820). -/
def Dev.pathPlan (d : Dev) (old new : List Nat) (k : Nat) : Dev :=
  if pathSame old new k then d.aetSync k
  else
    let d := d.addi R.AET_PATH_LOST k (segEvents (d.path k).segs)
    if !(recOf (aetPaths new) k).isEmpty then d.pathBegin k
    else ((d.setPath k (fun _ => {})).wri R.AET_PATH_STATE k 0).aetSync k

/-- One flow at a plan change (R819, R820): a flow that is not the same loses its queue. -/
def Dev.flowPlan (d : Dev) (old new : List Nat) (f : Nat) : Dev :=
  if flowSame old new f then d
  else
    let r := recOf (aetFlows old) f
    let d := (d.flow f).queue.foldl (fun a e => a.addi R.AET_PATH_LOST (pathOfEvent old r e.ev) 1) d
    d.setFlow f (fun _ => {})

/-- Ports at a plan change (R248, R249, R793). -/
def Dev.portPlan (d : Dev) (old new : List Nat) : Dev :=
  let was := (List.range 16).map (fun p => (recOf (aetPorts old) p, d.rdi R.AET_PORT_LINK p, nth 0 d.aet.paused p))
  (List.range 16).foldl (fun a p =>
    let r := recOf (aetPorts new) p
    match (if r.isEmpty then none else was.find? (fun o => prtSame o.1 r)) with
    | some o => (a.setAetLink p o.2.1).setAet (fun x => { x with paused := x.paused.set p o.2.2 })
    | none => (a.setAetLink p (if r.isEmpty then 0 else 1)).setAet (fun x => { x with paused := x.paused.set p 0 })) d

/-- A plan takes effect (R818-R820); it is the running plan already. -/
def Dev.aetPlan (d : Dev) (old new : List Nat) : Dev :=
  let d := (List.range 8).foldl (fun a f => a.flowPlan old new f) d
  let d := (List.range 32).foldl (fun a k => a.pathPlan old new k) d
  let d := d.portPlan old new
  d.stgZero (aetPeerBase new) (4096 * aetNPeer new)

/-- Everything AET holds starts again after a BLOCK reach (R822). -/
def Dev.aetRestart (d : Dev) : Dev :=
  let s := d.aetSec
  let d := (aetPorts s).foldl (fun a r => a.setAetLink (u8 r 0) 1) d
  (aetPaths s).foldl (fun a r => a.pathBegin (u8 r 0)) d

/-! ### Validity (R791, R792) -/

/-- No two elements of a list are equal, and all are below `n`. -/
def distinctBelow (n : Nat) (l : List Nat) : Bool := decide l.Nodup && l.all (fun x => decide (x < n))

/-- First-lane rule of a mode of `n` lanes, and lanes within 0-15. -/
def lanesOk (lane n : Nat) : Bool := decide (lane % n = 0) && decide (lane + n ≤ 16)

/-- An address field in its IP version. -/
def ipOk (v6 : Bool) (ip : List Nat) : Bool := v6 || zerosAt ip 4 12

/-- A port record is valid by itself. -/
def prtOk (r : List Nat) : Bool :=
  decide (u8 r 1 < 2) && decide (1 ≤ u8 r 3) && decide (u8 r 3 ≤ 3) && lanesOk (u8 r 2) (prtLanes r) &&
    decide (u8 r 4 < 16) && decide (u8 r 5 % 16 < 2 ^ prtLanes r) && decide (u8 r 5 / 16 < 2 ^ prtLanes r) &&
    decide (u8 r 6 < 8) && u8 r 7 == 0 && (if prtFlag r 2 then decide (1 ≤ u16 r 8) && decide (u16 r 8 ≤ 4094) else u16 r 8 == 0) &&
    decide (1 ≤ u16 r 10) && zerosAt r 12 4 && zerosAt r 22 10 && ipOk (prtFlag r 1) (bytesAt r 32 16) && zerosAt r 48 16

/-- A flow record is valid by itself. -/
def flwOk (s r : List Nat) : Bool :=
  let mib := 2 * 1024 * 1024
  decide (1 ≤ flwN r) && decide (flwN r ≤ 8) && decide (flwFirst r + flwN r ≤ aetNPath s) && decide (u8 r 3 < 2) &&
    decide (flwBase r % mib = 0) && decide (flwSize r % mib = 0) && decide (mib ≤ flwSize r) &&
    decide (flwSize r ≤ 16 * 2 ^ 30) && zerosAt r 24 8

/-- A path record is valid by itself. -/
def pthOk (s r : List Nat) : Bool :=
  let mib := 2 * 1024 * 1024
  let p := recOf (aetPorts s) (pthPort r)
  !p.isEmpty && decide (u8 r 2 < 8) && decide (u8 r 2 / 4 = u8 p 1) && u8 r 3 == 0 && decide (pthSeg r % 64 = 0) &&
    decide (1024 ≤ pthSeg r) && decide (pthSeg r ≤ 8960) && decide (1 ≤ pthWinMax r) && decide (pthWinMax r ≤ 16384) &&
    decide (64 ≤ pthPeriod r) && decide (pthPeriod r ≤ 1000000) && decide (2500 ≤ pthRto r) &&
    decide (pthRto r ≤ 250000000) && decide (pthBase r % mib = 0) && decide (pthSize r % mib = 0) &&
    decide (mib ≤ pthSize r) && within (pthBase r) (pthSize r) (u8 r 2 * 2 ^ 38) (2 ^ 38) &&
    ipOk (prtFlag p 1) (bytesAt r 40 16) && zerosAt r 56 8

/-- A peer record is valid by itself. -/
def perOk (s r : List Nat) : Bool :=
  let p := recOf (aetPorts s) (u8 r 1)
  !p.isEmpty && decide (u8 r 2 < 4) && u8 r 3 == 0 && ipOk (prtFlag p 1) (bytesAt r 12 16) && zerosAt r 28 4

/-- Lanes that the ports of a section use, as 16 times the die plus the lane. -/
def aetLanes (s : List Nat) : List Nat :=
  ((aetPorts s).map (fun r => (List.range (prtLanes r)).map (fun k => 16 * u8 r 1 + u8 r 2 + k))).flatten

/-- Path records that flows name. -/
def flowIndices (s : List Nat) : List Nat :=
  ((aetFlows s).map (fun r => (List.range (flwN r)).map (fun i => flwFirst r + i))).flatten

/-- An AETCFG section is valid by itself (R791); its regions are compared with the plan's others elsewhere. -/
def aetValid (s : List Nat) : Bool :=
  s.length == 16 + 64 * aetNPort s + 32 * aetNFlow s + 64 * aetNPath s + 32 * aetNPeer s &&
    decide (1 ≤ aetNPort s) && decide (aetNPort s ≤ 16) && decide (1 ≤ aetNFlow s) && decide (aetNFlow s ≤ 8) &&
    decide (1 ≤ aetNPath s) && decide (aetNPath s ≤ 32) && decide (aetNPeer s ≤ 16) && decide (aetPeerBase s % 256 = 0) &&
    (aetNPeer s != 0 || aetPeerBase s == 0) && zerosAt s 8 8 &&
    distinctBelow (aetNPort s) ((aetPorts s).map (u8 · 0)) && distinctBelow (aetNFlow s) ((aetFlows s).map (u8 · 0)) &&
    distinctBelow (aetNPath s) ((aetPaths s).map (u8 · 0)) && distinctBelow (aetNPeer s) ((aetPeers s).map (u8 · 0)) &&
    (aetPorts s).all prtOk && (aetFlows s).all (flwOk s) && (aetPaths s).all (pthOk s) && (aetPeers s).all (perOk s) &&
    decide (aetLanes s).Nodup && decide (flowIndices s).Nodup && decide ((flowIndices s).length = aetNPath s)

/-- Send queues, in Tier 1, and retention regions, in Tier 2: base and size. -/
def aetQueues (s : List Nat) : List (Nat × Nat) := (aetFlows s).map (fun r => (flwBase r, flwSize r))
def aetRegions (s : List Nat) : List (Nat × Nat) := (aetPaths s).map (fun r => (pthBase r, pthSize r))

/-- A sum of fractions is at most a whole number. -/
def fracLe (l : List (Nat × Nat)) (n : Nat) : Bool :=
  let x := l.foldl (fun a q => (a.1 * q.2 + q.1 * a.2, a.2 * q.2)) (0, 1)
  decide (x.1 ≤ n * x.2)

/-- Bytes on the wire of a datagram of `n` bytes of data on a port (R792). -/
def wireBytes (p : List Nat) (n : Nat) : Nat :=
  n + 32 + 8 + (if prtFlag p 1 then 40 else 20) + 14 + (if prtFlag p 2 then 4 else 0) + 4 + 8 + 12

/-- The rates of a section fit its ports and channels, for a frame length (R792). -/
def aetRates (s : List Nat) (len : Nat) : Bool :=
  (aetPorts s).all (fun p =>
    fracLe (((aetPaths s).filter (fun r => pthPort r == u8 p 0)).map (fun r => (wireBytes p (pthSeg r), pthPeriod r)) ++
      ((aetPeers s).filter (fun r => perSend r && u8 r 1 == u8 p 0)).map (fun _ => (wireBytes p 64, len))) (prtRate p)) &&
  (List.range 8).all (fun c =>
    fracLe (((aetPaths s).filter (fun r => u8 r 2 == c)).map (fun r => (pthSeg r, pthPeriod r))) 16)

end Sys2Proof.Machine
end

