-- ==== Sys2Proof/Machine/Trigger.lean ====
section
/-!
DEFINITION. The resident trigger service (chapter 17): DECIDE items, decision records, the DEC lines, the build queue
and the event builder.
-/

namespace Sys2Proof.Machine

/-! ### The TRIGGER section (TRG.1) -/

def tgLag (s : List Nat) : Nat := u8 s 0
def tgNBit (s : List Nat) : Nat := u8 s 1
def tgNScore (s : List Nat) : Nat := u8 s 2
def tgDepth (s : List Nat) : Nat := u8 s 3
def tgNVec (s : List Nat) : Nat := u16 s 4
def tgStreams (s : List Nat) : Nat := u16 s 6
def tgKeep (s : List Nat) : Nat := u32 s 8
def tgDest (s : List Nat) : Nat := u8 s 12
def tgBuild (s : List Nat) : Bool := bitAt (u8 s 13) 0
/-- Line record: MODE (0 OFF, 1 FRAME, 2 PHASE), PULSE, BITS. -/
def tgLine (s : List Nat) (l : Nat) : List Nat := bytesAt s (64 + 8 * l) 8
def lnMode (r : List Nat) : Nat := u8 r 0
def lnPulse (r : List Nat) : Nat := u8 r 1
def lnBits (r : List Nat) : Nat := u16 r 2
/-- Bit record: MODE (0 ANY, 1 COUNT, 2 SUM, 3 SAMPLE), SCORE, N, THRESH, PRESCALE. -/
def tgBit (s : List Nat) (b : Nat) : List Nat := bytesAt s (128 + 16 * b) 16

/-- The running plan's TRIGGER section; empty for none. -/
def Dev.tgSec (d : Dev) : List Nat := d.sec 12

def Dev.setTrg (d : Dev) (f : Trg → Trg) : Dev := { d with trg := f d.trg }

/-! ### Deciding (TRG.2) -/

/-- `x ≥ t`; a NaN never is. -/
def fvGe (x t : FV) : Bool := !x.isNan && !t.isNan && !x.lt t

/-- A trigger bit fires on the score tensor's bytes (R763). -/
def bitFires (s r scores : List Nat) : Bool :=
  let col := (List.range (tgNVec s)).map (fun v => elemAt true scores (v * tgNScore s + u8 r 1))
  let t := f32.decode (u32 r 4)
  match u8 r 0 with
  | 0 => col.any (fvGe · t)
  | 1 => decide (u16 r 2 ≤ countIf (fvGe · t) col)
  | 2 => match col with
    | [] => false
    | x :: l => fvGe (l.foldl add32 x) t
  | _ => true

/-- The bits that fire, as a mask. -/
def firedMask (s scores : List Nat) : Nat :=
  (List.range (tgNBit s)).foldl (fun a b => if bitFires s (tgBit s b) scores then a + 2 ^ b else a) 0

/-- The bits of a mask that pass their prescale (R764). -/
def passedMask (s : List Nat) (fires : List Nat) (fired : Nat) : Nat :=
  (setBits fired 16).foldl (fun a b => if nth 0 fires b % max 1 (u32 (tgBit s b) 8) = 0 then a + 2 ^ b else a) 0

/-- Values of the lines (R765). -/
def linesOf (s : List Nat) (passed : Nat) : Nat :=
  (List.range 8).foldl (fun a l => if lnBits (tgLine s l) &&& passed ≠ 0 then a + 2 ^ l else a) 0

/-- A decision record (TRG.2): FLAGS 1 VALID, 2 KEPT, 4 QFULL, 8 EARLY. -/
def decisionRecord (set fired passed lines flags stamp : Nat) : List Nat :=
  leBytes 8 set ++ leBytes 2 fired ++ leBytes 2 passed ++ [lines, flags, 0, 0] ++ leBytes 4 stamp ++ List.replicate 44 0

/-- TRG_LAST holds a decision record. -/
def Dev.setLast (d : Dev) (r : List Nat) : Dev := (List.range 16).foldl (fun a i => a.wri R.TRG_LAST i (u32 r (4 * i))) d

/-- Stamp and UNANCHORED of a frame of the running plan. -/
def Dev.frameInfo (d : Dev) (n : Nat) : Nat × Bool :=
  match d.trg.frames.find? (fun f => f.1 == n) with
  | some f => f.2
  | none => (0, false)

/-- A DECIDE item forms the decision of its frame (R763-R767). An EARLY decision's set belongs to no frame of the plan. -/
def Ctx.decide (c : Ctx) (r : Run) (it : Item) : Run :=
  let (r, ok) := c.useAll r it
  let d := r.d
  let s := d.tgSec
  let g := tgLag s
  let early := d.frameIdx < g
  let valid := ok && !early
  let fired := if valid then firedMask s (c.bytes r it.inA (4 * tgNVec s * tgNScore s)) else 0
  let passed := passedMask s d.trg.fires fired
  let lines := linesOf s passed
  let stamp := if early then 0 else (d.frameInfo (d.frameIdx - g)).1
  let rec_ := decisionRecord (d.rd R.TRG_SET) fired passed lines (b2n valid + 8 * b2n early) stamp
  let d := (d.wr R.TRG_SET (d.rd R.TRG_SET + 1)).setLast rec_
  let d := if valid then (d.inc R.TRG_VALID).wr R.TRG_STATUS_LINES lines
           else if early then d else d.inc R.TRG_INVALID
  let d := (setBits fired 16).foldl (fun a b => a.inci R.TRG_BIT_FIRE b) d
  let d := (setBits passed 16).foldl (fun a b => a.inci R.TRG_BIT_PASS b) d
  let d := d.setTrg (fun t => { t with
    fires := t.fires.zipIdx.map (fun x => if bitAt fired x.2 then x.1 + 1 else x.1)
    decided := some { rec_ := rec_, lines := lines, accepted := passed ≠ 0, valid := valid, early := early } })
  c.put { r with d := d } it.out rec_ ok

def execDecideItem (item : Nat) (s : State) : Host.Outcome State Fault Refusal := onDev (fun d => d.runItem item 8 Ctx.decide) s

/-! ### Decision lines (TRG.3) -/

/-- Start a pulse on an idle line (R769, R770, R772). -/
def Dev.decPulse (d : Dev) (l : Nat) : Dev :=
  if (nth none d.trg.pulses l).isSome then d
  else (d.setTrg (fun t => { t with pulses := t.pulses.set l (some (d.beat + lnPulse (tgLine d.tgSec l))) })).inci
    R.TRG_DEC_STROBES l

/-- A pulse has run its width (R769, R774). -/
def decPulseEnd (line : Nat) (d : Dev) : Dev :=
  match nth none d.trg.pulses line with
  | some b => if b ≤ d.beat then d.setTrg (fun t => { t with pulses := t.pulses.set line none }) else d
  | none => d

def execDecPulseEnd (line : Nat) (s : State) : Host.Outcome State Fault Refusal :=
  unit (decide (line < 8)) (onDev (decPulseEnd line) s)

/-- Lines may be strobed: a plan with a TRIGGER section runs and R42 is not cutting its frame (R774, R775). -/
def Dev.decOn (d : Dev) : Bool := d.works 9 && !d.tgSec.isEmpty && !d.cutOver

/-- A PHASE line's position: the held value is consumed and strobed (R770, R772). -/
def Dev.strobe (d : Dev) (l : Nat) : Dev :=
  if lnMode (tgLine d.tgSec l) ≠ 2 || (nth none d.trg.pulses l).isSome then d
  else
    let v := nth none d.trg.held l
    let d := d.setTrg (fun t => { t with held := t.held.set l none })
    if v = some true then d.decPulse l else d

/-- A DEC_STROBE action (R770). -/
def decStrobe (row : Nat) (d : Dev) : Dev :=
  match d.acting row 5 with
  | some e =>
    let d := d.acted
    if d.decOn then (setBits (rowArg e.bytes) 8).foldl Dev.strobe d else d
  | none => d

def execDecStrobe (row : Nat) (s : State) : Host.Outcome State Fault Refusal :=
  unit (decide (row < 1024)) (onDev (decStrobe row) s)

/-- A line takes its value of a valid decision at LAT_DEC (R769-R771). -/
def Dev.lineValue (d : Dev) (lines l : Nat) : Dev :=
  let v := bitAt lines l
  match lnMode (tgLine d.tgSec l) with
  | 1 => if v then d.decPulse l else d
  | 2 =>
    let d := if (nth none d.trg.held l).isSome then d.inci R.TRG_DEC_OVERRUN l else d
    d.setTrg (fun t => { t with held := t.held.set l (some v) })
  | _ => d

/-! ### The build queue (TRG.5) -/

/-- QUEUE shows the sets in the build queue. -/
def Dev.syncQueue (d : Dev) : Dev := d.wr R.TRG_STATUS_QUEUE d.trg.queue.length

/-- Append the decided set to the build queue (R778). -/
def Dev.enqueue (d : Dev) (rec_ : List Nat) : Dev :=
  let s := d.tgSec
  let n := d.frameIdx - tgLag s
  let q : QSet := { decFrame := some d.frameIdx, rec_ := rec_, planId := d.rd R.SEQ_PLAN_ID, event := d.trg.events,
                    unanch := (d.frameInfo n).2, streams := tgStreams s, setFrame := some n,
                    ledger := d.trg.ledger.filter (fun l => l.frame == n && decide (tgLag s ≤ d.frameIdx)) }
  (d.setTrg (fun t => { t with queue := t.queue ++ [q], events := t.events + 1 })).syncQueue

/-- What beat LAT_DEC does with a decision: queue, lines, peers (R769, R778, R779, R816). -/
def Dev.decisionAct (d : Dev) (x : Decided) : Dev :=
  let s := d.tgSec
  let due := !x.valid && tgKeep s ≠ 0 && d.trg.keep % tgKeep s == 0
  let d := if x.valid then d else d.setTrg (fun t => { t with keep := t.keep + 1 })
  let want := tgBuild s && ((x.valid && x.accepted) || due)
  let full := want && decide (tgDepth s ≤ d.trg.queue.length)
  let fl := u8 x.rec_ 13 + (if due && want && !full then 2 else 0) + (if full then 4 else 0)
  let lines := if full then 0 else x.lines
  let rec_ := x.rec_.take 12 ++ [lines, fl] ++ x.rec_.drop 14
  let d := d.setLast rec_
  let d := if full then d.inc R.TRG_QFULL else d
  let d := if full && x.valid then d.wr R.TRG_STATUS_LINES 0 else d
  let d := if want && !full then d.enqueue rec_ else d
  if x.valid then ((List.range 8).foldl (fun a l => a.lineValue lines l) d).sendDecision rec_ else d

/-- Beat LAT_DEC of the decision frame (R769, R776). -/
def decisionBeat (d : Dev) : Dev :=
  match d.trg.decided with
  | some x =>
    if d.framing && d.decOn && d.frameBeat == planLatDec d.sq.active d.sq.plan then
      (d.setTrg (fun t => { t with decided := none })).decisionAct x
    else d
  | none => d

def execDecisionBeat (s : State) : Host.Outcome State Fault Refusal := onDev decisionBeat s

/-! ### The event builder (TRG.5) -/

/-- Header of an event (TRG.5). -/
def eventHeader (q : QSet) (len nstream : Nat) (part : Bool) : List Nat :=
  let r := q.rec_
  let kept := !bitAt (u8 r 13) 0
  leBytes 4 0x56454E54 ++ leBytes 4 len ++ bytesAt r 0 8 ++ leBytes 4 q.planId ++ bytesAt r 16 4 ++ bytesAt r 8 4 ++
    [b2n kept + 2 * b2n part + 4 * b2n q.unanch + 8 * b2n q.degraded, nstream, u8 r 12, 0] ++ leBytes 8 q.event ++
    List.replicate 24 0

/-- A finished event: header, blocks, trailer. -/
def eventBytes (q : QSet) (b : Bld) : List Nat :=
  let body := eventHeader q (128 + b.out.length) (setBits q.streams 16).length b.part ++ b.out
  body ++ leBytes 4 (crc32c body) ++ List.replicate 60 0

/-- Header of a stream block. -/
def blockHeader (s : Nat) (l : Option Ledg) (b : Bld) : List Nat :=
  let (f, e) := match l with
    | some l => (l.first, l.last)
    | none => (0, 0)
  [s, b2n l.isNone + 2 * b2n b.partBlock, 0, 0] ++ leBytes 4 b.nrec ++ leBytes 4 f ++ leBytes 4 e ++
    leBytes 4 b.recs.length ++ List.replicate 44 0

/-- A window number lies within a ledger's windows. -/
def Ledg.has (l : Ledg) (w : Nat) : Bool := decide (seqDiff w l.first ≤ seqDiff l.last l.first)

/-- A record of the ring was left out (R784). -/
def Bld.leave (b : Bld) (pos : Nat) : Bld := { b with pos := pos, partBlock := true, part := true }

/-- What one move of the builder did. -/
inductive BldMove where
  /-- It goes on, having moved `n` bytes. -/
  | go (d : Dev) (n : Nat)
  /-- It needs `n` more bytes of its budget, waits for a window, has no AET space, or has nothing to build. -/
  | short
  | wait
  | noSpace
  | idle

/-- Change the builder. -/
def Dev.setBld (d : Dev) (b : Bld) : Dev := d.setTrg (fun t => { t with bld := b })

/-- Read the next record of a stream's ring (R782, R784): the header decides whether it is copied. -/
def Dev.buildRecord (d : Dev) (b : Bld) (l : Ledg) (credit : Nat) : BldMove :=
  let k := ringRec (d.lastSec 18) l.ring
  let base := u64 k 0
  let size := max 64 (u64 k 8)
  let wp := d.rdi R.MEM_RAW_WP l.ring
  if b.pos + size < wp then .go ((d.inc R.MEM_CNT_RAW_OVR).setBld (b.leave (wp - size))) 0
  else
    let h := d.circGet 1 base size b.pos 32
    if u32 h 28 ≠ crc32c (h.take 28) then .go (d.setBld (b.leave (b.pos + 64))) 0
    else
      let n := (32 + u16 h 0 + 63) / 64 * 64
      if !l.has (u32 h 4) then .go (d.setBld { b with pos := b.pos + n }) 0
      else if credit < n then .short
      else .go (d.setBld { b with pos := b.pos + n, nrec := b.nrec + 1, recs := b.recs ++ d.circGet 1 base size b.pos n }) n

/-- The head of the queue is built: it goes to AET (R785). -/
def Dev.handOver (d : Dev) (q : QSet) (b : Bld) : Dev :=
  let e := eventBytes q b
  let d := d.setTrg (fun t => { t with queue := t.queue.drop 1, bld := {} })
  let d := (d.wr R.TRG_EVT (d.rd R.TRG_EVT + 1)).wr R.TRG_BYTES (d.rd R.TRG_BYTES + e.length)
  let d := if b.part then d.inc R.TRG_PARTIAL else d
  d.syncQueue.aetPush (tgDest d.tgSec) q.event e

/-- One move of the builder with a budget of `credit` bytes (R781-R785). -/
def Dev.buildMove (d : Dev) (credit : Nat) : BldMove :=
  match d.trg.queue with
  | [] => .idle
  | q :: _ =>
    let b := d.trg.bld
    let space := d.aetSpace (tgDest d.tgSec)
    let used := (if b.begun then 64 else 0) + b.out.length + (if b.inBlock then 64 + b.recs.length else 0)
    let may (n : Nat) (k : BldMove) : BldMove := if credit < n then .short else if space < used + n then .noSpace else k
    if !b.begun then may 64 (.go (d.setBld { b with begun := true }) 64)
    else if 16 ≤ b.stream then may 64 (.go (d.handOver q b) 64)
    else if !bitAt q.streams b.stream then .go (d.setBld { b with stream := b.stream + 1 }) 0
    else
      let l := q.ledger.find? (fun x => x.stream == b.stream)
      let next (b : Bld) : Bld := { begun := true, out := b.out ++ blockHeader b.stream l b ++ b.recs,
                                    stream := b.stream + 1, part := b.part }
      if !b.inBlock then
        may 64 (.go (d.setBld { b with inBlock := true, pos := (l.map (·.start)).getD 0 }) 64)
      else match l with
        | none => .go (d.setBld (next b)) 0
        | some l =>
          match l.endP with
          | none => .wait
          | some e =>
            if e ≤ b.pos then .go (d.setBld (next b)) 0
            else match d.buildRecord b l credit with
              | .go d' n => if space < used + n then .noSpace else .go d' n
              | m => m

/-- Moves of the builder until its budget is used; a stall ends the item (R783). -/
def Dev.buildMoves (d : Dev) (fuel credit : Nat) : Dev :=
  match fuel with
  | 0 => d.setTrg (fun t => { t with credit := credit })
  | fuel + 1 =>
    match d.buildMove credit with
    | .go d' n => d'.buildMoves fuel (credit - n)
    | .short => d.setTrg (fun t => { t with credit := credit })
    | .noSpace => (d.setTrg (fun t => { t with credit := 0 })).flag R.TRG_STATUS_STALL true
    | _ => d.setTrg (fun t => { t with credit := 0 })

/-- Records and streams that the queued ledgers can hold at most: what bounds the moves of one item. -/
def Dev.buildBound (d : Dev) : Nat :=
  d.trg.queue.foldl (fun a q => a + 64 + q.ledger.foldl (fun b l => b + ((l.endP.getD l.start) - l.start) / 64 + 2) 0) 64

/-- A BUILD item (R781-R783). -/
def Ctx.build (_ : Ctx) (r : Run) (it : Item) : Run :=
  let d := r.d.flag R.TRG_STATUS_STALL false
  if tgBuild d.tgSec && d.works 9 then { r with d := d.buildMoves d.buildBound (d.trg.credit + 64 * (it.dur - 16)) } else r

def execBuildItem (item : Nat) (s : State) : Host.Outcome State Fault Refusal := onDev (fun d => d.runItem item 9 Ctx.build) s

/-! ### Frames and plan changes (TRG.6) -/

/-- A frame begins: its stamp and UNANCHORED flag are kept for its set's decision. -/
def Dev.trgFrame (d : Dev) (n : Nat) (unanch : Bool) : Dev :=
  d.setTrg (fun t => { t with decided := none
                              frames := (n, d.stamp, unanch) :: t.frames.take 7
                              ledger := t.ledger.filter (fun l => decide (n < l.frame + 8)) })

/-- A frame ends with a status (R374): queued sets that it decided learn whether it was DEGRADED. -/
def Dev.trgFrameEnd (d : Dev) (degraded : Bool) : Dev :=
  d.setTrg (fun t => { t with decided := none, queue := t.queue.map (fun q =>
    if q.decFrame = some d.frameIdx then { q with decFrame := none, degraded := degraded } else q) })

/-- RUN, LAG and BUILD of the running plan. -/
def Dev.syncTrg (d : Dev) : Dev :=
  let s := d.tgSec
  ((d.flag R.TRG_STATUS_RUN (!s.isEmpty)).wr R.TRG_STATUS_LAG (tgLag s)).flag R.TRG_STATUS_BUILD (tgBuild s)

/-- A plan takes effect (R787-R790); `kept` are the raw rings that keep their WP. -/
def Dev.trgPlan (d : Dev) (kept : List Nat) : Dev :=
  let stays (q : QSet) : Bool := tgBuild d.tgSec && q.ledger.all (fun l => kept.contains l.ring)
  let gone := d.trg.queue.filter (fun q => !stays q)
  let headGoes := match d.trg.queue with
    | q :: _ => !stays q
    | [] => true
  let d := d.addi R.TRG_BDROP 0 gone.length
  let d := d.setTrg (fun t => { t with
    fires := List.replicate 16 0, keep := 0, decided := none, held := List.replicate 8 none, ledger := [], frames := []
    queue := (t.queue.filter stays).map (fun q => { q with decFrame := none, setFrame := none })
    bld := if headGoes then {} else t.bld, credit := 0 })
  d.syncQueue.syncTrg

/-- HALTED, or planned work stops for good: lines become idle but for pulses that run (R775, R789). -/
def Dev.trgHalt (d : Dev) : Dev :=
  (d.setTrg (fun t => { t with decided := none, held := List.replicate 8 none })).syncTrg

/-! ### Validity (R759-R762, R780) -/

/-- A TRIGGER section is valid (R759). -/
def trgValid (s : List Nat) : Bool :=
  s.length == 128 + 16 * tgNBit s && decide (1 ≤ tgLag s) && decide (tgLag s ≤ 4) && decide (1 ≤ tgNBit s) &&
    decide (tgNBit s ≤ 16) && decide (1 ≤ tgNScore s) && decide (tgNScore s ≤ 64) && decide (1 ≤ tgDepth s) &&
    decide (tgDepth s ≤ 64) && decide (1 ≤ tgNVec s) && decide (tgNVec s ≤ 1024) && decide (tgKeep s ≤ 16777216) &&
    decide (u8 s 13 < 2) && zerosAt s 14 50 &&
    (List.range 8).all (fun l =>
      let r := tgLine s l
      decide (lnMode r < 3) && (if lnMode r = 0 then lnPulse r == 0 else decide (1 ≤ lnPulse r)) &&
        decide (lnBits r < 2 ^ tgNBit s) && zerosAt r 4 4) &&
    (List.range (tgNBit s)).all (fun b =>
      let r := tgBit s b
      let m := u8 r 0
      decide (m < 4) && (if m = 3 then u8 r 1 == 0 && u32 r 4 == 0 else decide (u8 r 1 < tgNScore s)) &&
        (if m = 1 then decide (1 ≤ u16 r 2) && decide (u16 r 2 ≤ tgNVec s) else u16 r 2 == 0) &&
        !(f32.decode (u32 r 4)).nonFinite && decide (1 ≤ u32 r 8) && decide (u32 r 8 ≤ 16777216) && zerosAt r 12 4)

/-- A DECIDE item's operands agree with the section (R762, check 13). -/
def decideOperands (s : List Nat) (it : Item) : Bool :=
  it.unit == 0 && it.inB == noTok && it.o16 0 == tgNVec s && it.o8 2 == tgNScore s && zerosAt it.ops 3 13

/-- DUR of a DECIDE item (R762, check 9). -/
def decideDur (s : List Nat) (it : Item) : Bool := decide (cdiv (tgNVec s * tgNScore s) 256 + 8 ≤ it.dur)

/-- A BUILD item's fields. -/
def buildOperands (it : Item) : Bool :=
  it.unit == 0 && it.inA == noTok && it.inB == noTok && it.out == noTok && zerosAt it.ops 0 16

/-- The section type that R760, R761 or R780 finds at fault in one variant of a plan: 1 the plan record, 3 its items,
12 its TRIGGER section (check 5). -/
def trgFault (s : List Nat) (latDec len : Nat) (items : List Item) : Option Nat :=
  let dec := items.filter (fun it => it.op == 8)
  let bld := items.filter (fun it => it.op == 9)
  if s.isEmpty then if latDec ≠ 0 then some 1 else if dec.isEmpty && bld.isEmpty then none else some 3
  else if latDec = 0 ∨ dec.length ≠ 1 then some 12
  else if dec.any (fun it => decide (latDec < it.start + it.dur + 4)) then some 3
  else if (List.range 8).any (fun l => lnMode (tgLine s l) == 1 && decide (len < latDec + lnPulse (tgLine s l))) then some 12
  else if bld.any (fun it => decide (it.dur < 32)) ||
      bld.zipIdx.any (fun a => bld.zipIdx.any (fun b => a.2 != b.2 && overlaps a.1.start a.1.dur b.1.start b.1.dur)) then some 3
  else none

end Sys2Proof.Machine
end

