-- ==== Sys2Proof/Machine/Check.lean ====
section
/-!
DEFINITION. The rules that work items keep (PLN.4, ORC.5, QNT.3, MEM.1, MEM.3-MEM.6), as admission and RUN_SECTION check
them. Each check answers for one item; a rule between two items is answered for the later of the two.
-/

namespace Sys2Proof.Machine

/-- What the checks read: the items of one variant of a plan, or of a client section, with their declarations. -/
structure Chk where
  /-- Buffers, items in index order, and the client of a client section. -/
  c : Ctx
  /-- QUANT section in force. -/
  q : List Nat
  /-- Maquette and plan whose WEIGHTS sections a TILE item may name. -/
  img : List Nat
  plan : Nat
  d : Dev
  /-- Slots of the variant, with the range of items of each; none for a client section. -/
  slots : List Slot
  /-- SPAN of a client section. -/
  span : Nat
deriving DecidableEq, Repr

/-- First beat after an item. -/
def Item.stop (it : Item) : Nat := it.start + it.dur

/-- Two items share a beat. -/
def Item.meets (a b : Item) : Bool := decide (a.start < b.stop) && decide (b.start < a.stop)

/-- Other items that satisfy a predicate. -/
def Chk.others (k : Chk) (i : Nat) (p : Item → Bool) : Bool := k.c.items.any (fun e => e.1 != i && p e.2)

/-- A QUANT or SCAN item. -/
def Item.isQuant (it : Item) : Bool := it.op == 6 || it.op == 7

/-- The item of an index lies in a slot that holds its unit (R365). -/
def Chk.inSlot (k : Chk) (i : Nat) (it : Item) : Bool :=
  let own (s : Slot) : Bool := decide (s.itemFirst ≤ i ∧ i < s.itemFirst + s.itemCount)
  let holds (s : Slot) : Bool :=
    decide (s.start ≤ it.start ∧ it.stop ≤ s.start + s.len) &&
    (match it.op with
     | 3 => bitAt s.tiles it.unit
     | 4 => bitAt s.units 0
     | 5 => bitAt s.vu it.unit
     | _ => true)
  if k.c.client.isSome then decide (it.stop ≤ k.span) else k.slots.all (fun s => !own s || holds s)

/-- UNIT names a unit of the item's kind (PLN.4, R365). -/
def Chk.unitOk (k : Chk) (it : Item) : Bool :=
  match it.op with
  | 1 | 2 => if k.c.client.isSome then decide (4 ≤ it.unit ∧ it.unit < 8) else decide (it.unit < 4)
  | 3 => decide (it.unit < 16)
  | 5 => decide (it.unit < 8)
  | _ => it.unit == 0

/-- R365, and R505 for a client section. -/
def Chk.placed (k : Chk) (i : Nat) (it : Item) : Bool :=
  k.inSlot i it && k.unitOk it &&
    !((it.op == 3 || it.op == 4 || it.op == 5) && k.others i (fun o => o.op == it.op && o.unit == it.unit && o.meets it)) &&
    !(k.c.client.isSome && it.isQuant && k.others i (fun o => o.isQuant && o.meets it))

/-- R366: one producer of each token, and readers after it. -/
def Chk.tokens (k : Chk) (i : Nat) (it : Item) : Bool :=
  (it.out == noTok || !k.others i (fun o => o.out == it.out)) &&
    it.ins.all (fun t => match k.c.prod t with
      | some (_, p) => p.op == 1 || decide (p.stop ≤ it.start)
      | none => false)

/-- Minimum lead of a space (R367). -/
def leadOf (space : Nat) : Nat := match space with
  | 0 => 16
  | 1 => 100
  | 2 => 250
  | _ => 1000

/-- A free slot of its buffer waits for an item's token at its START (R368, R541). -/
def Chk.slotFree (k : Chk) (i : Nat) (it : Item) : Bool :=
  let b := tokBuf k.c.bufs it.out
  let busy := k.c.items.filter (fun e => e.1 != i && e.2.out != noTok && tokBuf k.c.bufs e.2.out == b &&
    decide (e.2.start < it.start ∨ (e.2.start = it.start ∧ e.1 < i)) && decide (it.start ≤ k.c.lastUse e.2.out))
  decide (busy.length < bufSlots k.c.bufs b)

/-- Bytes of a sequence window's region, and the ranges of an item in its space. -/
def Chk.rangesOf (k : Chk) (it : Item) : Nat × Nat :=
  if it.mSeq || it.mAppend then
    let w := seqRec k.c.bufs it.mWin
    (u64 w 0, u32 w 8 * u16 w 12)
  else (it.mAddr, it.mLen)

/-- Two resident items reach common bytes. -/
def Chk.share (k : Chk) (a b : Item) : Bool :=
  let (x, n) := k.rangesOf a
  let (y, m) := k.rangesOf b
  a.mSpace == b.mSpace && overlaps x n y m

/-- R574. -/
def Chk.seqOk (k : Chk) (i : Nat) (it : Item) : Bool :=
  let w := seqRec k.c.bufs it.mWin
  let es := u16 w 12
  if it.mSeq || it.mAppend then
    es != 0 && it.mLen % es == 0 &&
    (if it.mAppend then decide (it.mLen / es ≤ u32 w 8)
     else decide (it.mLen / es ≤ it.mAddr ∧ it.mAddr ≤ u32 w 8)) &&
    !k.others i (fun o => (o.op == 1 && o.mSeq || o.op == 2 && o.mAppend) && o.op != it.op && o.mWin == it.mWin && o.meets it)
  else true

/-- Check 8: R367, R368, R566, R574. -/
def Chk.fetches (k : Chk) (i : Nat) (it : Item) : Bool :=
  it.ins.all (fun t => match k.c.prod t with
    | some (_, p) => p.op != 1 || decide (p.start + leadOf p.mSpace ≤ it.start)
    | none => true) &&
  (it.op != 1 || k.slotFree i it) &&
  (k.c.client.isSome || (it.op != 1 && it.op != 2) ||
    (k.seqOk i it &&
     (if it.op = 1 then !k.others i (fun o => o.op == 2 && !o.mAppend && !it.mSeq && k.share o it && decide (it.start < o.stop))
      else !k.others i (fun o => o.op == 2 && k.share o it && o.meets it))))

/-- Planes of a format (ORC.2). -/
def planesOf (fmt : Nat) : Nat := (if fmtN8 fmt then 8 else 4) + (if fmtZp fmt then 1 else 0)

/-- Bytes of the largest part of a Tier 2 range that lies on one channel (R1007). -/
def largestPart (a n : Nat) : Nat :=
  ((List.range ((a + n + 2 ^ 38 - 1) / 2 ^ 38 - a / 2 ^ 38)).map (fun i =>
    min (a + n) (2 ^ 38 * (a / 2 ^ 38 + i + 1)) - max a (2 ^ 38 * (a / 2 ^ 38 + i)))).foldl max 0

/-- Least DUR of an item (R439, R507, R564, R579, R587, TRG); none where a rule of its chapter fails. -/
def Chk.minDur (k : Chk) (it : Item) : Nat :=
  match it.op with
  | 2 => match it.mSpace with
    | 0 => cdiv it.mLen 1024 + 8
    | 1 => cdiv it.mLen 1024 + 112 + 8
    | 2 => cdiv (largestPart it.mAddr it.mLen) 16 + 413 + 8
    | _ => cdiv it.mLen 256 + 8
  | 3 => cdiv (it.tNv * planesOf it.tFmt * 2 ^ it.tMode) 200 + 12
  | 4 => cdiv (2 * it.dM * it.dN * it.dK) 256000 + 16
  | 5 => if it.vOp = 4 then cdiv (it.vE * (1 + if fmtN8 (descAt k.q it.vDesc).fmt then 4 else 2)) 1000 + 8
         else cdiv it.vE 1000 + 8
  | 6 | 7 => cdiv it.qE (if (descAt k.q it.qDesc).outlier = 1 then 2048 else 4096) + (if it.op = 6 then 12 else 8)
  | _ => 1

/-- Check 9. -/
def Chk.rates (k : Chk) (_ : Nat) (it : Item) : Bool := decide (k.minDur it ≤ it.dur)

/-- A token has a buffer with slots of at least `n` bytes (R509, R541). -/
def Chk.holds (k : Chk) (t n : Nat) : Bool :=
  t != noTok && decide (t < tokN k.c.bufs) && decide (tokBuf k.c.bufs t < bufN k.c.bufs) &&
    decide (n ≤ bufSlot k.c.bufs (tokBuf k.c.bufs t))

/-- FETCH and STORE operands (R560). -/
def Chk.memOps (k : Chk) (it : Item) : Bool :=
  let inSpace : Bool := match it.mSpace with
    | 0 => (match k.c.client with
      | none => decide (it.mAddr + it.mLen ≤ stgSize)
      | some c => match clientArea (k.d.sec 18) c with
        | some (_, n) => decide (it.mAddr + it.mLen ≤ n)
        | none => false)
    | 1 => k.c.client.isSome || decide (it.mAddr + it.mLen ≤ t1Max k.d.variant)
    | 2 => k.c.client.isSome || (decide (it.mAddr + it.mLen ≤ k.d.channels * 2 ^ 38) && !k.d.inHole 2 it.mAddr it.mLen)
    | _ => k.c.client.isSome
  zerosAt it.ops 14 2 && bits (it.o8 12) 4 4 == 0 && it.mLen % 64 == 0 && decide (64 ≤ it.mLen ∧ it.mLen ≤ 46137344) &&
    it.inB == noTok &&
    (if it.op = 1 then it.inA == noTok && !it.mAppend && k.holds it.out it.mLen
     else it.out == noTok && !it.mSeq && k.holds it.inA it.mLen) &&
    (if it.mSeq || it.mAppend then it.mSpace == 1 && decide (it.mWin < seqN k.c.bufs) && (it.mSeq || it.mAddr % 64 == 0)
     else it.mWin == 0 && it.mAddr % 64 == 0 && inSpace)

/-- WSEC names a WEIGHTS section of the item's plan for its tile (R429). -/
def Chk.wsecOk (k : Chk) (it : Item) : Bool :=
  let s := secAt k.img it.tSec
  decide (it.tSec < u16 k.img 6) && s.ty == 19 && (s.plan == k.plan || s.plan == 0xFF) && s.tile == it.unit

/-- TILE operands (R438, R504). -/
def Chk.tileOps (k : Chk) (it : Item) : Bool :=
  let p := planesOf it.tFmt
  zerosAt it.ops 10 6 && bits (it.o8 2) 4 4 == 0 && bits (it.o8 4) 5 3 == 0 && it.inB == noTok &&
    decide (1 ≤ it.tNv) && (if fmtZp it.tFmt then fmtN8 it.tFmt || decide (it.tZp ≤ 15) else it.tZp == 0) &&
    decide (p ≤ it.tS + 5 ∧ it.tS ≤ min 21 (p + 13)) && decide (1 ≤ it.tRows ∧ it.tRow + it.tRows ≤ 256) && k.wsecOk it &&
    k.holds it.inA (it.tNv * (if fmtN8 it.tFmt then 64 else 32)) && k.holds it.out (it.outSize k.q) &&
    (match k.c.prod it.inA with
     | some (_, p) => p.op != 6 ||
       (let ds := descAt k.q p.qDesc
        ds.tie && ds.fmt == it.tFmt && ds.zp == it.tZp)
     | none => true)

/-- DMU operands (R578). -/
def Chk.dmuOps (k : Chk) (it : Item) : Bool :=
  let opnd (f dsc n t : Nat) : Bool :=
    if f = 1 then decide (dsc < descCount k.q) && n % 64 == 0 && k.holds t (quantBytes (descAt k.q dsc) n)
    else f == 0 && dsc == 0 && k.holds t (2 * n)
  decide (1 ≤ it.dM ∧ it.dM ≤ 4096 ∧ 1 ≤ it.dN ∧ it.dN ≤ 4096 ∧ 1 ≤ it.dK ∧ it.dK ≤ 16777216) &&
    decide (it.o8 10 ≤ 1 ∧ it.o8 11 ≤ 1) && opnd (it.o8 8) (it.o16 12) (it.dM * it.dK) it.inA &&
    opnd (it.o8 9) (it.o16 14) (it.dK * it.dN) it.inB && k.holds it.out (it.outSize k.q)

/-- VU operands (R588). -/
def Chk.vuOps (k : Chk) (it : Item) : Bool :=
  let w := if it.vIn16 then 2 else 4
  let rowed := it.vOp == 3 || it.vOp == 4
  let nv := it.vE / max 1 it.vRows
  zerosAt it.ops 15 1 && bits (it.o8 1) 2 6 == 0 && decide (1 ≤ it.vOp ∧ it.vOp ≤ 5) &&
    decide (1 ≤ it.vE ∧ it.vE ≤ 16777216) && (it.vOp == 3 || it.vShift == 0) && (it.vOp == 4 || it.vDesc == 0) &&
    (if it.vOp = 5 then decide (it.vAct ≤ 1) else it.vAct == 0) && decide (-64 ≤ it.vExp ∧ it.vExp ≤ 63) &&
    (if rowed then decide (1 ≤ it.vRows ∧ it.vRows ≤ 256) && it.vE % it.vRows == 0 else it.vRows == 0) &&
    k.holds it.out (it.outSize k.q) &&
    (match it.vOp with
     | 2 => it.vAux == noTok && k.holds it.inA (w * it.vE) && k.holds it.inB (w * it.vE)
     | 3 => k.holds it.inA it.vE && k.holds it.vAux (2 * nv) && (it.inB == noTok || k.holds it.inB (4 * it.vE))
     | 4 => decide (it.vDesc < descCount k.q) && (descAt k.q it.vDesc).outlier == 2 &&
            k.holds it.inA (quantBytes (descAt k.q it.vDesc) (64 * nv)) && k.holds it.inB (4 * it.vE) &&
            k.holds it.vAux (64 * it.vRows)
     | _ => it.inB == noTok && it.vAux == noTok && k.holds it.inA (w * it.vE))

/-- SCAN and QUANT operands (R498, R500, R505, R508, R509). -/
def Chk.quantOps (k : Chk) (i : Nat) (it : Item) : Bool :=
  let ds := descAt k.q it.qDesc
  zerosAt it.ops 6 10 && it.qE % 64 == 0 && decide (64 ≤ it.qE ∧ it.qE ≤ 16777216) && decide (it.qDesc < descCount k.q) &&
    k.holds it.inA ((if ds.b32 then 4 else 2) * it.qE) && k.holds it.out (it.outSize k.q) &&
    (k.c.client.isSome || !k.others i (fun o => o.isQuant && o.meets it)) &&
    (if it.op = 7 then it.inB == noTok
     else k.holds it.inB (it.qE / 32) &&
       (match k.c.prod it.inB with
        | some (_, p) => p.op == 7 && p.qE == it.qE && p.qDesc == it.qDesc && p.inA == it.inA
        | none => false))

/-- Check 13 of an item's own operands. DECIDE and BUILD belong to the resident service and have their own rules. -/
def Chk.operands (k : Chk) (i : Nat) (it : Item) : Bool :=
  it.res == 0 &&
  (match it.op with
   | 1 | 2 => k.memOps it
   | 3 => k.tileOps it
   | 4 => k.dmuOps it
   | 5 => k.vuOps it
   | 6 | 7 => k.quantOps i it
   | 8 | 9 => k.c.client.isNone
   | _ => false) &&
  (it.op == 1 || it.out == noTok || k.slotFree i it)

/-- The first item that breaks a rule. -/
def Chk.firstBad (k : Chk) (p : Nat → Item → Bool) : Option Nat := (k.c.items.find? (fun e => !p e.1 e.2)).map (·.1)

/-! ### BUFFERS (R538) -/

/-- Staging ranges of the buffers and areas of a BUFFERS section. -/
def bufRanges (b : List Nat) : List (Nat × Nat) :=
  (List.range (bufN b)).map (fun i => (bufBase b i, bufSlot b i * bufSlots b i)) ++
  (List.range (areaN b)).map (fun i => (u32 (areaRec b i) 4, u32 (areaRec b i) 8))

/-- No two ranges of a list share a byte. -/
def disjoint : List (Nat × Nat) → Bool
  | [] => true
  | a :: l => l.all (fun b => !overlaps a.1 a.2 b.1 b.2) && disjoint l

/-- A buffer record is well formed. -/
def bufRecOk (b : List Nat) (i : Nat) : Bool :=
  zerosAt b (25 + 16 * i) 7 && bufBase b i % 256 == 0 && bufSlot b i % 256 == 0 && decide (256 ≤ bufSlot b i) &&
    decide (1 ≤ bufSlots b i)

/-- Buffers, token map and areas of a section are well formed within `size` bytes. -/
def bufPartsOk (b : List Nat) (size : Nat) : Bool :=
  (List.range (bufN b)).all (bufRecOk b) && (List.range (tokN b)).all (fun t => decide (tokBuf b t < bufN b)) &&
    zerosAt b (16 + 16 * bufN b + 2 * tokN b) (tokMapLen b - 2 * tokN b) &&
    (bufRanges b).all (fun r => decide (r.1 + r.2 ≤ size)) && disjoint (bufRanges b)

/-- An area record is well formed. -/
def areaOk (r : List Nat) : Bool :=
  decide (1 ≤ u16 r 0 ∧ u16 r 0 ≤ 256) && zerosAt r 2 2 && zerosAt r 12 4 && u32 r 4 % 256 == 0 && u32 r 8 % 256 == 0

/-- A raw ring record and a window record are well formed (MEM.4). -/
def ringOk (r : List Nat) : Bool :=
  u64 r 0 % 2 ^ 21 == 0 && u64 r 8 % 2 ^ 21 == 0 && decide (2 ^ 21 ≤ u64 r 8 ∧ u64 r 8 ≤ 2 ^ 34) && decide (u8 r 16 < 16) &&
    decide (u8 r 17 ≤ 1) && zerosAt r 18 14
def seqWinOk (r : List Nat) : Bool :=
  u64 r 0 % 2 ^ 21 == 0 && u32 r 8 % 64 == 0 && decide (64 ≤ u32 r 8 ∧ u32 r 8 ≤ 16777216) && u16 r 12 % 64 == 0 &&
    decide (64 ≤ u16 r 12 ∧ u16 r 12 ≤ 4096) && decide (u8 r 14 ≤ 1) && zerosAt r 15 17

/-- Tier 1 regions of raw rings and sequence windows. -/
def ringRegions (b : List Nat) : List (Nat × Nat) :=
  (List.range (ringN b)).map (fun i => (u64 (ringRec b i) 0, u64 (ringRec b i) 8)) ++
  (List.range (seqN b)).map (fun i => (u64 (seqRec b i) 0, u32 (seqRec b i) 8 * u16 (seqRec b i) 12))

/-- A BUFFERS section is valid (R538), but for the tokens that items name. -/
def buffersValid (b : List Nat) : Bool :=
  b.length == areasOff b + 16 * areaN b && zerosAt b 8 8 && decide (1 ≤ bufN b ∧ bufN b ≤ 256) &&
    decide (ringN b ≤ 16 ∧ seqN b ≤ 16 ∧ areaN b ≤ 257) && bufPartsOk b stgSize &&
    (List.range (areaN b)).all (fun i => areaOk (areaRec b i)) &&
    distinctBelow 257 ((List.range (areaN b)).map (fun i => u16 (areaRec b i) 0)) &&
    (List.range (ringN b)).all (fun i => ringOk (ringRec b i)) && (List.range (seqN b)).all (fun i => seqWinOk (seqRec b i))

end Sys2Proof.Machine
end

