-- ==== Sys2Proof/Machine/Sad.lean ====
section
/-!
DEFINITION. Sensing ADC (chapter 19): channels and pairs, syncs, bursts and urgent requests, the correction of words
and their delivery.
-/

namespace Sys2Proof.Machine

def Dev.setSad (d : Dev) (f : Sad → Sad) : Dev := { d with sad := f d.sad }
def Dev.sadCh (d : Dev) (n : Nat) : SadCh := nth {} d.sad.chans n

/-- SA0-SA11 can convert (R825). -/
def Dev.sadOn (d : Dev) : Bool := d.works 13

/-- MODE of a channel: 0 OFF, 1 CONT, 2 BURST; its PAIR bit; and OSR as a number. -/
def Dev.sadMode (d : Dev) (n : Nat) : Nat := d.rdi R.SAD_CFG_MODE n
def Dev.sadPair (d : Dev) (n : Nat) : Bool := d.isSeti R.SAD_CFG_PAIR n
def Dev.sadOsr (d : Dev) (n : Nat) : Nat := 64 * 2 ^ d.rdi R.SAD_CFG_OSR n

/-- Channel `n` is the second of an interleaved pair. -/
def Dev.sadSecond (d : Dev) (n : Nat) : Bool := decide (n % 2 = 1) && d.sadPair (n - 1)

/-- CONV and DISC of a channel follow its conversion (SAD.5). -/
def Dev.syncSad (d : Dev) (n : Nat) : Dev :=
  let c := d.sadCh n
  (d.flagi R.SAD_STATUS_CONV n c.edge0.isSome).flagi R.SAD_STATUS_DISC n (c.edge0.isSome && c.sent == 0)

/-- Give a channel its hidden state. -/
def Dev.setSadCh (d : Dev) (n : Nat) (c : SadCh) : Dev :=
  (d.setSad (fun s => { s with chans := s.chans.set n c })).syncSad n

/-- A channel stops: its undelivered words are never delivered. -/
def Dev.sadStop (d : Dev) (n : Nat) : Dev := d.setSadCh n {}

/-- A channel syncs with edge 0 at the start of a beat (R841, R845, R846). -/
def Dev.sadSync (d : Dev) (edge n : Nat) : Dev :=
  if !d.sadOn || d.sadSecond n then d
  else match d.sadMode n with
    | 1 => d.setSadCh n { edge0 := some edge }
    | 2 =>
      let d := if (d.sadCh n).burst then d.inc R.SAD_CNT0_RESTART else d
      d.setSadCh n { edge0 := some edge, burst := true }
    | _ => d

/-- Modulator clocks from edge 0 of a channel to the instant of its word `m`, counted from 1 over both converters of a
pair (R829, R842), times two. -/
def Dev.wordClocks2 (d : Dev) (n m : Nat) : Nat := if d.sadPair n then d.sadOsr n * (m + 1) else 2 * d.sadOsr n * m

/-- Beat in which the instant of word `m` falls, and the beat of its delivery: the first that begins 8 beats or more
after the instant (R824, R830). -/
def Dev.wordInstant (d : Dev) (n m edge : Nat) : Nat := edge + d.wordClocks2 n m * 3125 / 256
def Dev.wordDue (d : Dev) (n m edge : Nat) : Nat := edge + 8 + cdiv (d.wordClocks2 n m * 3125) 256

/-- The corrected value of a raw value (R831). -/
def correct (x ofs : Int) (gain : Nat) : Int := ((x + ofs) * gain + 2 ^ 22) / 2 ^ 23

/-- Code and CLIP of a raw value (R832, R833). -/
def sadCode (diff : Bool) (x ofs : Int) (gain : Nat) : Int × Bool :=
  let lo : Int := if diff then -8388608 else 0
  let hi : Int := if diff then 8388607 else 16777215
  let y := correct x ofs gain
  (clampInt lo hi y, (decide (y < lo) || decide (hi < y)) && decide (lo ≤ x) && decide (x ≤ hi))

/-- A result word (SAD.2): `flags` from OVR in bit 0 to SEQ in bits 7:5. -/
def resultWord (left : Bool) (code : Int) (flags : Nat) : Nat :=
  let c := ofInt 24 code
  if left then c * 256 + flags else flags * 2 ^ 24 + c

/-- FLAGS of a word. -/
def wordFlags (ovr clip first convB last : Bool) (seq : Nat) : Nat :=
  b2n ovr + 2 * b2n clip + 4 * b2n first + 8 * b2n convB + 16 * b2n last + 32 * (seq % 8)

/-- The phase stamp of a past beat; free where the block did not pass it (R830). -/
def Dev.stampAt (d : Dev) (b : Nat) : Nat × Dev :=
  match d.sad.stamps.find? (fun e => e.1 == b) with
  | some e => (e.2, d)
  | none => if b = d.beat then (d.stamp, d) else d.freeVal 32

/-- A sync or a plan's records wait to act on channel `n` in this beat (R850). -/
def Dev.syncWaits (d : Dev) (n : Nat) : Bool :=
  d.cad.fired.any (fun e => rowAction e.bytes == 7 && decide (e.beat < d.beat) && bitAt (rowArg e.bytes) n)

/-- A word of SA0-SA11 comes from its converter: discarded after a sync, or corrected and delivered (R830-R834, R843,
R845). -/
def Dev.sadWord (d : Dev) (n : Nat) (raw : Int) (ovr : Bool) : Dev :=
  let c := d.sadCh n
  match c.edge0 with
  | some e =>
    let m := c.words + 1
    let pair := d.sadPair n
    if !d.sadOn || d.syncWaits n || d.beat < d.wordDue n m e then d
    else if m ≤ (if pair then 20 else 10) then d.setSad (fun s => { s with chans := s.chans.set n { c with words := m } })
    else
      let b := pair && m % 2 == 0
      let k := if b then n + 1 else n
      let (code, clip) := sadCode (d.isSeti R.SAD_CFG_DIFF n) raw (toInt 24 (d.rdi R.SAD_OFS k)) (d.rdi R.SAD_GAIN k)
      let last := c.burst && c.sent + 1 == d.rdi R.SAD_CFG_BURST_N n
      let w := resultWord (d.isSeti R.SAD_CFG_LEFT n) code (wordFlags ovr clip (c.sent == 0) b last c.sent)
      let (st, d) := d.stampAt (d.wordInstant n m e)
      let d := ((d.wri R.SAD_DATA n w).wri R.SAD_STAMP n st).inci R.SAD_WORDS n
      let d := if ovr then d.inci R.SAD_CNT_OVR n else d
      let d := if clip then d.inci R.SAD_CNT_CLIP n else d
      let c := { c with words := m, sent := c.sent + 1, lastAt := d.beat }
      d.setSadCh n (if last then { c with edge0 := none, burst := false } else c)
  | none => d

/-- SA12-SA15 convert: from 1 ms after VAUX became valid (R827). -/
def Dev.supConvert (d : Dev) : Bool := d.pw.vaux && decide (d.mgt.vauxAt + 250000 ≤ d.beat)

/-- A word of a supervisor channel, `k` from 0 for SA12 (R827). -/
def Dev.supWord (d : Dev) (k : Nat) (raw : Int) (ovr : Bool) : Dev :=
  if !d.supConvert then d
  else
    let (code, clip) := sadCode false raw (toInt 24 (d.rdi R.SADS_OFS k)) (d.rdi R.SADS_GAIN k)
    let seq := nth 0 d.sad.supSeq k
    let d := d.wri R.SADS_DATA k (resultWord false code (wordFlags ovr clip false false false seq))
    let (st, d) := d.stampAt (d.beat - 8)
    let d := (d.wri R.SADS_STAMP k st).inci R.SADS_WORDS k
    let d := if ovr then d.inci R.SADS_CNT_OVR k else d
    let d := if clip then d.inci R.SADS_CNT_CLIP k else d
    d.setSad (fun s => { s with supSeq := s.supSeq.set k ((seq + 1) % 8) })

/-- A converter's word (R830). -/
def sadWordDelivery (ch : Nat) (raw : Int) (ovr : Bool) (d : Dev) : Dev :=
  if ch < 12 then d.sadWord ch raw ovr else d.supWord (ch - 12) raw ovr

def execSadWordDelivery (ch : Nat) (raw : Int) (ovr : Bool) (s : State) : Host.Outcome State Fault Refusal :=
  unit (decide (ch < 16)) (onDev (sadWordDelivery ch raw ovr) s)

/-- Sync the channels of a mask with edge 0 at a beat (R841, R844). -/
def Dev.sadSyncs (d : Dev) (edge mask : Nat) : Dev := (setBits mask 12).foldl (fun a n => a.sadSync edge n) d

/-- A SAD_SYNC action (R841). -/
def sadSyncRow (row : Nat) (d : Dev) : Dev :=
  match d.acting row 7 with
  | some e => d.acted.sadSyncs d.beat (rowArg e.bytes)
  | none => d

def execSadSync (row : Nat) (s : State) : Host.Outcome State Fault Refusal :=
  unit (decide (row < 1024)) (onDev (sadSyncRow row) s)

/-- A write of SAD_SYNC (R838, R839, R844). -/
def sadSyncWrite (m : Master) (value : Nat) (d : Dev) : Dev :=
  d.gated m 0x140004 (fun d =>
    if d.planActive then d.accessError (masterClient m) 0x140004 else d.sadSyncs (d.beat + 1) value)

def execSadSyncWrite (m : Master) (value : Nat) (s : State) : Host.Outcome State Fault Refusal :=
  onDev (sadSyncWrite m value) s

/-- Fields of a CFG value (SAD.3). -/
def cfgMode (v : Nat) : Nat := bits v 0 2
def cfgPair (v : Nat) : Bool := bitAt v 6
/-- No reserved bit, MODE or OSR that is invalid, and BURST_N by its MODE (R835). -/
def cfgOk (v : Nat) : Bool :=
  bits v 2 2 == 0 && bits v 7 1 == 0 && bits v 11 5 == 0 && decide (v < 2 ^ 32) && decide (cfgMode v < 3) &&
    decide (bits v 8 3 < 7) && (if cfgMode v = 2 then decide (1 ≤ bits v 16 16) else bits v 16 16 == 0)

/-- Load a CFG value. -/
def Dev.setCfg (d : Dev) (n v : Nat) : Dev :=
  let d := (d.wri R.SAD_CFG_MODE n (bits v 0 2)).wri R.SAD_CFG_DIFF n (bits v 4 1)
  let d := (d.wri R.SAD_CFG_LEFT n (bits v 5 1)).wri R.SAD_CFG_PAIR n (bits v 6 1)
  (d.wri R.SAD_CFG_OSR n (bits v 8 3)).wri R.SAD_CFG_BURST_N n (bits v 16 16)

/-- The CFG value of a channel. -/
def Dev.cfgNow (d : Dev) (n : Nat) : Nat :=
  d.rdi R.SAD_CFG_MODE n + 16 * d.rdi R.SAD_CFG_DIFF n + 32 * d.rdi R.SAD_CFG_LEFT n + 64 * d.rdi R.SAD_CFG_PAIR n +
    256 * d.rdi R.SAD_CFG_OSR n + 65536 * d.rdi R.SAD_CFG_BURST_N n

/-- A write of SAD_CHn_CFG that R840 takes. -/
def Dev.cfgTaken (d : Dev) (n v : Nat) : Bool :=
  cfgOk v && (!cfgPair v || (decide (n % 2 = 0) && d.sadMode (n + 1) == 0)) && (!d.sadSecond n || v == 0)

/-- A write of SAD_CHn_CFG (R838-R840): the channel, or both of a pair, syncs at the next beat. -/
def sadCfgWrite (m : Master) (ch value : Nat) (d : Dev) : Dev :=
  let addr := 0x140100 + 0x20 * ch
  d.gated m addr (fun d =>
    if 12 ≤ ch then d
    else if d.planActive || !d.cfgTaken ch value then d.accessError (masterClient m) addr
    else ((d.sadStop ch).setCfg ch value).sadSync (d.beat + 1) ch)

def execSadCfgWrite (m : Master) (ch value : Nat) (s : State) : Host.Outcome State Fault Refusal :=
  unit (decide (ch < 16)) (onDev (sadCfgWrite m ch value) s)

/-- A write of SAD_CHn_OFS or SAD_CHn_GAIN (R838-R840). -/
def Dev.sadTrim (d : Dev) (m : Master) (gain : Bool) (ch value : Nat) : Dev :=
  let addr := 0x140100 + 0x20 * ch + (if gain then 8 else 4)
  if d.planActive || (gain && (value < 0x400000 || 0xFFFFFF < value)) then d.accessError (masterClient m) addr
  else d.wri (if gain then R.SAD_GAIN else R.SAD_OFS) ch value

/-- A write of SAD_URG (R847): the requests wait for the next HOUSEKEEPING slot. -/
def sadUrgWrite (m : Master) (value : Nat) (d : Dev) : Dev :=
  d.gated m 0x140008 (fun d => d.setSad (fun s =>
    { s with urg := s.urg ++ (setBits value 12).map (fun n => { ch := n, at_ := d.beat, loop := false }) }))

def execSadUrgWrite (m : Master) (value : Nat) (s : State) : Host.Outcome State Fault Refusal :=
  onDev (sadUrgWrite m value) s

/-- An urgent request acts on its channel (R848, R849). -/
def Dev.urgent (d : Dev) (n : Nat) : Dev :=
  if d.sadMode n ≠ 2 || d.sadSecond n then d.inc R.SAD_CNT0_URG_BAD
  else if (d.sadCh n).burst then d.inc R.SAD_URG_DROP
  else d.sadSync d.beat n

/-- A client-0 request is due: this beat lies in a HOUSEKEEPING slot that began after it (R847). -/
def Dev.urgDue (d : Dev) (r : UrgReq) : Bool :=
  if r.loop then decide (r.at_ ≤ d.beat)
  else match d.sq.frameAt with
    | some f => d.slotsNow.any (fun k => k.kind == 4 && decide (r.at_ < f + k.start) && decide (f + k.start ≤ d.beat) &&
        decide (d.beat < f + k.start + k.len))
    | none => false

/-- The oldest urgent request for a channel that is due acts (R847-R849). -/
def urgentAct (ch : Nat) (d : Dev) : Dev :=
  match d.sad.urg.find? (fun r => r.ch == ch && d.urgDue r) with
  | some r =>
    if !d.sadOn || d.syncWaits ch then d
    else (d.setSad (fun s => { s with urg := s.urg.erase r })).urgent ch
  | none => d

def execUrgentRequestAct (ch : Nat) (s : State) : Host.Outcome State Fault Refusal :=
  unit (decide (ch < 12)) (onDev (urgentAct ch) s)

/-! ### Plan changes and block reset (SAD.5) -/

/-- Record of a channel in a SADCFG section: CFG, OFS, GAIN. -/
def sadRec (s : List Nat) (n : Nat) : Nat × Nat × Nat := (u32 s (16 * n), u32 s (16 * n + 4), u32 s (16 * n + 8))

/-- One channel takes its record of the plan taking effect, unless it has it already (R837, R851, R852). -/
def Dev.sadTake (d : Dev) (s : List Nat) (n : Nat) : Dev :=
  if s.isEmpty then (if d.cfgNow n = 0 then d else (d.sadStop n).setCfg n 0)
  else
    let (c, o, g) := sadRec s n
    if d.cfgNow n = c ∧ d.rdi R.SAD_OFS n = o ∧ d.rdi R.SAD_GAIN n = g then d
    else
      let same := d.cfgNow n = c
      let d := (d.wri R.SAD_OFS n o).wri R.SAD_GAIN n g
      if same ∧ c = 0 then d
      else
        let d := (d.sadStop n).setCfg n c
        if cfgMode c = 1 then d.sadSync d.beat n else d

/-- A plan takes effect (R851-R853). -/
def Dev.sadPlan (d : Dev) : Dev := (List.range 12).foldl (fun a n => a.sadTake (d.sec 16) n) d

/-- A BLOCK reach of SAD begins, and ends (R855). -/
def Dev.sadBlock (d : Dev) : Dev :=
  (List.range 12).foldl Dev.sadStop (d.setSad (fun s => { s with urg := [] }))
def Dev.sadRestart (d : Dev) : Dev :=
  let s := if d.planActive then d.sec 16 else []
  (List.range 12).foldl (fun a n =>
    let a := if s.isEmpty then a
             else (((a.setCfg n (sadRec s n).1).wri R.SAD_OFS n (sadRec s n).2.1).wri R.SAD_GAIN n (sadRec s n).2.2)
    if a.sadMode n = 1 then a.sadSync a.beat n else a) d

/-- A SADCFG section is valid (R835). -/
def sadValid (s : List Nat) : Bool :=
  s.length == 192 && (List.range 12).all (fun n =>
    let (c, o, g) := sadRec s n
    cfgOk c && decide (o < 2 ^ 24) && decide (0x400000 ≤ g) && decide (g < 2 ^ 24) && zerosAt s (16 * n + 12) 4 &&
      (!cfgPair c || (decide (n % 2 = 0) && cfgMode c != 0 && (sadRec s (n + 1)).1 == 0)))

/-- Channels that a section binds (R836), as a mask. -/
def sadBound (s : List Nat) : Nat :=
  (List.range 12).foldl (fun a n => if cfgMode (sadRec s n).1 ≠ 0 then a + 2 ^ n else a) 0

/-- Channels that a SAD_SYNC row may name under a section (R844). -/
def sadRowOk (s : List Nat) (mask : Nat) : Bool := (setBits mask 32).all (fun n => bitAt (sadBound s) n)

end Sys2Proof.Machine
end

