-- ==== Sys2Proof/Machine/Solver.lean ====
section
/-!
DEFINITION. The arithmetic of the QP Solver (QPS.1, QPS.2): the QPSCHED section, its symbolic factorisation, and one
iteration in binary32. Sums are formed in the order of R907: entries in section order, pivots in elimination order,
vectors in ascending index.
-/

namespace Sys2Proof.Machine

/-! ### The QPSCHED section (QPS.1) -/

def qpN (s : List Nat) : Nat := u16 s 0
def qpM (s : List Nat) : Nat := u16 s 2
def qpEq (s : List Nat) : Nat := u16 s 4
def qpK (s : List Nat) : Nat := if u8 s 6 = 0 then 12 else u8 s 6
def qpR (s : List Nat) : Nat := if u8 s 7 = 0xFF then 2 else u8 s 7
def qpNnzH (s : List Nat) : Nat := u32 s 8
def qpNnzG (s : List Nat) : Nat := u32 s 12
def qpNnzL (s : List Nat) : Nat := u32 s 16
def qpOps (s : List Nat) : Nat := u32 s 20
def qpTerms (s : List Nat) : Nat := u16 s 24
def qpMove (s : List Nat) : Nat := u16 s 26
def qpWarm (s : List Nat) : Bool := u8 s 28 == 1
def qpShift (s : List Nat) : Nat := u8 s 29
def qpBeats (s : List Nat) : Nat := u32 s 44

/-- A binary32 field, a default where it is +0. -/
def f32At (s : List Nat) (o dflt : Nat) : FV := f32.decode (if u32 s o = 0 then dflt else u32 s o)
def qpEps (s : List Nat) : FV := f32At s 32 0x2B800000
def qpDelta (s : List Nat) : FV := f32At s 36 0x35800000
def qpSigma (s : List Nat) : FV := f32At s 40 0x3DCCCCCD

/-- Offsets of the parts. -/
def qpOffQ (s : List Nat) : Nat := 64 + 8 * qpNnzH s
def qpOffG (s : List Nat) : Nat := qpOffQ s + 4 * qpN s
def qpOffH0 (s : List Nat) : Nat := qpOffG s + 8 * qpNnzG s
def qpOffT (s : List Nat) : Nat := qpOffH0 s + 4 * qpM s
def qpOffOrd (s : List Nat) : Nat := qpOffT s + 8 * qpTerms s
def qpEnd (s : List Nat) : Nat := qpOffOrd s + 2 * (qpN s + qpM s)

/-- Entries (row, column, value). -/
def qpEntries (s : List Nat) (o n : Nat) : List (Nat × Nat × FV) :=
  (List.range n).map (fun i => (u16 s (o + 8 * i), u16 s (o + 8 * i + 2), f32.decode (u32 s (o + 8 * i + 4))))
def qpH (s : List Nat) : List (Nat × Nat × FV) := qpEntries s 64 (qpNnzH s)
def qpG (s : List Nat) : List (Nat × Nat × FV) := qpEntries s (qpOffG s) (qpNnzG s)

/-- Elimination order: KKT index of each position. -/
def qpOrder (s : List Nat) : List Nat := (List.range (qpN s + qpM s)).map (fun i => u16 s (qpOffOrd s + 2 * i))

/-! ### Vectors of binary32 values -/

/-- The value zero; difference and quotient, rounded to nearest even. -/
def fz : FV := .fin false 0 0
def one32 : FV := f32.decode 0x3F800000
def sub32 (x y : FV) : FV := r32 (x.add y.neg)
def div32 (x y : FV) : FV :=
  match x, y with
  | .nan, _ => .nan
  | _, .nan => .nan
  | .inf _, .inf _ => .nan
  | .inf a, y => .inf (a != y.isNeg)
  | .fin a _ _, .inf b => .fin (a != b) 0 0
  | .fin a m e, .fin b m' e' =>
    if m' = 0 then (if m = 0 then .nan else .inf (a != b))
    else if m = 0 then .fin (a != b) 0 0
    else f32.decode (f32.divMag (a != b) m e m' e')

/-- Elements of a vector, and its change at one index. -/
def vAt (v : List FV) (i : Nat) : FV := nth fz v i
def vAdd (v : List FV) (i : Nat) (x : FV) : List FV := v.set i (add32 (vAt v i) x)
/-- Vector sum, difference and element-wise map with index. -/
def vPlus (a b : List FV) : List FV := List.zipWith add32 a b
def vMinus (a b : List FV) : List FV := List.zipWith sub32 a b
def vMap (n : Nat) (f : Nat → FV) : List FV := (List.range n).map f

/-- The larger, and the smaller, of two values. -/
def fMax (a b : FV) : FV := if a.lt b then b else a
def fMin (a b : FV) : FV := if b.lt a then b else a

/-- The largest magnitude of a vector. -/
def maxAbs (v : List FV) : FV := v.foldl (fun a x => fMax a x.abs) fz

/-- q and h with the parameter terms (QPS.1). -/
def qpVecs (s : List Nat) (theta : List FV) : List FV × List FV :=
  let q0 := vMap (qpN s) (fun i => f32.decode (u32 s (qpOffQ s + 4 * i)))
  let h0 := vMap (qpM s) (fun i => f32.decode (u32 s (qpOffH0 s + 4 * i)))
  (List.range (qpTerms s)).foldl (fun (a : List FV × List FV) t =>
    let o := qpOffT s + 8 * t
    let x := mul32 (f32.decode (u32 s (o + 4))) (vAt theta (u8 s (o + 1)))
    if u8 s o = 0 then (vAdd a.1 (u16 s (o + 2)) x, a.2) else (a.1, vAdd a.2 (u16 s (o + 2)) x)) (q0, h0)

/-- H z, G z and Gᵀ y. -/
def qpMulH (s : List Nat) (z : List FV) : List FV :=
  (qpH s).foldl (fun a e =>
    let a := vAdd a e.1 (mul32 e.2.2 (vAt z e.2.1))
    if e.1 = e.2.1 then a else vAdd a e.2.1 (mul32 e.2.2 (vAt z e.1))) (List.replicate (qpN s) fz)
def qpMulG (s : List Nat) (z : List FV) : List FV :=
  (qpG s).foldl (fun a e => vAdd a e.1 (mul32 e.2.2 (vAt z e.2.1))) (List.replicate (qpM s) fz)
def qpMulGt (s : List Nat) (y : List FV) : List FV :=
  (qpG s).foldl (fun a e => vAdd a e.2.1 (mul32 e.2.2 (vAt y e.1))) (List.replicate (qpN s) fz)

/-! ### Factorisation (QPS.2) -/

/-- A symmetric matrix by elimination position: its diagonal, and of each column the entries below it. -/
structure Kkt where
  diag : List FV
  cols : List (Sparse FV)
deriving DecidableEq, Repr

/-- Entry of a column. -/
def colAt (k : Kkt) (j i : Nat) : FV := sget fz (nth [] k.cols j) i

/-- Set an entry at two positions. -/
def Kkt.put (k : Kkt) (a b : Nat) (x : FV) : Kkt :=
  if a = b then { k with diag := k.diag.set a x }
  else { k with cols := k.cols.set (min a b) (sins (nth [] k.cols (min a b)) (max a b) x) }

/-- Position of each KKT index. -/
def qpPos (s : List Nat) : List Nat := (List.range (qpN s + qpM s)).map (fun j => ((qpOrder s).findIdx? (· == j)).getD 0)

/-- The KKT matrix for a dual diagonal D, in elimination order. -/
def qpKkt (s : List Nat) (dd : List FV) : Kkt :=
  let n := qpN s
  let pos := qpPos s
  let at_ (j : Nat) : Nat := nth 0 pos j
  let k : Kkt := { diag := List.replicate (n + qpM s) fz, cols := List.replicate (n + qpM s) [] }
  let k := (qpH s).foldl (fun a e => a.put (at_ e.1) (at_ e.2.1) e.2.2) k
  let k := (qpG s).foldl (fun a e => a.put (at_ (n + e.1)) (at_ e.2.1) e.2.2) k
  (List.range (qpM s)).foldl (fun a i => a.put (at_ (n + i)) (at_ (n + i)) (vAt dd i).neg) k

/-- The largest magnitude in each row of a matrix, 1 for a row of zeros. -/
def rowMax (k : Kkt) : List FV :=
  let m := k.diag.map FV.abs
  let m := k.cols.zipIdx.foldl (fun a c => c.1.foldl (fun a e =>
    (a.set c.2 (fMax (vAt a c.2) e.2.abs)).set e.1 (fMax (vAt a e.1) e.2.abs)) a) m
  m.map (fun x => if x.isZero then one32 else x)

/-- A factorisation in progress: the factor, pivots replaced, and the position of the first. -/
structure Ldl where
  k : Kkt
  pivots : Nat := 0
  first : Option Nat := none
deriving DecidableEq, Repr

/-- The pivot used in place of `d`, and whether it was replaced (R908, R909). -/
def pivotOf (eps delta a d : FV) (primal : Bool) : FV × Bool :=
  let x := mul32 delta a
  if d.isZero then ((if primal then x else x.neg), true)
  else if d.abs.lt (mul32 eps a) then ((if d.isNeg then x.neg else x), true)
  else (d, false)

/-- Eliminate the pivot at position `j`. -/
def ldlStep (eps delta : FV) (a : List FV) (ord : List Nat) (n : Nat) (f : Ldl) (j : Nat) : Ldl :=
  let (d, rep) := pivotOf eps delta (vAt a j) (vAt f.k.diag j) (decide (nth 0 ord j < n))
  let col := nth [] f.k.cols j
  let l := col.map (fun e => (e.1, div32 e.2 d))
  let k := l.foldl (fun (k : Kkt) x => col.foldl (fun (k : Kkt) c =>
    if c.1 = x.1 then { k with diag := k.diag.set c.1 (sub32 (vAt k.diag c.1) (mul32 x.2 c.2)) }
    else if c.1 < x.1 then k.put c.1 x.1 (sub32 (colAt k c.1 x.1) (mul32 x.2 c.2))
    else k) k) f.k
  { k := { diag := k.diag.set j d, cols := k.cols.set j l }
    pivots := f.pivots + b2n rep
    first := if rep && f.first.isNone then some j else f.first }

/-- LDLᵀ of a matrix with regularised pivots. -/
def ldl (s : List Nat) (k : Kkt) : Ldl :=
  (List.range (qpN s + qpM s)).foldl (ldlStep (qpEps s) (qpDelta s) (rowMax k) (qpOrder s) (qpN s)) { k := k }

/-- Solve with a factor; vectors by position. -/
def ldlSolve (f : Kkt) (b : List FV) : List FV :=
  let n := b.length
  let x := (List.range n).foldl (fun x j =>
    (nth [] f.cols j).foldl (fun x e => x.set e.1 (sub32 (vAt x e.1) (mul32 e.2 (vAt x j)))) x) b
  let x := vMap n (fun j => div32 (vAt x j) (vAt f.diag j))
  (List.range n).reverse.foldl (fun x j =>
    (nth [] f.cols j).foldl (fun x e => x.set j (sub32 (vAt x j) (mul32 e.2 (vAt x e.1)))) x) x

/-- KKT times a vector, both by KKT index. -/
def kktMul (s : List Nat) (dd : List FV) (x : List FV) : List FV :=
  let n := qpN s
  let z := x.take n
  let y := x.drop n
  vPlus (qpMulH s z) (qpMulGt s y) ++ vMinus (qpMulG s z) (List.zipWith mul32 dd y)

/-- By position from by index, and back. -/
def toPos (s : List Nat) (v : List FV) : List FV := (qpOrder s).map (vAt v)
def toIdx (s : List Nat) (v : List FV) : List FV := (qpPos s).map (vAt v)

/-- Solve KKT x = b with `r` refinement steps. -/
def kktSolve (s : List Nat) (f : Kkt) (dd b : List FV) : List FV :=
  (List.range (qpR s)).foldl (fun x _ =>
    vPlus x (toIdx s (ldlSolve f (toPos s (vMinus b (kktMul s dd x)))))) (toIdx s (ldlSolve f (toPos s b)))

/-! ### The iteration (QPS.2) -/

/-- Iterates z, y and s, with what the statistics record of the iteration holds. -/
structure QIter where
  z : List FV
  y : List FV
  s : List FV
  mu : FV := fz
  rp : FV := fz
  rd : FV := fz
  alpha : FV := fz
  pivots : Nat := 0
  first : Option Nat := none
deriving DecidableEq, Repr

/-- The start from a point z (QPS.2, R914). -/
def qpStart (s : List Nat) (h z : List FV) : QIter :=
  let gz := qpMulG s z
  { z := z
    y := vMap (qpM s) (fun i => if i < qpEq s then fz else one32)
    s := vMap (qpM s) (fun i => if i < qpEq s then fz else fMax (sub32 (vAt h i) (vAt gz i)) one32) }

/-- The step length: 0.99 of the largest that keeps s and y from becoming negative, at most 1. -/
def qpAlpha (ineq : List Nat) (x : QIter) (ds dy : List FV) : FV :=
  let lim (a : Option FV) (v dv : FV) : Option FV :=
    if dv.lt fz then
      let t := div32 v dv.neg
      some (match a with
        | some b => fMin b t
        | none => t)
    else a
  match ineq.foldl (fun a i => lim (lim a (vAt x.s i) (vAt ds i)) (vAt x.y i) (vAt dy i)) none with
  | some a => fMin one32 (mul32 (f32.decode 0x3F7D70A4) a)
  | none => one32

/-- One iteration. -/
def qpIterate (s : List Nat) (q h : List FV) (x : QIter) : QIter :=
  let n := qpN s
  let m := qpM s
  let ineq := (List.range m).filter (fun i => decide (qpEq s ≤ i))
  let on (i : Nat) (v : FV) : FV := if qpEq s ≤ i then v else fz
  let rd := vPlus (vPlus (qpMulH s x.z) q) (qpMulGt s x.y)
  let rp := vMinus (vPlus (qpMulG s x.z) x.s) h
  let mle := m - qpEq s
  let mu := if mle = 0 then fz
            else div32 (ineq.foldl (fun a i => add32 a (mul32 (vAt x.s i) (vAt x.y i))) fz) (r32 (FV.ofInt mle 0))
  let sm := mul32 (qpSigma s) mu
  let dd := vMap m (fun i => on i (div32 (vAt x.s i) (vAt x.y i)))
  let f := ldl s (qpKkt s dd)
  let b := rd.map FV.neg ++ vMap m (fun i =>
    let r := (vAt rp i).neg
    if qpEq s ≤ i then sub32 (add32 r (vAt x.s i)) (div32 sm (vAt x.y i)) else r)
  let v := kktSolve s f.k dd b
  let dz := v.take n
  let dy := v.drop n
  let ds := vMap m (fun i => on i (sub32 (sub32 (div32 sm (vAt x.y i)) (vAt x.s i)) (mul32 (vAt dd i) (vAt dy i))))
  let a := qpAlpha ineq x ds dy
  let go (u du : List FV) : List FV := List.zipWith (fun p d => add32 p (mul32 a d)) u du
  { z := go x.z dz, y := go x.y dy, s := go x.s ds, mu := mu, rp := maxAbs rp, rd := maxAbs rd, alpha := a,
    pivots := f.pivots, first := f.first }

/-- An iterate holds a value that is not finite (R911). -/
def QIter.bad (x : QIter) : Bool := (x.z ++ x.y ++ x.s).any FV.nonFinite

/-! ### Times and validity (R902, R912) -/

/-- Pattern of L: of each column the positions below the diagonal, after eliminating in order (QPS.1). -/
def symbolic (s : List Nat) : List (List Nat) :=
  let pat := (qpKkt s (List.replicate (qpM s) one32)).cols.map (fun c => c.map (·.1))
  (List.range pat.length).foldl (fun p j =>
    let c := nth [] p j
    c.foldl (fun p i => p.set i ((nth [] p i ++ c.filter (fun k => decide (i < k) && !(nth [] p i).contains k)))) p) pat

/-- Beats of one iteration, and the least solve time (QPS.3). -/
def qpIterBeats (s : List Nat) : Nat :=
  let nd := countIf (fun e => e.1 == e.2.1) (qpH s)
  let nk := 2 * qpNnzH s + 2 * qpNnzG s + qpM s - nd
  cdiv (qpOps s) 16 + (qpR s + 1) * cdiv (2 * qpNnzL s) 16 + qpR s * cdiv nk 16 + cdiv (12 * (qpN s + qpM s)) 16 + 32
def qpFormBeats (s : List Nat) : Nat := 16 + cdiv (qpTerms s) 16
def qpMin (s : List Nat) : Nat := 16 + qpFormBeats s + qpK s * qpIterBeats s

/-- A list is strictly ascending by a key. -/
def ascending (l : List Nat) : Bool := (l.zip (l.drop 1)).all (fun p => decide (p.1 < p.2))

/-- A field is +0, or a finite value in a range. -/
def f32In (s : List Nat) (o : Nat) (lo hi : FV) (strict : Bool) : Bool :=
  let x := f32.decode (u32 s o)
  u32 s o == 0 || (!x.nonFinite && (if strict then lo.lt x && x.lt hi else !x.lt lo && !hi.lt x))

/-- A QPSCHED section is valid (R902); `client` for an image of SOLVE_QP, whose WARM and SOLVE_BEATS are zero (R920). -/
def qpValid (client : Bool) (s : List Nat) : Bool :=
  let n := qpN s
  let m := qpM s
  let fin (l : List (Nat × Nat × FV)) : Bool := l.all (fun e => !e.2.2.nonFinite)
  let c := (symbolic s).map List.length
  s.length == (qpEnd s + 15) / 16 * 16 && zerosAt s (qpEnd s) 16 && zerosAt s 30 2 && zerosAt s 48 16 &&
    decide (1 ≤ n) && decide (n ≤ 512) && decide (m ≤ 1024) && decide (n + m ≤ 1536) && decide (qpEq s ≤ m) &&
    (u8 s 6 == 0 || (decide (4 ≤ u8 s 6) && decide (u8 s 6 ≤ 32))) && (u8 s 7 == 0xFF || decide (u8 s 7 ≤ 3)) &&
    decide (1 ≤ qpNnzH s) && decide (qpNnzH s ≤ 65536) && decide (qpNnzG s ≤ 65536) && decide (1 ≤ qpNnzL s) &&
    decide (qpNnzL s ≤ 65536) && decide (qpTerms s ≤ 4096) && decide (qpMove s < n) &&
    (if client then u8 s 28 == 0 && u8 s 29 == 0 && qpBeats s == 0
     else decide (u8 s 28 ≤ 1) && (if qpWarm s then decide (1 ≤ qpShift s) && decide (qpShift s < n) else qpShift s == 0)) &&
    f32In s 32 (.fin false 1 (-60)) (.fin false 1 (-10)) false && f32In s 36 (.fin false 1 (-40)) (.fin false 1 (-4)) false &&
    f32In s 40 fz one32 true &&
    (qpH s).all (fun e => decide (e.1 ≤ e.2.1) && decide (e.2.1 < n)) && ascending ((qpH s).map (fun e => e.2.1 * 65536 + e.1)) &&
    (qpG s).all (fun e => decide (e.1 < m) && decide (e.2.1 < n)) && ascending ((qpG s).map (fun e => e.1 * 65536 + e.2.1)) &&
    fin (qpH s) && fin (qpG s) &&
    (List.range (qpTerms s)).all (fun t =>
      let o := qpOffT s + 8 * t
      decide (u8 s o ≤ 1) && decide (u8 s (o + 1) ≤ 5) && decide (u16 s (o + 2) < (if u8 s o = 0 then n else m)) &&
        !(f32.decode (u32 s (o + 4))).nonFinite) &&
    decide (qpOrder s).Nodup && (qpOrder s).all (fun j => decide (j < n + m)) &&
    qpNnzL s == n + m + c.foldl (· + ·) 0 && qpOps s == c.foldl (fun a k => a + (k * (k + 1) / 2 + k)) 0

end Sys2Proof.Machine
end

