-- ==== Sys2Proof/Machine/Loop.lean ====
section
/-!
DEFINITION. The Loop Engine (chapter 20): samples, setpoint and feedback, banks, the laws and limits, the oscillation
detector, drive outputs and the trace; and the solves of the QP Solver for the loop (chapter 21).
-/

namespace Sys2Proof.Machine

/-! ### The LOOP section (LPE.3) -/

def loMode (s : List Nat) : Nat := u8 s 0
def loTimer (s : List Nat) : Bool := u8 s 1 == 0
def loSp (s : List Nat) : Nat := u8 s 2
def loFb (s : List Nat) : Nat := u8 s 3
def loSpCh (s : List Nat) : Nat := u8 s 4
def loFbCh (s : List Nat) : Nat := u8 s 5
def loAux (s : List Nat) (k : Nat) : Nat := u8 s (6 + k)
def loPhSh (s : List Nat) : Nat := u8 s 8
def loPulse (s : List Nat) : Nat := u8 s 9
def loFallback (s : List Nat) : Nat := u8 s 10
def loFlag (s : List Nat) (i : Nat) : Bool := bitAt (u8 s 11) i
def loSpReg (s : List Nat) : Nat := u32 s 12
def loOutInit (s : List Nat) : Int := i32 s 16
def loSafe (s : List Nat) : Int := i32 s 20
def loRateSafe (s : List Nat) : Nat := u32 s 24
def loStale (s : List Nat) : Nat := u32 s 28
def loOscB (s : List Nat) : Nat := u32 s 32
def loOscW (s : List Nat) : Nat := u16 s 36
def loOscC (s : List Nat) : Nat := u8 s 38
def loOscM (s : List Nat) : Nat := u8 s 39
def loOscAct (s : List Nat) : Nat := u8 s 40
def loBank (s : List Nat) (b : Bool) : List Nat := bytesAt s (if b then 448 else 64) 384
def loDrive (s : List Nat) : List Nat := bytesAt s 832 32
def loCurve (s : List Nat) : List Nat := bytesAt s 864 1024
def loProfile (s : List Nat) : List Nat := bytesAt s 1888 1024

/-- Bank fields: coefficients of biquad `k`, the gains, limits. -/
def bkCoef (b : List Nat) (o : Nat) : Int × Nat := (i32 b o, u8 b (o + 4))
def bkBq (b : List Nat) (k j : Nat) : Int × Nat := bkCoef b (40 * k + 8 * j)
def bkGain (b : List Nat) (j : Nat) : Int × Nat := bkCoef b (320 + 8 * j)
def bkILim (b : List Nat) : Int := i32 b 352
def bkN (b : List Nat) : Nat := u8 b 356
def bkClear (b : List Nat) : Bool := bitAt (u8 b 357) 0
def bkMin (b : List Nat) : Int := i32 b 360
def bkMax (b : List Nat) : Int := i32 b 364
def bkRate (b : List Nat) : Int := i32 b 368

/-- The running plan's LOOP section and period. -/
def Dev.loSec (d : Dev) : List Nat := d.sec 14
def Dev.loP (d : Dev) : Nat := if d.planActive then planLoopPeriod d.sq.active d.sq.plan else 0

def Dev.setLpe (d : Dev) (f : Lpe → Lpe) : Dev := { d with lpe := f d.lpe }
def Dev.setQps (d : Dev) (f : Qps → Qps) : Dev := { d with qps := f d.qps }

/-- The loop runs. -/
def Dev.lpeOn (d : Dev) : Bool := d.works 11 && decide (d.loP ≠ 0) && decide (d.rd R.LPE_STATUS_STATE ≠ 0)

/-- Bytes of a bank's window. -/
def Dev.bankBytes (d : Dev) (b : Bool) : List Nat :=
  ((List.range 96).map (fun i => leBytes 4 (d.rdi (if b then R.LPE_BANK_B else R.LPE_BANK_A) i))).flatten

/-- Load words into a window of the Loop Engine. -/
def Dev.loadWords (d : Dev) (f : Fld) (bs : List Nat) : Dev :=
  (List.range f.count).foldl (fun a i => a.wri f i (u32 bs (4 * i))) d

/-- The active bank is B. -/
def Dev.bankB (d : Dev) : Bool := d.isSet R.LPE_STATUS_BANK

/-! ### Validity (LPE.3, LPE.6) -/

/-- A signed 32-bit integer lies in 0 to 2^31 - 1. -/
def nonneg31 (v : Nat) : Bool := decide (v < 2 ^ 31)

/-- A coefficient record is valid in a mode. -/
def coefOk (mode : Nat) (b : List Nat) (o : Nat) : Bool :=
  zerosAt b (o + 5) 3 &&
    (if mode = 2 then decide (-32768 ≤ i32 b o) && decide (i32 b o ≤ 32767) && decide (u8 b (o + 4) ≤ 7) else decide (u8 b (o + 4) ≤ 31))

/-- A bank is valid in a mode (R872, R875). -/
def bankOk (mode : Nat) (b : List Nat) : Bool :=
  (List.range 40).all (fun i => coefOk mode b (8 * i)) && (List.range 4).all (fun i => coefOk mode b (320 + 8 * i)) &&
    nonneg31 (u32 b 352) && decide (bkN b ≤ 8) && decide (u8 b 357 < 2) && zerosAt b 358 2 &&
    decide (bkMin b ≤ bkMax b) && nonneg31 (u32 b 368) && zerosAt b 372 12

/-- A setpoint curve table is valid (R870). -/
def curveOk (c : List Nat) : Bool :=
  let used (i : Nat) : Bool := !zerosAt c (16 * i) 16
  let n := countIf used (List.range 64)
  used 0 && (List.range n).all used && (List.range 64).all (fun i => zerosAt c (16 * i + 8) 8) &&
    (List.range (n - 1)).all (fun i => decide (u32 c (16 * i) < u32 c (16 * i + 16)))

/-- A drive record is valid for the outputs that FLAGS enables (LPE.6). -/
def driveOk (s : List Nat) : Bool :=
  let r := loDrive s
  let w := u8 r 2
  let mask := ((2 ^ w - 1) * 2 ^ u8 r 1)
  (if loFlag s 1 then
     decide (8 ≤ u8 r 0) && decide (u8 r 0 ≤ 32) && decide (1 ≤ w) && decide (w ≤ 24) && decide (u8 r 1 + w ≤ u8 r 0) &&
       decide (u8 r 3 < 8) && decide (5 ≤ u8 r 4) && decide (u8 r 4 ≤ 250) && decide (1 ≤ u8 r 5) && decide (1 ≤ u8 r 6) &&
       u8 r 7 == 0 && decide (u32 r 8 < 2 ^ u8 r 0) && u32 r 8 &&& mask == 0
   else zerosAt r 0 12) &&
  (if loFlag s 2 then decide (50 ≤ u16 r 12) && decide (1 ≤ u8 r 14) && decide (u8 r 14 ≤ 3) && (u8 r 14 == 2 || u8 r 15 == 0)
   else zerosAt r 12 4 && !loFlag s 3) && zerosAt r 16 16

/-- Beats of an SPI frame (R892). -/
def spiBeats (s : List Nat) : Nat := let r := loDrive s; if loFlag s 1 then u8 r 5 + u8 r 0 * u8 r 4 + u8 r 6 else 0

/-- A LOOP section is valid (R865, R871, R872, R892), for a period and the plan's SADCFG section. -/
def loopValid (s sad : List Nat) (p : Nat) : Bool :=
  let mpc := loMode s == 3
  let ch (n : Nat) : Bool := decide (n < 12) && bitAt (sadBound sad) n
  s.length == 2912 && decide (1 ≤ loMode s) && decide (loMode s ≤ 3) && decide (u8 s 1 ≤ 1) && decide (loSp s ≤ 3) &&
    decide (loFb s ≤ 1) && (if loSp s = 1 then ch (loSpCh s) else loSpCh s == 0) &&
    (if loFb s = 1 then ch (loFbCh s) else loFbCh s == 0) &&
    (List.range 2).all (fun k => loAux s k == 0xFF || (mpc && ch (loAux s k))) && decide (loPhSh s ≤ 32) &&
    decide (loPulse s ≤ 1) && (if mpc then decide (loFallback s ≤ 2) else loFallback s == 0) && decide (u8 s 11 < 64) &&
    decide (1 ≤ loRateSafe s) && nonneg31 (loRateSafe s) && decide (1 ≤ loStale s) && decide (loStale s ≤ 2500000) &&
    decide (2 ≤ loOscW s) && decide (1 ≤ loOscC s) && decide (1 ≤ loOscM s) && decide (loOscAct s ≤ 3) && zerosAt s 41 23 &&
    bankOk (loMode s) (loBank s false) && bankOk (loMode s) (loBank s true) && driveOk s && curveOk (loCurve s) &&
    (!loFlag s 4 || loFb s != 1 || cfgMode (sadRec sad (loFbCh s)).1 == 2) && decide (2 * spiBeats s ≤ p)

/-! ### Setpoint and feedback (LPE.2) -/

/-- The value of an ANALOG channel, whether it is valid, and its raw word (R866). -/
def Dev.analog (d : Dev) (stale n : Nat) : Int × Bool × Nat :=
  let w := d.rdi R.SAD_DATA n
  let left := d.isSeti R.SAD_CFG_LEFT n
  let code := if left then w / 256 else w % 2 ^ 24
  let c := d.sadCh n
  let v : Int := if d.isSeti R.SAD_CFG_DIFF n then toInt 24 code * 256 else (code * 128 : Nat)
  (v, decide (0 < c.sent) && decide (d.beat ≤ c.lastAt + stale) && !bitAt w (if left then 0 else 24), w)

/-- The measured period of R868, and whether its source gave an edge within STALE (R866). -/
def Dev.pulsePeriod (d : Dev) (s : List Nat) : Nat × Bool :=
  let fresh (b : Option Nat) : Bool := match b with
    | some b => decide (d.beat ≤ b + loStale s)
    | none => false
  if loPulse s = 0 then (d.rd R.CAD_SETP_PERIOD, fresh d.cad.setpAt)
  else (match d.cad.plPeriod with
        | some p => 16 * p
        | none => 0xFFFFFFFF, fresh d.cad.plBeat)

/-- The setpoint curve at a period (R868). -/
def Dev.curveAt (d : Dev) (p : Nat) : Int :=
  let w (i : Nat) : Nat := d.rdi R.LPE_CURVE i
  let n := countIf (fun i => w (4 * i) ≠ 0 || w (4 * i + 1) ≠ 0) (List.range 64)
  let per (i : Nat) : Nat := w (4 * i)
  let val (i : Nat) : Int := toInt 32 (w (4 * i + 1))
  if p ≤ per 0 then val 0
  else if per (n - 1) ≤ p then val (n - 1)
  else match (List.range (n - 1)).find? (fun i => decide (per i ≤ p) && decide (p < per (i + 1))) with
    | some i => val i + (val (i + 1) - val i) * (p - per i : Nat) / (per (i + 1) - per i : Nat)
    | none => val 0

/-- The profile at the phase fraction (R869). -/
def Dev.profileAt (d : Dev) : Int :=
  let f := d.phase % 2 ^ 24
  let v (i : Nat) : Int := toInt 32 (d.rdi R.LPE_PROFILE (i % 256))
  let k := f / 65536
  satS 32 (v k + (v (k + 1) - v k) * (f % 65536 : Nat) / 65536)

/-- The setpoint and whether it is valid. -/
def Dev.setpoint (d : Dev) (s : List Nat) : Int × Bool :=
  match loSp s with
  | 0 => (toInt 32 (d.rd R.LPE_SETPOINT), true)
  | 1 => let a := d.analog (loStale s) (loSpCh s); (a.1, a.2.1)
  | 2 => let p := d.pulsePeriod s; (d.curveAt p.1, p.2)
  | _ => (d.profileAt, d.isSet R.CAD_STATUS_VALID)

/-- The feedback, whether it is valid, and the raw word of its channel. -/
def Dev.feedback (d : Dev) (s : List Nat) : Int × Bool × Nat :=
  if loFb s = 0 then (toInt 32 (d.phase >>> loPhSh s), d.isSet R.CAD_STATUS_VALID, 0)
  else d.analog (loStale s) (loFbCh s)

/-- The error (R864). -/
def loopError (s : List Nat) (r y : Int) : Int := if loFb s = 0 then toInt 32 (ofInt 32 (r - y)) else satS 32 (r - y)

/-- An auxiliary value; absent ones are zero and valid. -/
def Dev.auxValue (d : Dev) (s : List Nat) (k : Nat) : Int × Bool :=
  if loAux s k = 0xFF then (0, true) else let a := d.analog (loStale s) (loAux s k); (a.1, a.2.1)

/-! ### The laws (LPE.4) -/

/-- Saturate, counting the saturation (ACC_SAT). -/
def satC (w : Nat) (x : Int × Nat) : Int × Nat := let y := satS w x.1; (y, if y = x.1 then x.2 else x.2 + 1)

/-- Saturate an accumulator of `w` bits to its symmetric range (R877, R879). -/
def satAcc (w : Nat) (x : Int × Nat) : Int × Nat :=
  let m : Int := ((2 ^ (w - 1) : Nat) : Int) - 1
  let y := clampInt (-m) m x.1
  (y, if y = x.1 then x.2 else x.2 + 1)

/-- A term: a FIXED product shifted right, or a FRACTION product of Q1.15 values shifted left. -/
def lawTerm (frac : Bool) (c : Int × Nat) (v : Int) : Int :=
  if frac then c.1 * (v / 65536) * (2 ^ c.2 : Nat) else c.1 * v / (2 ^ c.2 : Nat)

/-- Add terms in an accumulator (R877, R879). -/
def accSum (frac : Bool) (start : Int) (n : Nat) (l : List Int) : Int × Nat :=
  l.foldl (fun a t => satAcc (if frac then 40 else 64) (a.1 + t, a.2)) (start, n)

/-- The result of a sum: saturated to 32 bits, or rounded to the nearest Q1.15, halves upward, and held times 2^16. -/
def accOut (frac : Bool) (x : Int × Nat) : Int × Nat :=
  if frac then let y := satC 16 ((x.1 + 16384) / 32768, x.2); (y.1 * 65536, y.2) else satC 32 x

/-- One biquad: the law, the value that runs through, and the number of saturations. -/
def biquad (frac : Bool) (b : List Nat) (a : LpLaw × Int × Nat) (k : Nat) : LpLaw × Int × Nat :=
  let (l, x, n) := a
  let t (j : Nat) (v : Int) : Int := lawTerm frac (bkBq b k j) v
  let (w, n) := accOut frac (accSum frac 0 n
    [t 0 x, t 1 (nth 0 l.x1 k), t 2 (nth 0 l.x2 k), -t 3 (nth 0 l.w1 k), -t 4 (nth 0 l.w2 k)])
  ({ l with x2 := l.x2.set k (nth 0 l.x1 k), x1 := l.x1.set k x, w2 := l.w2.set k (nth 0 l.w1 k), w1 := l.w1.set k w }, w, n)

/-- A computed sample of the FIXED or FRACTION law: the law, u_law, and the number of saturations (R877-R879). -/
def lawStep (frac : Bool) (b : List Nat) (l : LpLaw) (hi lo : Bool) (e r : Int) : LpLaw × Int × Nat :=
  let (l, v, n) := (List.range (bkN b)).foldl (biquad frac b) (l, e, 0)
  let t (j : Nat) (x : Int) : Int := lawTerm frac (bkGain b j) x
  let dI := t 1 v
  let lim := bkILim b
  let held := (hi && decide (0 < dI)) || (lo && decide (dI < 0))
  let (i, n) := if held then (l.i, n)
                else if frac then let x := accOut true (accSum true (l.i / 2) n [dI]); (clampInt (-lim) lim x.1, x.2)
                else (clampInt (-lim) lim (l.i + dI), n)
  let (u, n) := accOut frac (accSum frac 0 n [t 0 v, if frac then i / 2 else i, t 2 (v - l.vPrev), t 3 r])
  ({ l with i := i, vPrev := v }, u, n)

/-- `round (m * 2^31)`, halves away from zero, saturated to 32 bits (R880). -/
def moveLaw (m : Nat) : Int :=
  match f32.decode m with
  | .fin s k e =>
    let q : Int := e + 31
    let v : Int := if 0 ≤ q then (k * 2 ^ q.toNat : Nat) else ((2 * k + 2 ^ (-q).toNat) / 2 ^ ((-q).toNat + 1) : Nat)
    satS 32 (if s then -v else v)
  | _ => 0

/-- A loop value as a parameter: times 2^-31, in binary32 (R880). -/
def thetaOf (v : Int) : Nat := f32.encode (FV.ofInt v (-31))

/-! ### Resolving samples -/

/-- Words of the trace nodes 0-19 for a resolved sample (LPE.7). -/
def Dev.traceNodes (d : Dev) (x : LpSample) (fb sat rate : Bool) (out : Int) : List Nat :=
  let l := d.lpe
  let w (i : Int) : Nat := ofInt 32 i
  let st := b2n (x.kind ≠ 0) + 2 * b2n fb + 4 * b2n sat + 8 * b2n rate + 16 * b2n x.trip + 32 * b2n x.fault +
    64 * b2n x.hold + 128 * b2n x.bankB
  [0, w x.r, w x.y, w x.e, w l.uLaw, w out, w l.law.i] ++ l.law.w1.map w ++ [l.m, w x.aux0, w x.aux1, st, x.raw]

/-- Output of a held sample (R867, R886, R888). -/
def Dev.heldOut (d : Dev) (s : List Nat) (kind : Nat) : Int :=
  let p := d.lpe.prevOut
  if kind = 2 then
    let r : Int := loRateSafe s
    if p < loSafe s then min (loSafe s) (p + r) else max (loSafe s) (p - r)
  else if kind = 3 then loSafe s else p

/-- The law value of a computed sample (R877-R881). -/
def Dev.lawOf (d : Dev) (s : List Nat) (x : LpSample) : Dev × Int × Bool :=
  let l := d.lpe
  let run (frac : Bool) (b : List Nat) : Dev × Int :=
    let (law, u, n) := lawStep frac b l.law l.limHi l.limLo x.e x.r
    ((d.setLpe (fun q => { q with law := law })).addi R.LPE_CNT4_ACC_SAT 0 n, u)
  if loMode s ≠ 3 then let (d, u) := run (loMode s == 2) x.bank; (d, u, false)
  else
    let (d, ub) := if loFallback s = 2 then run false (d.bankBytes true) else (d, 0)
    if x.move = 2 then (d.setLpe (fun q => { q with m := x.m }), moveLaw x.m, false)
    else (d.inc R.LPE_CNT2_FALLBACK, (match loFallback s with
      | 0 => l.prevOut
      | 1 => 0
      | _ => ub), true)

/-- Resolve a sample whose law value can be had: its output, limited by R882 and R883. -/
def Dev.resolve (d : Dev) (s : List Nat) (x : LpSample) : Dev × LpSample :=
  let d := if x.clear then d.setLpe (fun l => { l with law := {} }) else d
  if x.kind ≠ 0 then
    let out := d.heldOut s x.kind
    let nodes := d.traceNodes x false false false out
    (d.setLpe (fun l => { l with prevOut := out, limHi := false, limLo := false }), { x with done := true, out := out, nodes := nodes })
  else
    let (d, u, fb) := d.lawOf s x
    let p := d.lpe.prevOut
    let u1 := clampInt (bkMin x.bank) (bkMax x.bank) u
    let rm := bkRate x.bank
    let out := if rm = 0 then u1 else clampInt (max (-2147483648) (p - rm)) (min 2147483647 (p + rm)) u1
    let sat := u1 ≠ u
    let rate := out ≠ u1
    let d := if sat then d.inc R.LPE_CNT1_SAT else d
    let d := if rate then d.inc R.LPE_CNT1_RATE else d
    let d := d.setLpe (fun l => { l with uLaw := u, prevOut := out, limHi := decide (u1 < u) || decide (out < u1),
                                         limLo := decide (u < u1) || decide (u1 < out) })
    (d, { x with done := true, out := out, nodes := d.traceNodes x fb sat rate out })

/-- Resolve the waiting samples in order, up to the first that awaits its move. -/
def Dev.resolveList (d : Dev) (s : List Nat) : List LpSample → Dev × List LpSample
  | [] => (d, [])
  | x :: r =>
    if x.done then let (d, r) := d.resolveList s r; (d, x :: r)
    else if x.move = 1 then (d, x :: r)
    else
      let (d, x) := d.resolve s x
      let (d, r) := d.resolveList s r
      (d, x :: r)

def Dev.resolveAll (d : Dev) : Dev :=
  let (d, l) := d.resolveList d.loSec d.lpe.pend
  d.setLpe (fun q => { q with pend := l })

/-! ### The trace (LPE.7) -/

/-- The words that a sample writes: its channels' nodes and the stamp. -/
def Dev.traceEntry (d : Dev) (x : LpSample) : List Nat :=
  (List.range 8).map (fun c => nth 0 x.nodes (d.rdi R.LPE_TRC_SEL c)) ++ [x.stamp]

/-- An entry meets the trigger (LPE.7). -/
def Dev.traceTrig (d : Dev) (x : LpSample) (e : List Nat) : Bool :=
  let st := nth 0 x.nodes 18
  match d.rd R.LPE_TRC_CTL_TRIG with
  | 0 => true
  | 1 =>
    match d.lpe.trace.prev with
    | some p =>
      let c := d.rd R.LPE_TRC_CTL_TRIG_CH
      let lv := toInt 32 (d.rd R.LPE_TRC_LEVEL)
      let a := toInt 32 (nth 0 p c)
      let b := toInt 32 (nth 0 e c)
      let up := decide (a < lv) && decide (lv ≤ b)
      let dn := decide (lv < a) && decide (b ≤ lv)
      (match d.rd R.LPE_TRC_CTL_EDGE with
       | 0 => up
       | 1 => dn
       | _ => up || dn)
    | none => false
  | 2 => bitAt st 4 || bitAt st 5
  | _ => bitAt st 1

/-- STATE and ENTRIES of the trace. -/
def Dev.syncTrace (d : Dev) (st : Nat) : Dev :=
  (d.wr R.LPE_TRC_STATUS_STATE st).wr R.LPE_TRC_STATUS_ENTRIES d.lpe.trace.entries.length

/-- A sample's entry is written at its output beat (R895). -/
def Dev.traceWrite (d : Dev) (x : LpSample) : Dev :=
  let st := d.rd R.LPE_TRC_STATUS_STATE
  if st = 0 ∨ st = 4 then d
  else
    let e := d.traceEntry x
    let t := d.lpe.trace
    let pre := d.rd R.LPE_TRC_CTL_PRE
    if t.triggered then
      let l := t.entries ++ [e]
      (d.setLpe (fun q => { q with trace := { t with entries := l } })).syncTrace (if 8192 ≤ l.length then 4 else 3)
    else if d.traceTrig x e then
      let have_ := t.entries.drop (t.entries.length - pre)
      let l := List.replicate (pre - have_.length) (List.replicate 9 0) ++ have_ ++ [e]
      let d := if have_.length < pre then d.flag R.LPE_TRC_STATUS_SHORT true else d
      (d.setLpe (fun q => { q with trace := { t with entries := l, triggered := true } })).syncTrace (if 8192 ≤ l.length then 4 else 3)
    else
      let l := (t.entries ++ [e]).drop (t.entries.length + 1 - pre)
      (d.setLpe (fun q => { q with trace := { t with entries := l, prev := some e } })).syncTrace (if pre ≤ l.length then 2 else 1)

/-! ### Outputs (LPE.1, LPE.6) -/

/-- The SPI word of an output (R891). -/
def spiWord (r : List Nat) (u : Int) : Nat :=
  let w := u8 r 2
  let d := ofInt w (u / (2 ^ (32 - w) : Nat))
  let d := if bitAt (u8 r 3) 0 then d ^^^ 2 ^ (w - 1) else d
  u32 r 8 ||| (d * 2 ^ u8 r 1)

/-- Duty of DRV_PWM_A, and what DRV_PWM_B does: in SIGN_MAG whether it is high, else 0 (R893). -/
def pwmOf (r : List Nat) (u : Int) : Nat × Nat :=
  let p := u16 r 12
  if u8 r 14 = 3 then (min p (u.natAbs * p / 2 ^ 31), b2n (decide (u < 0)))
  else (((u + 2 ^ 31).toNat * p) / 2 ^ 32, 0)

/-- An output beat (R862, R891-R894). -/
def Dev.applyOutput (d : Dev) (s : List Nat) (x : LpSample) : Dev :=
  let r := loDrive s
  let d := d.wr R.LPE_OUT (ofInt 32 x.out)
  let d := if loFlag s 1 then d.emit (.spi (spiWord r x.out)) else d
  let d := if loFlag s 2 then let p := pwmOf r x.out; d.emit (.pwm p.1 p.2) else d
  let d := if loFlag s 0 && x.kind == 0 && !d.isSet R.LPE_STATUS_FAULT then d.flag R.LPE_STATUS_DRV_EN true else d
  d.traceWrite x

/-- Apply the output of the oldest sample whose output beat has come; a move still awaited is replaced by the FALLBACK. -/
def Dev.outputDue (d : Dev) : Dev :=
  match d.lpe.pend with
  | x :: _ =>
    if d.lpeOn && decide (x.due ≤ d.beat) then
      let d := if x.done then d
               else (d.setLpe (fun q => { q with pend := q.pend.map (fun z => if z.beat = x.beat ∧ z.move = 1 then { z with move := 3 } else z) })).resolveAll
      match d.lpe.pend with
      | y :: r => (d.setLpe (fun q => { q with pend := r })).applyOutput d.loSec y
      | [] => d
    else d
  | [] => d

/-- The output beat of a sample (R862). -/
def loopOutput (d : Dev) : Dev := d.outputDue

def execLoopOutputBeat (s : State) : Host.Outcome State Fault Refusal := onDev loopOutput s

/-! ### The detector and swaps (LPE.3, LPE.5) -/

/-- A computed sample passes the oscillation detector (R885-R887). -/
def Dev.detect (d : Dev) (s : List Nat) (e : Int) : Dev :=
  let l := d.lpe
  let big (v : Int) : Bool := decide (loOscB s < v.natAbs)
  let change := match l.ePrev with
    | some p => big p && big e && (decide (p < 0) != decide (e < 0))
    | none => false
  let d := d.setLpe (fun q => { q with ePrev := some e })
  if d.isSet R.LPE_STATUS_TRIP then d
  else
    let n := l.oscN + 1
    let c := l.oscC + b2n change
    if n < loOscW s then d.setLpe (fun q => { q with oscN := n, oscC := c })
    else
      let m := if loOscC s ≤ c then l.oscM + 1 else 0
      if loOscAct s ≠ 0 ∧ loOscM s ≤ m then
        let act := if loOscAct s = 1 then 1 else if loOscAct s = 3 ∨ d.bankB then 2 else 3
        ((d.setLpe (fun q => { q with oscN := 0, oscC := 0, oscM := 0, tripAct := act, toB := act == 3 })).flag
          R.LPE_STATUS_TRIP true).inc R.LPE_CNT2_OSC_TRIPS
      else d.setLpe (fun q => { q with oscN := 0, oscC := 0, oscM := m })

/-- A pending swap takes effect at a sample (R875, R876, R886); whether it cleared the law's states. -/
def Dev.swapNow (d : Dev) (s : List Nat) : Dev × Bool :=
  let toB := d.lpe.toB
  if !d.isSet R.LPE_STATUS_SWAP_PEND && !toB then (d, false)
  else
    let b := toB || !d.bankB
    let d := (d.flag R.LPE_STATUS_SWAP_PEND false).setLpe (fun q => { q with toB := false })
    if b = d.bankB then (d, false)
    else if bankOk (loMode s) (d.bankBytes b) then
      ((d.flag R.LPE_STATUS_BANK b).flag R.LPE_STATUS_SWAP_ERR false, bkClear (d.bankBytes b))
    else (d.flag R.LPE_STATUS_SWAP_ERR true, false)

/-! ### QP Solver registers and records (QPS.3, QPS.5) -/

/-- STATE, WARM_OK, IT and CLIENT follow the solver. -/
def Dev.syncQps (d : Dev) : Dev :=
  let d := match d.qps.run with
    | some r =>
      let d := (d.wr R.QPS_STATUS_STATE (if r.owner.isNone then 1 else 2)).wr R.QPS_STATUS_CLIENT (match r.owner with | some o => o.1 | none => 0)
      d.wr R.QPS_STATUS_IT (if r.overflow || decide (qpK r.sec ≤ r.it) then 0 else r.it + 1)
    | none => ((d.wr R.QPS_STATUS_STATE 0).wr R.QPS_STATUS_CLIENT 0).wr R.QPS_STATUS_IT 0
  d.flag R.QPS_STATUS_WARM_OK d.qps.warm.isSome

/-- The statistics record of a solve (QPS.3). -/
def QRun.record (r : QRun) (status move : Nat) : List Nat :=
  [status, r.it] ++ leBytes 2 (min r.pivots 0xFFFF) ++ leBytes 4 r.mu ++ leBytes 4 r.rp ++ leBytes 4 r.rd ++
    leBytes 4 r.alpha ++ leBytes 4 move ++ leBytes 4 r.stamp ++ leBytes 4 (r.firstReg.getD 0xFFFFFFFF) ++ List.replicate 32 0

/-- QPS_LAST holds a record. -/
def Dev.qpsLast (d : Dev) (b : List Nat) : Dev := (List.range 16).foldl (fun a i => a.wri R.QPS_LAST i (u32 b (4 * i))) d

/-- Patterns and values of vectors. -/
def patsOf (l : List FV) : List Nat := l.map f32.encode
def valsOf (l : List Nat) : List FV := l.map f32.decode

/-- A solve starts from a point (QPS.2, R914). -/
def qpBegin (owner : Option (Nat × Nat)) (sec theta : List Nat) (start stamp : Nat) (z : List Nat) : QRun :=
  let (_, h) := qpVecs sec (valsOf theta)
  let x := qpStart sec h (valsOf z)
  { owner := owner, sec := sec, theta := theta, start := start, stamp := stamp, z := z, y := patsOf x.y, s := patsOf x.s }

/-- One iteration of a running solve (R905, R911). -/
def QRun.step (r : QRun) : QRun :=
  if r.overflow || decide (qpK r.sec ≤ r.it) then r
  else
    let (q, h) := qpVecs r.sec (valsOf r.theta)
    let x := qpIterate r.sec q h { z := valsOf r.z, y := valsOf r.y, s := valsOf r.s }
    { r with it := r.it + 1, z := patsOf x.z, y := patsOf x.y, s := patsOf x.s, overflow := x.bad,
             pivots := r.pivots + x.pivots, firstReg := if r.firstReg.isSome then r.firstReg else x.first,
             mu := f32.encode x.mu, rp := f32.encode x.rp, rd := f32.encode x.rd, alpha := f32.encode x.alpha }

/-- The iterations that are left. -/
def QRun.rest (r : QRun) : QRun := (List.range (qpK r.sec - r.it)).foldl (fun r _ => r.step) r

/-- The counters of a solve that ends (QPS.5). -/
def Dev.qpsEnded (d : Dev) (r : QRun) : Dev :=
  let d := (d.inc R.QPS_SOLVES).addi R.QPS_PIVOTS 0 r.pivots
  let d := if r.pivots = 0 then d else d.inc R.QPS_CNT1_PIVSOLVES
  if r.overflow then d.inc R.QPS_CNT0_OVERFLOW else d

/-- Give the sample at a beat its move or its FALLBACK. -/
def Dev.giveMove (d : Dev) (beat : Nat) (m : Option Nat) : Dev :=
  (d.setLpe (fun q => { q with pend := q.pend.map (fun x => if x.beat = beat ∧ x.move = 1 then
    { x with move := if m.isSome then 2 else 3, m := m.getD 0 } else x) })).resolveAll

/-- A running loop solve is abandoned (R923, R925). -/
def Dev.abandonSolve (d : Dev) : Dev :=
  match d.qps.run with
  | some r =>
    if r.owner.isSome then d
    else
      let d := (d.qpsLast (r.record 3 0)).inc R.QPS_CNT1_ABANDON
      (d.setQps (fun _ => {})).syncQps.giveMove (r.start - 8) none
  | none => (d.setQps (fun q => { q with warm := none })).syncQps

/-! ### Samples (LPE.1) -/

/-- The move that an MPC sample will get: 1 awaited, 3 for a busy solver (R915). -/
def Dev.askMove (d : Dev) (s : List Nat) (x : LpSample) : Dev × LpSample :=
  if loMode s ≠ 3 ∨ x.kind ≠ 0 then (d, x)
  else match d.qps.run with
    | some r =>
      if r.owner.isSome then (d, { x with move := 1 })
      else
        let b : QRun := { owner := none, sec := [], theta := [], start := d.beat, stamp := x.stamp }
        (((d.inc R.QPS_CNT0_BUSY).qpsLast (b.record 2 0)), { x with move := 3 })
    | none => (d, { x with move := 1 })

/-- A sample of the loop (LPE.1, LPE.2). -/
def Dev.sampleNow (d : Dev) : Dev :=
  let d := d.outputDue
  let s := d.loSec
  let p := d.loP
  let early := match d.lpe.lastS with
    | some b => decide (2 * (d.beat - b) < p)
    | none => false
  if !d.lpeOn then d
  else if early then d.inc R.LPE_CNT0_EARLY
  else
    let now := d.beat
    let d := (d.setLpe (fun q => { q with lastS := some now })).inc R.LPE_SAMPLES
    let (d, clear) := d.swapNow s
    let (r, rOk) := d.setpoint s
    let (y, yOk, raw) := d.feedback s
    let (a0, a0Ok) := d.auxValue s 0
    let (a1, a1Ok) := d.auxValue s 1
    let d := if loFlag s 4 && loFb s == 1 then
        d.setSad (fun q => { q with urg := q.urg ++ [{ ch := loFbCh s, at_ := now, loop := true }] })
      else d
    let kind := if d.isSet R.LPE_STATUS_FAULT then 3 else if d.lpe.tripAct = 1 then 1 else if d.lpe.tripAct = 2 then 2
                else if rOk && yOk && a0Ok && a1Ok then 0 else 1
    let e := loopError s r y
    let x : LpSample := { beat := now, due := now + p + 30, stamp := d.stamp, kind := kind, clear := clear, r := r, y := y, e := e,
                          aux0 := a0, aux1 := a1, raw := raw, bank := d.bankBytes d.bankB, bankB := d.bankB,
                          hold := d.isSet R.CAD_STATUS_HOLD_TIMING && !loTimer s, trip := d.isSet R.LPE_STATUS_TRIP,
                          fault := d.isSet R.LPE_STATUS_FAULT }
    let d := if kind = 0 then (d.detect s e).wr R.LPE_STATUS_STATE 2 else d.inc R.LPE_CNT0_HELD
    let (d, x) := d.askMove s x
    (d.setLpe (fun q => { q with pend := q.pend ++ [x] })).resolveAll

/-- A LOOP_SAMPLE action (R331-R333, R860). -/
def loopSample (row : Nat) (d : Dev) : Dev :=
  match d.acting row 4 with
  | some e =>
    let (d, b) := d.acted.loopTiming e
    if b then d.sampleNow else d
  | none => d

def execLoopSample (row : Nat) (s : State) : Host.Outcome State Fault Refusal :=
  unit (decide (row < 1024)) (onDev (loopSample row) s)

/-- A held sample of HOLD_TIMING (R331). -/
def heldLoopSample (d : Dev) : Dev :=
  if d.heldDue then (d.setCad (fun c => { c with holdLast := some d.beat })).sampleNow else d

def execHeldLoopSample (s : State) : Host.Outcome State Fault Refusal := onDev heldLoopSample s

/-- A sample of a TIMER loop (R859). -/
def loopTimerSample (d : Dev) : Dev :=
  let p := d.loP
  if p ≠ 0 ∧ loTimer d.loSec ∧ d.lpe.b0 ≤ d.beat ∧ (d.beat - d.lpe.b0) % p = 0 ∧ d.lpe.lastS ≠ some d.beat then d.sampleNow else d

def execLoopTimerSample (s : State) : Host.Outcome State Fault Refusal := onDev loopTimerSample s

/-! ### Loop solves (QPS.3) -/

/-- The solve of a loop sample starts 8 beats after it (R880, R914). -/
def qpSolveStart (d : Dev) : Dev :=
  match d.lpe.pend.find? (fun x => x.move == 1 && !x.solving && decide (x.beat + 8 ≤ d.beat)) with
  | some x =>
    if !d.works 12 || d.qps.run.isSome || !d.lpeOn then d
    else
      let sec := d.sec 15
      let n := qpN sec
      let z := match d.qps.warm with
        | some w => if qpWarm sec then (List.range n).map (fun i => nth 0 w (if i + qpShift sec < n then i + qpShift sec else i))
                    else List.replicate n 0
        | none => List.replicate n 0
      let theta := [thetaOf x.e, thetaOf x.r, thetaOf x.y, thetaOf d.lpe.prevOut, thetaOf x.aux0, thetaOf x.aux1]
      let d := d.setLpe (fun q => { q with pend := q.pend.map (fun y => if y.beat = x.beat then { y with solving := true } else y) })
      (d.setQps (fun q => { q with run := some (qpBegin none sec theta (x.beat + 8) x.stamp z) })).syncQps
  | none => d

def execQpSolveStart (s : State) : Host.Outcome State Fault Refusal := onDev qpSolveStart s

/-- An iteration of a loop solve ends at its beat (QPS.3). -/
def Dev.loopIter (d : Dev) (r : QRun) : Dev :=
  if r.start + qpFormBeats r.sec + (r.it + 1) * qpIterBeats r.sec ≤ d.beat then
    (d.setQps (fun q => { q with run := some r.step })).syncQps
  else d

/-- The delivery beat of a loop solve (R913). -/
def Dev.loopDelivery (d : Dev) (r : QRun) : Dev :=
  if d.beat < r.start + qpBeats r.sec then d
  else
    let r := r.rest
    let move := nth 0 r.z (qpMove r.sec)
    let d := (d.qpsEnded r).qpsLast (if r.overflow then r.record 1 0 else r.record 0 move)
    let d := (d.setQps (fun _ => { run := none, warm := if r.overflow || !qpWarm r.sec then none else some r.z })).syncQps
    d.giveMove (r.start - 8) (if r.overflow then none else some move)

/-! ### Register writes (LPE.3, LPE.8) -/

/-- A host write that only an active plan takes (LPE.8). -/
def Dev.lpeWrite (d : Dev) (m : Master) (addr : Nat) (f : Dev → Dev) : Dev :=
  d.gated m addr (fun d => if d.planActive then f d else d.accessError (masterClient m) addr)

/-- LPE_CTL.SWAP (R875). -/
def Dev.ctlSwap (d : Dev) : Dev := if d.rd R.LPE_STATUS_STATE = 0 then d else d.flag R.LPE_STATUS_SWAP_PEND true

/-- LPE_CTL.CLEAR_TRIP (R887, R889, R890). -/
def Dev.ctlClear (d : Dev) (high : Bool) : Dev :=
  let d := d.setLpe (fun q => { q with faultLow := !high, tripAct := 0, toB := false, oscN := 0, oscC := 0, oscM := 0 })
  let d := d.flag R.LPE_STATUS_TRIP false
  if high then d.flag R.LPE_STATUS_FAULT false else d

/-- A write of LPE_CTL. -/
def swap (m : Master) (value : Nat) (d : Dev) : Dev :=
  d.lpeWrite m 0x120000 (fun d => if bitAt value 0 then d.ctlSwap else d)

def execSwap (m : Master) (value : Nat) (s : State) : Host.Outcome State Fault Refusal := onDev (swap m value) s

def clearTrip (m : Master) (value : Nat) (high : Bool) (d : Dev) : Dev :=
  d.lpeWrite m 0x120000 (fun d =>
    let d := if bitAt value 0 then d.ctlSwap else d
    if bitAt value 1 then d.ctlClear high else d)

def execClearTrip (m : Master) (value : Nat) (faultHigh : Bool) (s : State) : Host.Outcome State Fault Refusal :=
  onDev (clearTrip m value faultHigh) s

/-- A drive fault is recognised (R888). -/
def driveFault (d : Dev) : Dev :=
  if !d.works 11 then d.setLpe (fun q => { q with faultLow := true })
  else
    let d := d.setLpe (fun q => { q with faultLow := true })
    ((d.flag R.LPE_STATUS_DRV_EN false).flag R.LPE_STATUS_FAULT true).inc R.LPE_CNT3_DRV_FAULT

def execDriveFault (s : State) : Host.Outcome State Fault Refusal := onDev driveFault s

/-- A bank that the host may not write: active, about to be, or bank B of a loop whose FALLBACK uses it (R874, R881). -/
def Dev.bankInUse (d : Dev) (b : Bool) : Bool :=
  let s := d.loSec
  b == d.bankB || d.isSet R.LPE_STATUS_SWAP_PEND || (b && d.lpe.toB) || (b && loMode s == 3 && loFallback s == 2)

/-- A write of a word of a bank (R874). -/
def lpeBankWrite (m : Master) (bank word value : Nat) (d : Dev) : Dev :=
  let addr := (if bank = 0 then 0x121000 else 0x121200) + 4 * word
  let b := bank ≠ 0
  d.lpeWrite m addr (fun d =>
    if d.rd R.LPE_STATUS_STATE ≠ 0 && d.bankInUse b then (d.inc R.LPE_CNT3_BANK_REF).accessError (masterClient m) addr
    else d.wri (if b then R.LPE_BANK_B else R.LPE_BANK_A) word value)

def execLpeBankWrite (m : Master) (bank word value : Nat) (s : State) : Host.Outcome State Fault Refusal :=
  unit (decide (bank < 2 ∧ word < 96)) (onDev (lpeBankWrite m bank word value) s)

/-- A READ_TRACE runs. -/
def Dev.traceReading (d : Dev) : Bool := d.clients.any (fun e => e.2.cmds.any (fun k => k.op == opTrace && k.phase == .running))

/-- A write of LPE_TRC_CTL (R895, R897). -/
def traceArm (m : Master) (value : Nat) (d : Dev) : Dev :=
  d.lpeWrite m 0x120040 (fun d =>
    let d := (d.wr R.LPE_TRC_CTL_TRIG (bits value 1 2)).wr R.LPE_TRC_CTL_TRIG_CH (bits value 3 3)
    let d := (d.wr R.LPE_TRC_CTL_EDGE (bits value 6 2)).wr R.LPE_TRC_CTL_PRE (bits value 8 13)
    if !bitAt value 0 then d
    else if d.traceReading then d.inc R.LPE_CNT4_ARM_REF
    else ((d.setLpe (fun q => { q with trace := {} })).flag R.LPE_TRC_STATUS_SHORT false).syncTrace
      (if bits value 8 13 = 0 then 2 else 1))

def execTraceArm (m : Master) (value : Nat) (s : State) : Host.Outcome State Fault Refusal := onDev (traceArm m value) s

/-! ### READ_TRACE (R896, R897) -/

/-- The bytes that READ_TRACE writes: the columns of the channels of a mask, then the stamps. -/
def Dev.traceColumns (d : Dev) (mask first count : Nat) : List Nat :=
  ((setBits mask 8 ++ [8]).map (fun c => ((List.range count).map (fun i =>
    leBytes 4 (nth 0 (nth [] d.lpe.trace.entries (first + i)) c))).flatten)).flatten

def readTrace (c s : Nat) (d : Dev) : Dev :=
  d.start c s opTrace (fun k d =>
    let mask := k.par8 40
    let first := k.par16 42
    let count := k.par16 44
    if k.len ≠ ((setBits mask 8).length + 1) * count * 4 ∨ count = 0 ∨ 8192 < count ∨ 8192 < first + count then d.finish c k stRange 0 0
    else if d.rd R.LPE_TRC_STATUS_STATE ≠ 4 then d.finish c k stUnavailable 0 0
    else d.hostCheck c k k.dest k.len (fun d =>
      if d.fitsSome c moveNeed 16 then
        let bs := d.traceColumns mask first count
        d.begin c k (fun x => { x with total := k.len, data := bs })
      else d.finish c k stUnavailable 0 0))

def execReadTrace (client ring : Nat) (s : State) : Host.Outcome State Fault Refusal :=
  unit (decide (client ≤ 256 ∧ ring < 8)) (onDev (readTrace client ring) s)

/-! ### Plan changes, HALTED and block reset (LPE.8) -/

/-- The loop stops (R900): DRV_EN low and no output to come. -/
def Dev.loopStop (d : Dev) : Dev :=
  let d := (d.wr R.LPE_STATUS_STATE 0).flag R.LPE_STATUS_DRV_EN false
  d.setLpe (fun q => { q with pend := [], lastS := none })

/-- Clear the counters of the Loop Engine (LPE.8). -/
def Dev.loopCounters (d : Dev) : Dev :=
  [R.LPE_SAMPLES, R.LPE_CNT0_HELD, R.LPE_CNT0_EARLY, R.LPE_CNT1_SAT, R.LPE_CNT1_RATE, R.LPE_CNT2_FALLBACK, R.LPE_CNT2_OSC_TRIPS,
   R.LPE_CNT3_DRV_FAULT, R.LPE_CNT3_BANK_REF, R.LPE_CNT4_ACC_SAT, R.LPE_CNT4_ARM_REF].foldl (fun a f => a.wr f 0) d

/-- A plan takes effect (R898, R899): `old` is the LOOP section and period of the plan that ran until now, none after
HALTED or at start-up. -/
def Dev.loopPlan (d : Dev) (old : Option (List Nat × Nat)) : Dev :=
  let s := d.loSec
  let p := d.loP
  let ran := d.rd R.LPE_STATUS_STATE ≠ 0
  if ran && old == some (s, p) then d
  else
    let o := (old.map (·.1)).getD []
    let carry := ran && p ≠ 0 && loFlag o 0 && loFlag s 0 && loDrive o == loDrive s
    let out := d.lpe.prevOut
    let en := d.isSet R.LPE_STATUS_DRV_EN
    let d := (d.loopStop.loopCounters).setLpe (fun q => { faultLow := q.faultLow, trace := q.trace })
    let d := (d.flag R.LPE_STATUS_TRIP false).flag R.LPE_STATUS_FAULT d.lpe.faultLow
    let d := (d.flag R.LPE_STATUS_SWAP_PEND false).flag R.LPE_STATUS_SWAP_ERR false
    if p = 0 then d.flag R.LPE_STATUS_BANK false
    else
      let d := (d.loadWords R.LPE_BANK_A (loBank s false)).loadWords R.LPE_BANK_B (loBank s true)
      let d := (d.loadWords R.LPE_CURVE (loCurve s)).loadWords R.LPE_PROFILE (loProfile s)
      let d := ((d.wr R.LPE_SETPOINT (loSpReg s)).flag R.LPE_STATUS_BANK (loFlag s 5)).wr R.LPE_STATUS_STATE 1
      let d := d.flag R.LPE_STATUS_DRV_EN (carry && en && !d.lpe.faultLow)
      let now := d.beat
      d.setLpe (fun q => { q with b0 := now, prevOut := if carry then out else loOutInit s })

/-- Start of the loop of a plan that continues the running loop: its solves (R923). -/
def Dev.solvePlan (d : Dev) (same : Bool) : Dev :=
  let sb := if loMode d.loSec = 3 ∧ d.loP ≠ 0 then qpBeats (d.sec 15) else 0
  (if same then d else d.abandonSolve).wr R.QPS_SOLVE_BEATS sb

end Sys2Proof.Machine
end

