-- ==== Sys2Proof/Machine/Qp.lean ====
section
/-!
DEFINITION. SOLVE_QP and the ends of iterations and solves (QPS.2-QPS.5). A command's stages: 0 its image is read, 1 it
waits for the solver or solves, 2 its results are written.
-/

namespace Sys2Proof.Machine

/-- Need of every step of SOLVE_QP (R918). -/
def qpNeed : Need := { units := 3 }

/-- The active plan has a loop with MODE MPC (R919). -/
def Dev.mpcPlan (d : Dev) : Bool := loMode d.loSec == 3 && d.loP != 0

/-- SOLVE_QP starts (R917-R919). -/
def Dev.startQp (d : Dev) (c : Nat) (k : Cmd) : Dev :=
  if k.src % 4096 ≠ 0 ∨ k.len = 0 ∨ 2 ^ 21 < k.len then d.finish c k stRange 0 0
  else if d.mpcPlan || (d.clientSlots c qpNeed).isEmpty then d.finish c k stUnavailable 0 0
  else d.hostCheck c k k.src k.len (fun d => d.begin c k (fun x => { x with total := k.len }))

/-- Commands that wait for the solver. -/
def Dev.qpWaits (d : Dev) (k : Cmd) : Bool := k.op == opQp && k.phase == .running && k.stage == 1 && d.qps.run.isNone

/-- The waiting command of the lowest client takes a free solver and starts COLD (R921, R922). -/
def Dev.qpTake (d : Dev) : Dev :=
  match d.clients.findSome? (fun e => (e.2.cmds.find? d.qpWaits).map (fun k => (e.1, k))) with
  | some (c, k) =>
    if !d.works 12 then d
    else
      let sec := k.data.take (k.data.length - 32)
      let tr := k.data.drop (k.data.length - 32)
      let theta := (List.range 6).map (fun i => u32 tr (4 * i))
      let now := d.beat
      let d := d.upd c k.seqNo (fun x => { x with pos := 0 })
      (d.setQps (fun q => { q with run := some (qpBegin (some (c, k.seqNo)) sec theta now 0 (List.replicate (qpN sec) 0)) })).syncQps
  | none => d

/-- A solver whose command has ended is free again (R921, R926). -/
def Dev.qpSettle (d : Dev) : Dev :=
  match d.qps.run with
  | some r => match r.owner with
    | some (c, n) =>
      if (d.cmds c).any (fun k => k.seqNo == n && k.phase == .running) then d
      else ((d.setQps (fun q => { q with run := none })).syncQps).qpTake
    | none => d
  | none => d.qpTake

/-- Bytes of the results, padded (QPS.4). -/
def qpResultLen (s : List Nat) : Nat := (64 + 4 * qpN s + 4 * qpM s + 63) / 64 * 64

/-- The image of a SOLVE_QP has been read: it is checked (R917, R920) and waits for the solver. -/
def Dev.qpImage (d : Dev) (c : Nat) (k : Cmd) : Dev :=
  let n := k.data.length
  let s := k.data.take (n - 32)
  let tr := k.data.drop (n - 32)
  if n < 96 || !qpValid true s || !zerosAt tr 24 4 || u32 tr 28 != crc32c (k.data.take (n - 4)) then
    d.finish c k stMalformed 0 (13 + 0xFFFF * 65536)
  else if u32 k.desc 40 < qpResultLen s then d.finish c k stRange 0 0
  else (d.upd c k.seqNo (fun x => { x with stage := 1, pos := 0, total := 0 })).qpTake

def solveQp (c s : Nat) (d : Dev) : Dev := (d.start c s opQp (fun k d => d.startQp c k)).qpSettle

def execSolveQp (client ring : Nat) (s : State) : Host.Outcome State Fault Refusal :=
  unit (decide (client ≤ 256 ∧ ring < 8)) (onDev (solveQp client ring) s)

/-- A step of at most 1,000 beats of a client's solve (R918); the iteration ends with its last beat. -/
def Dev.clientIter (d : Dev) (r : QRun) (c n : Nat) : Dev :=
  match d.cmd? c n with
  | some k =>
    let goal := qpFormBeats r.sec + (r.it + 1) * qpIterBeats r.sec
    if k.stage ≠ 1 || r.overflow || decide (qpK r.sec ≤ r.it) || !d.busOk c then d
    else
      let beats := max 1 (min 1000 (goal - k.pos))
      d.takeStep c k qpNeed beats (fun d =>
        let d := d.upd c n (fun x => { x with pos := k.pos + beats })
        if k.pos + beats < goal then d else (d.setQps (fun q => { q with run := some r.step })).syncQps)
  | none => d

/-- A client's solve ends: its results wait to be written (R922, QPS.4). -/
def Dev.clientDelivery (d : Dev) (r : QRun) (c n : Nat) : Dev :=
  match d.cmd? c n with
  | some k =>
    if k.stage ≠ 1 || !(r.overflow || decide (qpK r.sec ≤ r.it)) then d
    else
      let res := (if r.overflow then r.record 1 0 else r.record 0 (nth 0 r.z (qpMove r.sec))) ++
        (r.z.map (leBytes 4)).flatten ++ (r.y.map (leBytes 4)).flatten
      let out := res ++ List.replicate (qpResultLen r.sec - res.length) 0
      (d.qpsEnded r).upd c n (fun x => { x with
        stage := 2, pos := 0, total := out.length, data := out, status := if r.overflow then stOverflow else stOk
        result := r.it + min r.pivots 0xFFFF * 2 ^ 16 + r.mu * 2 ^ 32 })
  | none => d

/-- A solve delivers (R913, R922). -/
def qpDelivery (d : Dev) : Dev :=
  if !d.works 12 then d
  else match d.qps.run with
    | some r => match r.owner with
      | some (c, n) => d.clientDelivery r c n
      | none => d.loopDelivery r
    | none => d

def execQpDelivery (s : State) : Host.Outcome State Fault Refusal := onDev qpDelivery s

end Sys2Proof.Machine
end

