-- ==== Sys2Proof/Machine/Section.lean ====
section
/-!
DEFINITION. Client sections (RNG.4, R662-R667): their layout and checks, RUN_SECTION, and one run of a section. A
command's stages: 0 its image is read, 1 it runs.
-/

namespace Sys2Proof.Machine

/-- Fields of a client section's header. -/
def csNItem (b : List Nat) : Nat := u16 b 6
def csNTok (b : List Nat) : Nat := u16 b 8
def csNBuf (b : List Nat) : Nat := u8 b 10
def csSpan (b : List Nat) : Nat := u32 b 12
def csPlanId (b : List Nat) : Nat := u32 b 16
def csSeed (b : List Nat) : Nat := u32 b 20
def csMapOff (b : List Nat) : Nat := 32 + 16 * csNBuf b
def csItemOff (b : List Nat) : Nat := csMapOff b + (2 * csNTok b + 15) / 16 * 16
def csLen (b : List Nat) : Nat := csItemOff b + 32 * csNItem b

/-- Its buffers and token map in the layout of a BUFFERS section. -/
def csBufs (b : List Nat) : List Nat :=
  leBytes 2 (csNBuf b) ++ leBytes 2 (csNTok b) ++ List.replicate 12 0 ++ bytesAt b 32 (csItemOff b - 32)

/-- Its items with their positions (R666). -/
def csItems (b : List Nat) : List (Nat × Item) :=
  let s := b.drop (csItemOff b)
  (List.range (csNItem b)).map (fun i => (i, itemAt s i))

/-- The context of a run for a client; `shift` is that of R936. -/
def Dev.csCtx (d : Dev) (c : Nat) (b : List Nat) (shift : Nat) : Ctx :=
  { client := some c, base := ((clientArea (d.sec 18) c).getD (0, 0)).1, bufs := csBufs b, items := csItems b,
    t := csSeed b, shift := shift }

/-- What the checks read. -/
def Dev.csChk (d : Dev) (c : Nat) (b : List Nat) : Chk :=
  { c := d.csCtx c b 0, q := d.quantSec, img := d.sq.active, plan := d.sq.plan, d := d, slots := [], span := csSpan b }

/-- Resources that a run needs: what its items name (R664), the DMU with SCAN or QUANT items (R506), and HDMA with items
that name host memory. -/
def csNeed (b : List Nat) : Need :=
  let mask (op : Nat) : Nat := (csItems b).foldl (fun a e => if e.2.op = op then a ||| 2 ^ e.2.unit else a) 0
  let is := (csItems b).map (·.2)
  { tiles := mask 3, vu := mask 5,
    units := (if is.any (fun it => it.op == 4 || it.isQuant) then 1 else 0) +
             (if is.any (fun it => (it.op == 1 || it.op == 2) && it.mSpace == 3) then 2 else 0) }

/-- Logical tiles of a section with the WEIGHTS section that their items name. -/
def csTiles (b : List Nat) : List (Nat × Nat) :=
  ((csItems b).filter (fun e => e.2.op == 3)).map (fun e => (e.2.unit, e.2.tSec)) |>.eraseDups

/-- A section's header and layout (check 1). -/
def csLayout (b : List Nat) : Bool :=
  u32 b 0 == 0x43455353 && u16 b 4 == 1 && decide (1 ≤ csNItem b ∧ csNItem b ≤ 1024) && decide (csNTok b ≤ 1024) &&
    decide (csNBuf b ≤ 16) && zerosAt b 11 1 && decide (16 ≤ csSpan b ∧ csSpan b ≤ 1000) && zerosAt b 24 4 &&
    b.length == csLen b && u32 b 28 == crc32c (b.take 28 ++ b.drop 32) &&
    (csItems b).all (fun e => decide (1 ≤ e.2.op ∧ e.2.op ≤ 9) && decide (1 ≤ e.2.dur) && e.2.res == 0)

/-- The word of R377: check, plan, and the index of a section or an item, 0xFFFF for none. -/
def refuseWord (check plan idx : Nat) : Nat := check + plan % 8 * 256 + idx * 65536

/-- Tokens of one logical tile name one section (R427, R939). -/
def csOneSection (b : List Nat) : Bool := decide ((csTiles b).map (·.1)).Nodup

/-- The checks of R663: the status and word of the first that fails. -/
def Dev.csCheck (d : Dev) (c : Nat) (b : List Nat) : Option (Nat × Nat) :=
  let k := d.csChk c b
  let p := d.sq.plan
  let at_ (st ck : Nat) (x : Option Nat) : Option (Nat × Nat) := x.map (fun i => (st, refuseWord ck p i))
  if !csLayout b then some (stMalformed, refuseWord 1 p 0xFFFF)
  else if !d.planActive || csPlanId b ≠ d.rd R.SEQ_PLAN_ID then some (stUnavailable, refuseWord 14 p 0xFFFF)
  else (at_ stMalformed 5 (k.firstBad (fun i it => k.placed i it && k.tokens i it))).or
    ((at_ stMalformed 8 (k.firstBad k.fetches)).or
      ((at_ stRange 9 (k.firstBad k.rates)).or
        (match clientArea (d.sec 18) c with
         | some (_, n) =>
           if !bufPartsOk (csBufs b) n || !csOneSection b then some (stMalformed, refuseWord 13 p 0xFFFF)
           else at_ stMalformed 13 (k.firstBad k.operands)
         | none => if csNBuf b = 0 then at_ stMalformed 13 (k.firstBad k.operands) else some (stUnavailable, 0))))

/-- Some CLIENT slot of the client can hold a run of `n` beats (R664, R937). -/
def Dev.runFits (d : Dev) (c : Nat) (need : Need) (n : Nat) : Bool := (d.clientSlots c need).any (fun s => decide (n ≤ s.len))

/-- RUN_SECTION starts (R662). -/
def Dev.startSection (d : Dev) (c : Nat) (k : Cmd) : Dev :=
  if k.src % 4096 ≠ 0 ∨ k.len = 0 ∨ 65536 < k.len ∨ k.par16 40 = 0 then d.finish c k stRange 0 0
  else d.hostCheck c k k.src k.len (fun d =>
    if d.fitsSome c moveNeed 16 then d.begin c k (fun x => { x with total := k.len }) else d.finish c k stUnavailable 0 0)

def execRunSection (client ring : Nat) (s : State) : Host.Outcome State Fault Refusal :=
  unit (decide (client ≤ 256 ∧ ring < 8))
    (onDev (fun d => d.start client ring opSection (fun k d => d.startSection client k)) s)

/-- The image of a RUN_SECTION has been read: it is checked (R663, R664). -/
def Dev.sectionImage (d : Dev) (c : Nat) (k : Cmd) : Dev :=
  match d.csCheck c k.data with
  | some (st, w) => d.finish c k st 0 w
  | none =>
    if d.runFits c (csNeed k.data) (csSpan k.data) then d.upd c k.seqNo (fun x => { x with stage := 1, pos := 0, total := 0 })
    else d.finish c k stUnavailable 0 0

/-- The section that a command runs in its present stage. -/
def Cmd.runImage (k : Cmd) : Option (List Nat) :=
  if k.phase ≠ .running then none
  else if k.op = opSection ∧ k.stage = 1 then some k.data
  else if k.op = opTrain ∧ k.stage = 3 then some (bytesAt k.data (u32 k.data 28) (u32 k.data 32))
  else none

/-- A run may take place now: its tiles were given to it at the seam (R938). -/
def Dev.runReady (d : Dev) (c : Nat) (k : Cmd) (b : List Nat) : Bool :=
  (csTiles b).isEmpty || d.sq.assigned.contains (c, k.seqNo)

/-- One run of a section: every item in its order (R665). -/
def Dev.csRun (d : Dev) (c : Nat) (b : List Nat) (shift : Nat) (host : List (List Nat)) : Ctx × Run :=
  let x := d.csCtx c b shift
  (x, x.ordered.foldl x.item { d := d, host := host })

/-- Some token of a run was invalid. -/
def Run.anyInvalid (r : Run) : Bool := r.tok.any (fun e => e.2 != .valid)

/-- One run of RUN_SECTION (R664, R667). -/
def sectionRun (c s : Nat) (host : List (List Nat)) (d : Dev) : Dev :=
  match d.runningCmd c s opSection with
  | some k =>
    let b := k.data
    let need := csNeed b
    if k.stage ≠ 1 || !d.runReady c k b || (2 ≤ need.units && !d.busOk c) then d
    else d.takeStep c k need (csSpan b) (fun d =>
      let (_, r) := d.csRun c b 0 host
      let deg := k.degraded || r.anyInvalid
      let runs := k.pos + 1
      let d := r.d.upd c k.seqNo (fun x => { x with pos := runs, degraded := deg })
      if r.viol then d.finish c k stForbidden 0 0
      else if runs = k.par16 40 then d.finishOk c { k with degraded := deg } runs
      else d)
  | none => d

end Sys2Proof.Machine
end

