-- ==== Sys2Proof/Machine/Train.lean ====
section
/-!
DEFINITION. Retune (chapter 22): TRAIN_STEP, the training image and its checks, the state of a group, and the check,
initialise, run, update and commit steps. A command's stages: 0 its image is read, 1 check (groups checked in `pos`), 2
initialise, 3 runs, 4 update (elements done in `pos`), 5 commit.
-/

namespace Sys2Proof.Machine

/-- Fields of a training image (RTN.1). -/
def tiGroups (b : List Nat) : Nat := u8 b 6
def tiMinValid (b : List Nat) : Nat := u8 b 7
def tiF (b : List Nat) (o : Nat) : FV := f32.decode (u32 b o)
def tiStride (b : List Nat) : Nat := u64 b 36
def tiSec (b : List Nat) : List Nat := bytesAt b (u32 b 28) (u32 b 32)

/-- A group record and its fields. -/
def tiRec (b : List Nat) (g : Nat) : List Nat := bytesAt b (64 + 32 * g) 32
def grFwd (r : List Nat) : Nat := u16 r 0
def grTrn (r : List Nat) : List Nat := (List.range (u8 r 2)).map (fun j => u16 r (4 + 2 * j))
def grGrad (r : List Nat) : Nat := u16 r 12
def grState (r : List Nat) : Nat := u64 r 16
def grSections (r : List Nat) : List Nat := grFwd r :: grTrn r

/-- BATCH and ACTION of the descriptor. -/
def Cmd.batch (k : Cmd) : Nat := k.par16 40
def Cmd.action (k : Cmd) : Nat := k.par8 42

/-- The groups of a command. -/
def Cmd.groups (k : Cmd) : List (List Nat) := (List.range (tiGroups k.data)).map (tiRec k.data)

/-- Header and content of a WEIGHTS section as staged. -/
def Dev.wsec (d : Dev) (i : Nat) : List Nat := secBytes d.sq.active (secAt d.sq.active i)

/-- Elements of a group (RTN.1). -/
def Dev.elems (d : Dev) (r : List Nat) : Nat := 64 * u16 (d.wsec (grFwd r)) 0

/-- Bytes of a narrow tensor of `e` elements with its padding, and of a group's whole state (RTN.2). -/
def narrowLen (e : Nat) : Nat := (e + e / 32 + 63) / 64 * 64
def stateLen (e : Nat) : Nat := 64 + 2 * e + 3 * narrowLen e

/-- Physical tiles whose buffer holds a section: those to which the chosen forms map it (R349, R953). -/
def Dev.secPlaces (d : Dev) (s : Sec) : List Nat :=
  let fs := if s.plan = 0xFF then d.sq.actForms else d.sq.actForms.filter (· == s.plan)
  (fs.map (fun f => nth s.tile (if f = d.sq.plan then d.sq.tileMap else d.formMap d.sq.active f) s.tile)).eraseDups

/-- Content of a section in the tile buffer now. -/
def Dev.secNow (d : Dev) (i : Nat) : List Nat :=
  let s := secAt d.sq.active i
  match d.secPlaces s with
  | t :: _ => mgets 0 d.mem.tileAct (0x80000 * t + s.destOff) s.len
  | [] => []

/-- Write a section's content wherever it is placed. -/
def Dev.secPut (d : Dev) (i : Nat) (bs : List Nat) : Dev :=
  let s := secAt d.sq.active i
  (d.secPlaces s).foldl (fun a t =>
    { a with mem := { a.mem with tileAct := mputs 0 a.mem.tileAct (0x80000 * t + s.destOff) bs } }) d

/-! ### Checks (R927-R932, R935) -/

/-- Record rules of RTN.1 (check 1). -/
def grLayout (r : List Nat) : Bool :=
  decide (1 ≤ u8 r 2 ∧ u8 r 2 ≤ 4) && zerosAt r 3 1 && zerosAt r 14 2 && zerosAt r 24 8 && grState r % 65536 == 0 &&
    (List.range 4).all (fun j => decide (j < u8 r 2) || u16 r (4 + 2 * j) == 0xFFFF)

/-- A finite binary32 above 0, and one from 0 to below 1. -/
def posFinite (x : FV) : Bool := !x.nonFinite && (FV.fin false 0 0).lt x
def unitFrac (x : FV) : Bool := !x.nonFinite && !x.lt (.fin false 0 0) && x.lt (.fin false 1 0)

/-- Header and records of a training image (R928). -/
def tiLayout (b : List Nat) : Bool :=
  u32 b 0 == 0x4E525452 && u16 b 4 == 1 && decide (1 ≤ tiGroups b ∧ tiGroups b ≤ 16) && decide (1 ≤ tiMinValid b) &&
    posFinite (tiF b 8) && unitFrac (tiF b 12) && unitFrac (tiF b 16) && posFinite (tiF b 20) &&
    u32 b 28 == 64 + 32 * tiGroups b && b.length == u32 b 28 + u32 b 32 && tiStride b % 64 == 0 && zerosAt b 44 16 &&
    u32 b 60 == crc32c (b.take 60 ++ b.drop 64) && (List.range (tiGroups b)).all (fun g => grLayout (tiRec b g))

/-- A WEIGHTS section of the active Maquette with a KIND and a geometry. -/
def Dev.wsecIs (d : Dev) (i kind : Nat) : Bool :=
  decide (i < u16 d.sq.active 6) && (secAt d.sq.active i).ty == 19 && u8 (d.wsec i) 4 == kind &&
    (kind == 0 || u16 (d.wsec i) 0 == 64 && u16 (d.wsec i) 2 == 0)

/-- A token of the client section is binary32 of `e` elements. -/
def gradOk (sec : List Nat) (t e : Nat) : Bool :=
  match ((csItems sec).find? (fun x => x.2.out == t)).map (·.2) with
  | some it => match it.op with
    | 1 => it.mLen == 4 * e
    | 4 => it.dOut32 && it.dM * it.dN == e
    | 5 => !it.vOut16 && it.vE == e
    | _ => false
  | none => false

/-- R929 of a group. -/
def Dev.groupOk (d : Dev) (sec r : List Nat) : Bool :=
  d.wsecIs (grFwd r) 0 && (grTrn r).all (fun t => d.wsecIs t 1) && u8 r 2 == cdiv (u16 (d.wsec (grFwd r)) 0) 64 &&
    gradOk sec (grGrad r) (d.elems r)

/-- A RESIDENT TILE item of some plan names a section (R930). -/
def Dev.residentNames (d : Dev) (i : Nat) : Bool :=
  (List.range 8).any (fun p => (planItems d.sq.active p).any (fun it => it.op == 3 && it.tSec == i))

/-- Tier 1 range of a group's state: offset from the window base, and bytes. -/
def Dev.stateRange (d : Dev) (r : List Nat) : Nat × Nat := (grState r, stateLen (d.elems r))

/-- Sections that other TRAIN_STEPs hold (R935). -/
def Dev.heldSections (d : Dev) (c seq : Nat) : List Nat :=
  (d.clients.map (fun e => ((e.2.cmds.filter (fun k => k.op == opTrain && k.phase == .running && decide (1 ≤ k.stage) &&
    !(e.1 == c && k.seqNo == seq))).map (fun k => (k.groups.map grSections).flatten)).flatten)).flatten

/-- Beats that a gradient run adds for accumulation (RTN.3). -/
def Dev.accBeats (d : Dev) (k : Cmd) : Nat := cdiv ((k.groups.map d.elems).foldl (· + ·) 0) 256 + 24

/-- Need of a run step, and of initialise and update steps. -/
def Cmd.runNeed (k : Cmd) : Need := { csNeed (tiSec k.data) with anyVu := true }
def vuNeed : Need := { anyVu := true }

/-- Every step of the command fits some CLIENT slot (R937). -/
def Dev.trainFits (d : Dev) (c : Nat) (k : Cmd) : Bool :=
  (k.batch == 0 || d.runFits c k.runNeed (csSpan (tiSec k.data) + d.accBeats k)) && d.runFits c vuNeed 25

/-- TRAIN_STEP starts (R927, R931). -/
def Dev.startTrain (d : Dev) (c : Nat) (k : Cmd) : Dev :=
  if k.src % 4096 ≠ 0 ∨ k.len = 0 ∨ 81920 < k.len then d.finish c k stMalformed 0 (refuseWord 1 d.sq.plan 0xFFFF)
  else if (if k.batch = 0 then k.action ≠ 1 ∧ k.action ≠ 2 else 1 < k.action) then d.finish c k stRange 0 0
  else d.hostCheck c k k.src k.len (fun d => d.hostCheck c k k.dest 64 (fun d =>
    if d.fitsSome c moveNeed 16 then d.begin c k (fun x => { x with total := k.len }) else d.finish c k stUnavailable 0 0))

def execTrainStep (client ring : Nat) (s : State) : Host.Outcome State Fault Refusal :=
  unit (decide (client ≤ 256 ∧ ring < 8))
    (onDev (fun d => d.start client ring opTrain (fun k d => d.startTrain client k)) s)

/-- The training image has been read: it is checked (R928-R932, R935, R937). -/
def Dev.trainImage (d : Dev) (c : Nat) (k : Cmd) : Dev :=
  let b := k.data
  let sec := tiSec b
  let gs := k.groups
  let all := (gs.map grSections).flatten
  let rs := gs.map d.stateRange
  if !tiLayout b then d.finish c k stMalformed 0 (refuseWord 1 d.sq.plan 0xFFFF)
  else match d.csCheck c sec with
    | some (st, w) => d.finish c k st 0 w
    | none =>
      if !gs.all (d.groupOk sec) || !decide all.Nodup then d.finish c k stMalformed 0 (refuseWord 13 d.sq.plan 0xFFFF)
      else if (c ≠ 0 && all.any d.residentNames) || !rs.all (fun r => decide (r.1 + r.2 ≤ d.rdi R.ENT_T1_SIZE c)) || !disjoint rs then
        d.finish c k stForbidden 0 0
      else if all.any (fun i => (d.heldSections c k.seqNo).contains i) || all.any (fun i => (d.secPlaces (secAt d.sq.active i)).isEmpty) ||
              !d.trainFits c k then d.finish c k stUnavailable 0 0
      else d.upd c k.seqNo (fun x => { x with stage := 1, pos := 0, total := 0 })

/-! ### State of a group (RTN.2) -/

/-- Tier 1 offset of a group's state. -/
def Dev.stateAt (d : Dev) (c : Nat) (r : List Nat) : Nat := d.rdi R.ENT_T1_BASE c + grState r

/-- Parts of a state: header 0, W 1, S 2, A 3, M 4, V 5. -/
def partOff (e p : Nat) : Nat :=
  match p with
  | 0 => 0
  | 1 => 64
  | 2 => 64 + e
  | p + 3 => 64 + 2 * e + p * narrowLen e
def Dev.statePart (d : Dev) (c : Nat) (r : List Nat) (p : Nat) : List Nat :=
  let e := d.elems r
  d.memBytes 1 (d.stateAt c r + partOff e p) (if p = 0 then 64 else if p ≤ 2 then e else e + e / 32)
def Dev.putPart (d : Dev) (c : Nat) (r : List Nat) (p : Nat) (bs : List Nat) : Dev :=
  let e := d.elems r
  let n := if p = 0 then 64 else if p ≤ 2 then e else narrowLen e
  d.store 1 (d.stateAt c r + partOff e p) (bs ++ List.replicate (n - bs.length) 0) false

/-- A state header: U, WCRC, FLAGS. -/
def stateHeader (u wcrc rows first flags : Nat) : List Nat :=
  let h := leBytes 4 0x53544E52 ++ leBytes 4 u ++ leBytes 4 wcrc ++ leBytes 2 rows ++ leBytes 2 first ++ [flags] ++ List.replicate 43 0
  h ++ leBytes 4 (crc32c h)
def Dev.hdrU (d : Dev) (c : Nat) (r : List Nat) : Nat := u32 (d.statePart c r 0) 4
def Dev.hdrFlags (d : Dev) (c : Nat) (r : List Nat) : Nat := u8 (d.statePart c r 0) 16

/-- Write a header for a group, with the CRC of its forward section as it is in the tile buffer or as it was. -/
def Dev.putHdr (d : Dev) (c : Nat) (r : List Nat) (u wcrc flags : Nat) : Dev :=
  let w := d.wsec (grFwd r)
  d.putPart c r 0 (stateHeader u wcrc (u16 w 0) (u16 w 2) flags)

/-- The state of a group is valid (R933). -/
def Dev.stateValid (d : Dev) (c : Nat) (r : List Nat) : Bool :=
  let h := d.statePart c r 0
  let w := d.wsec (grFwd r)
  u32 h 0 == 0x53544E52 && u32 h 60 == crc32c (h.take 60) && u16 h 12 == u16 w 0 && u16 h 14 == u16 w 2 && !bitAt (u8 h 16) 1 &&
    u32 h 8 == crc32c (d.secNow (grFwd r))

/-- Content of transposed section `j` for forward codes of `rows` rows (RTN.1). -/
def transposed (codes : List Nat) (rows j : Nat) : List Nat :=
  ((List.range 64).map (fun i => (List.range 64).map (fun ch =>
    if 64 * j + ch < rows then nth 0 codes (64 * (64 * j + ch) + i) else 0))).flatten

/-- Each transposed section is the transpose of the forward section (R934). -/
def Dev.transposesOk (d : Dev) (r : List Nat) : Bool :=
  let w := d.secNow (grFwd r)
  (grTrn r).zipIdx.all (fun p => (d.secNow p.1).drop 16 == transposed (w.drop 16) (u16 w 0) p.2)

/-- Initialise a group (R934). -/
def Dev.initGroup (d : Dev) (c : Nat) (r : List Nat) : Dev :=
  let w := d.secNow (grFwd r)
  let e := d.elems r
  let zero := List.replicate e 0 ++ List.replicate (e / 32) (ofInt 8 (-24))
  let d := ((((d.putPart c r 1 (w.drop 16)).putPart c r 2 (List.replicate e 0)).putPart c r 3 zero).putPart c r 4 zero).putPart c r 5 zero
  d.putHdr c r 0 (crc32c w) 0

/-! ### Report and completion (RTN.5) -/

/-- The report. -/
def trainReport (u outcome ngrp : Nat) (t : TrainProg) : List Nat :=
  leBytes 4 u ++ [outcome, ngrp] ++ leBytes 2 t.valid ++ leBytes 2 t.invalid ++ leBytes 2 t.reinit ++ leBytes 4 t.wClip ++
    leBytes 4 t.aClip ++ leBytes 4 t.mClip ++ leBytes 4 t.vClip ++ leBytes 4 t.nonfinite ++ leBytes 4 t.changed ++ List.replicate 28 0

/-- A TRAIN_STEP ends with an outcome: 0 COMMITTED, 1 STAGED, 2 GUARD, 3 SKIPPED, 4 DISCARDED (R954). -/
def Dev.trainEnd (d : Dev) (c : Nat) (k : Cmd) (outcome : Nat) : Dev :=
  let u := d.hdrU c (tiRec k.data 0)
  let rep := trainReport u outcome (tiGroups k.data) k.tr
  let d := d.upd c k.seqNo (fun x => { x with outs := [(k.dest, rep)] })
  d.finish c k (if k.tr.invalid = 0 then stOk else stDegraded) (u + outcome * 2 ^ 32 + k.tr.valid * 2 ^ 40) 0

/-- The running TRAIN_STEP of a ring in a stage. -/
def Dev.trainCmd (d : Dev) (c s stage : Nat) : Option Cmd :=
  match d.runningCmd c s opTrain with
  | some k => if k.stage = stage then some k else none
  | none => none

/-- Clear STAGED of every group (R949). -/
def Dev.unstage (d : Dev) (c : Nat) (k : Cmd) : Dev :=
  k.groups.foldl (fun a r =>
    let h := a.statePart c r 0
    a.putHdr c r (u32 h 4) (u32 h 8) (putBit (u8 h 16) 0 false)) d

/-- A commit of a command fits one step (R951): its bytes. -/
def Dev.commitLen (d : Dev) (k : Cmd) : Nat :=
  (k.groups.map (fun r => ((grSections r).map (fun i => (secAt d.sq.active i).len)).foldl (· + ·) 0)).foldl (· + ·) 0

/-- A command comes to its commit (R951). -/
def Dev.toCommit (d : Dev) (c : Nat) (k : Cmd) : Dev :=
  if 1007616 < d.commitLen k then d.finish c k stRange 0 0 else d.upd c k.seqNo (fun x => { x with stage := 5, pos := 0, tr := k.tr })

/-- After the check and initialise steps (R949). -/
def Dev.trainGo (d : Dev) (c : Nat) (k : Cmd) : Dev :=
  if 0 < k.batch then d.upd c k.seqNo (fun x => { x with stage := 3, pos := 0, tr := k.tr })
  else if k.action = 2 then (d.unstage c k).trainEnd c k 4
  else d.toCommit c k

/-! ### Steps (RTN.3, RTN.4) -/

/-- A group's check (R933, R934, R949): none when the command ends with a status and a word. -/
def Dev.checkGroup (d : Dev) (c : Nat) (k : Cmd) (r : List Nat) : Option (Nat × Nat) :=
  let staged := bitAt (d.hdrFlags c r) 0
  if d.stateValid c r then
    if (if k.batch = 0 then k.action = 1 ∧ !staged else staged = true) then some (stUnavailable, 0) else none
  else if k.batch = 0 ∧ k.action = 1 then some (stUnavailable, 0)
  else if d.transposesOk r then none
  else some (stMalformed, refuseWord 13 d.sq.plan 0xFFFF)

/-- A check step: 64 beats, one group (RTN.3). -/
def trainCheck (c s : Nat) (d : Dev) : Dev :=
  match d.trainCmd c s 1 with
  | some k => d.takeStep c k {} 64 (fun d =>
      let r := tiRec k.data k.pos
      match d.checkGroup c k r with
      | some (st, w) => d.finish c k st 0 w
      | none =>
        let t := if d.stateValid c r then k.tr else { k.tr with reinit := k.tr.reinit + 2 ^ k.pos }
        let d := d.upd c k.seqNo (fun x => { x with pos := k.pos + 1, tr := t })
        if k.pos + 1 < tiGroups k.data then d
        else if t.reinit = 0 then d.trainGo c { k with tr := t }
        else d.upd c k.seqNo (fun x => { x with stage := 2, pos := 0 }))
  | none => d

/-- Beats and elements of the largest step at `rate` elements per beat after the first 24 (RTN.3); `left` beats remain. -/
def elemStep (rate left rest : Nat) : Option (Nat × Nat) :=
  let n := min (min left 1000) (24 + cdiv rest rate)
  if n < 25 then none else some (n, min rest (rate * (n - 24)))

/-- Take the largest step over elements. -/
def Dev.takeElems (d : Dev) (c : Nat) (k : Cmd) (rate total : Nat) (f : Nat → Dev → Dev) : Dev :=
  match d.room c vuNeed k.firstOf with
  | some (key, p, left) => match elemStep rate left (total - k.pos) with
    | some (n, m) => f (k.pos + m) (d.useBeats c k key p n)
    | none => d
  | none => d

/-- Groups of a list with the number of elements before each ends. -/
def Dev.groupEnds (d : Dev) (gs : List (List Nat)) : List (List Nat × Nat) :=
  (gs.foldl (fun (a : List (List Nat × Nat) × Nat) r => let e := a.2 + d.elems r; (a.1 ++ [(r, e)], e)) ([], 0)).1

/-- Groups that the command initialises. -/
def Cmd.reinits (k : Cmd) : List (List Nat) := (k.groups.zipIdx.filter (fun p => bitAt k.tr.reinit p.2)).map (·.1)

/-- Elements of a list of groups. -/
def Dev.elemSum (d : Dev) (gs : List (List Nat)) : Nat := (gs.map d.elems).foldl (· + ·) 0

/-- An initialise step (R934): a group is written when its last element is reached. -/
def trainInit (c s : Nat) (d : Dev) : Dev :=
  match d.trainCmd c s 2 with
  | some k =>
    let gs := k.reinits
    let total := d.elemSum gs
    d.takeElems c k 256 total (fun p d =>
      let d := (d.groupEnds gs).foldl (fun a g => if k.pos < g.2 ∧ g.2 ≤ p then a.initGroup c g.1 else a) d
      let d := d.upd c k.seqNo (fun x => { x with pos := p })
      if p < total then d else d.trainGo c k)
  | none => d

/-- The descriptor of a state tensor: N8 symmetric, TIE 0, NONE, HEADROOM 0, stochastic (R942). -/
def stateDesc : Desc := { fmt := 2, tie := false, zp := 0, outlier := 0, headroom := 0, b32 := true, nearest := false, vary := false, salt := 0 }

/-- Generator key of a state quantisation (R943). -/
def Dev.stateKey (d : Dev) (k : Cmd) (g kind u r : Nat) : Nat :=
  quantKey d.planSeed g (0xFFFFFF00 + kind) (mix (csSeed (tiSec k.data)) ((65536 * (u + 1) + r) % 2 ^ 32))

/-- The values of a narrow tensor (R942). -/
def deq (b : List Nat) (e : Nat) : List FV :=
  (List.range e).map (fun i => FV.ofInt (toInt 8 (nth 0 b i)) (toInt 8 (nth 0 b (e + i / 32))))

/-- A narrow tensor of values, and the number of elements clipped (R942). -/
def quantState (key : Nat) (v : List FV) : List Nat × Nat :=
  let sh := (scaleSearch stateDesc v).1
  let cs := convertAll stateDesc key sh v
  (cs.map (·.code) ++ sh.map (ofInt 8), countIf (·.clipped) cs)

/-- Accumulate one group's gradient (R941). -/
def Dev.accumulate (d : Dev) (c : Nat) (k : Cmd) (g : Nat) (grad : List FV) (run : Nat) : Dev × Nat :=
  let r := tiRec k.data g
  let e := d.elems r
  let sum := List.zipWith add32 (deq (d.statePart c r 3) e) grad
  let (bs, n) := quantState (d.stateKey k g 0 (d.hdrU c r) run) sum
  (d.putPart c r 3 bs, n)

/-- Set every accumulator to zero (R940). -/
def Dev.resetAcc (d : Dev) (c : Nat) (k : Cmd) : Dev :=
  k.groups.foldl (fun a r => let e := a.elems r; a.putPart c r 3 (List.replicate e 0 ++ List.replicate (e / 32) (ofInt 8 (-24)))) d

/-- A gradient run step (R936, R940, R941). -/
def trainRun (c s : Nat) (host : List (List Nat)) (d : Dev) : Dev :=
  match d.trainCmd c s 3 with
  | some k =>
    let sec := tiSec k.data
    if !d.runReady c k sec || (2 ≤ k.runNeed.units && !d.busOk c) then d
    else d.takeStep c k k.runNeed (csSpan sec + d.accBeats k) (fun d =>
      let d := if k.pos = 0 then d.resetAcc c k else d
      let (x, r) := d.csRun c sec (k.pos * tiStride k.data) host
      let grads := k.groups.map (fun g => let e := r.d.elems g; (List.range e).map (elemAt true (x.bytes r (grGrad g) (4 * e))))
      let ok := !r.anyInvalid && !r.viol && grads.all (fun l => !l.any FV.nonFinite)
      let (d, clip) := if ok then grads.zipIdx.foldl (fun (a : Dev × Nat) p =>
          let (d, n) := a.1.accumulate c k p.2 p.1 k.pos
          (d, a.2 + n)) (r.d, 0) else (r.d, 0)
      let t := if ok then { k.tr with valid := k.tr.valid + 1, aClip := k.tr.aClip + clip } else { k.tr with invalid := k.tr.invalid + 1 }
      let runs := k.pos + 1
      let d := d.upd c k.seqNo (fun x => { x with pos := runs, tr := t })
      if r.viol then d.finish c k stForbidden 0 0
      else if runs < k.batch then d
      else if t.valid < tiMinValid k.data then d.trainEnd c { k with tr := t } 3
      else d.upd c k.seqNo (fun x => { x with stage := 4, pos := 0 }))
  | none => d

/-- The square root in binary32. -/
def sqrt32 (x : FV) : FV :=
  match x with
  | .fin n m e => if m = 0 then x else if n then .nan else f32.decode (f32.sqrtMag m e)
  | .inf n => if n then .nan else .inf false
  | .nan => .nan

/-- The update of one element (R945): m, v, d and y. -/
def updateElem (b : List Nat) (nv : Nat) (a m v : FV) (w : Int) : FV × FV × FV × FV :=
  let one := FV.fin false 1 0
  let b1 := tiF b 12
  let b2 := tiF b 16
  let g := div32 a (FV.ofInt nv 0)
  let m := add32 (mul32 b1 m) (mul32 (sub32 one b1) g)
  let v := add32 (mul32 b2 v) (mul32 (sub32 one b2) (mul32 g g))
  let dd := (div32 (mul32 (tiF b 8) m) (add32 (sqrt32 v) (tiF b 20))).neg
  (m, v, dd, add32 (FV.ofInt w 0) dd)

/-- The new code of an element, whether it was clipped, and whether it was not finite (R946). -/
def newCode (dd y : FV) (gw : Nat) : Int × Bool × Bool :=
  if dd.nonFinite || y.nonFinite then (0, false, true)
  else
    let q := (y.floorMul 32 + gw) / 2 ^ 32
    (clampInt (-127) 127 q, decide (q < -127 ∨ 127 < q), false)

/-- What an update gives a group: M, V and S with their counts. -/
structure GroupUpd where
  mBytes : List Nat
  vBytes : List Nat
  codes : List Nat
  mClip : Nat
  vClip : Nat
  wClip : Nat
  nonfinite : Nat
  changed : Nat
deriving DecidableEq, Repr

/-- The update of a group (R945, R946). -/
def Dev.groupUpdate (d : Dev) (c : Nat) (k : Cmd) (g : Nat) : GroupUpd :=
  let r := tiRec k.data g
  let e := d.elems r
  let w := (d.statePart c r 1).map (toInt 8)
  let a := deq (d.statePart c r 3) e
  let m := deq (d.statePart c r 4) e
  let v := deq (d.statePart c r 5) e
  let u := d.hdrU c r
  let l := (List.range e).map (fun i => updateElem k.data k.tr.valid (nth .nan a i) (nth .nan m i) (nth .nan v i) (nth 0 w i))
  let q := l.zipIdx.map (fun p => newCode p.1.2.2.1 p.1.2.2.2 (mix (d.stateKey k g 3 u 0) p.2))
  let (mb, mc) := quantState (d.stateKey k g 1 u 0) (l.map (·.1))
  let (vb, vc) := quantState (d.stateKey k g 2 u 0) (l.map (·.2.1))
  { mBytes := mb, vBytes := vb, codes := q.map (fun x => ofInt 8 x.1), mClip := mc, vClip := vc, wClip := countIf (·.2.1) q,
    nonfinite := countIf (·.2.2) q, changed := countIf (fun x => x.1.1 != x.2) (q.zip w) }

/-- Write a group's update (R948). -/
def Dev.putUpdate (d : Dev) (c : Nat) (k : Cmd) (g : Nat) (x : GroupUpd) : Dev :=
  let r := tiRec k.data g
  let h := d.statePart c r 0
  (((d.putPart c r 4 x.mBytes).putPart c r 5 x.vBytes).putPart c r 2 x.codes).putHdr c r ((u32 h 4 + 1) % 2 ^ 32) (u32 h 8) 1

/-- The update is computed: guard, then staged or on to its commit (R947, R948). -/
def Dev.trainUpdated (d : Dev) (c : Nat) (k : Cmd) : Dev :=
  let l := (List.range (tiGroups k.data)).map (fun g => (g, d.groupUpdate c k g))
  let sum (f : GroupUpd → Nat) : Nat := l.foldl (fun a x => a + f x.2) 0
  let e := d.elemSum k.groups
  let t : TrainProg :=
    { k.tr with
      wClip := sum (·.wClip), mClip := sum (·.mClip), vClip := sum (·.vClip), nonfinite := sum (·.nonfinite)
      changed := sum (·.changed) }
  let k : Cmd := { k with tr := t }
  if t.nonfinite ≠ 0 ∨ u16 k.data 24 * e < t.wClip * 65536 ∨ u16 k.data 26 * 2 * e < (t.mClip + t.vClip) * 65536 then d.trainEnd c k 2
  else
    let d := l.foldl (fun a x => a.putUpdate c k x.1 x.2) d
    if k.action = 1 then d.toCommit c k else d.trainEnd c k 1

/-- An update step (R945): the update is computed with its last element. -/
def trainUpdate (c s : Nat) (d : Dev) : Dev :=
  match d.trainCmd c s 4 with
  | some k =>
    let total := d.elemSum k.groups
    d.takeElems c k 128 total (fun p d =>
      let d := d.upd c k.seqNo (fun x => { x with pos := p })
      if p < total then d else d.trainUpdated c k)
  | none => d

/-- Write S and its transposes into the tile buffer, and S into W (R950). -/
def Dev.commitGroup (d : Dev) (c : Nat) (r : List Nat) : Dev :=
  let s := d.statePart c r 2
  let w := d.secNow (grFwd r)
  let new := w.take 16 ++ s
  let d := d.secPut (grFwd r) new
  let d := (grTrn r).zipIdx.foldl (fun a p => a.secPut p.1 ((a.secNow p.1).take 16 ++ transposed s (u16 w 0) p.2)) d
  let h := d.statePart c r 0
  (d.putPart c r 1 s).putHdr c r (u32 h 4) (crc32c new) (putBit (u8 h 16) 0 false)

/-- The HOUSEKEEPING slot of now, the beat of the frame at which a step would start in it, and the beats left. -/
def Dev.hkpRoom (d : Dev) : Option (Slot × Nat × Nat) :=
  if d.sq.frameAt.isNone || d.rst.refLost || d.cutOver then none
  else
    let now := max d.frameBeat (sget 0 d.sq.used 0)
    match d.slotsNow.find? (fun k => k.kind == 4 && decide (k.start ≤ now ∧ now < k.start + k.len)) with
    | some k => if d.firstHkp == some k && !d.sq.hkpDone then none else some (k, now, k.start + k.len - now)
    | none => none

/-- A commit of a lower client waits. -/
def Dev.commitBefore (d : Dev) (c : Nat) : Bool :=
  d.clients.any (fun e => decide (e.1 < c) && e.2.cmds.any (fun k => k.op == opTrain && k.phase == .running && k.stage == 5))

/-- Steps of client 0's rings have run in a HOUSEKEEPING slot of this frame. -/
def Dev.stepsBegun (d : Dev) (sl : Slot) : Bool :=
  match sfind d.sq.turn 1 with
  | some t => decide (d.sq.frameAt.getD 0 + sl.start ≤ t.1)
  | none => false

/-- The commit step (R950, R951): one in each slot, before the steps of rings. -/
def trainCommit (c s : Nat) (d : Dev) : Dev :=
  match d.trainCmd c s 5, d.hkpRoom with
  | some k, some (sl, now, left) =>
    let n := 16 + cdiv (d.commitLen k) 1024
    if left < n || d.sq.commits.contains sl.start || d.commitBefore c || d.stepsBegun sl then d
    else
      let d := (d.chargeBeats c k 0 now n).setSq (fun q => { q with commits := sl.start :: q.commits })
      (k.groups.foldl (fun a r => a.commitGroup c r) d).trainEnd c k 0
  | _, _ => d

def execTrainCommitStep (client ring : Nat) (s : State) : Host.Outcome State Fault Refusal :=
  unit (decide (client ≤ 256 ∧ ring < 8)) (onDev (trainCommit client ring) s)

/-- An update that is cut marks the groups it had begun TORN (R955). -/
def Dev.trainTorn (d : Dev) (c : Nat) (k : Cmd) : Dev :=
  if k.op ≠ opTrain ∨ k.stage ≠ 4 then d
  else (d.groupEnds k.groups).foldl (fun a g =>
    if g.2 - a.elems g.1 < k.pos then
      let h := a.statePart c g.1 0
      a.putHdr c g.1 (u32 h 4) (u32 h 8) (putBit (u8 h 16) 1 true)
    else a) d

end Sys2Proof.Machine
end

