-- ==== Sys2Proof/Machine/Update.lean ====
section
/-!
DEFINITION. Update and option commands (BOT.5, BOT.6, RST.8): FW_CHUNK, FW_VERIFY, FW_ACTIVATE, FW_CONFIRM,
OTP_OPTION_WRITE, and their flash and fuse steps.
-/

namespace Sys2Proof.Machine

/-- An update or option opcode (R225, R226). -/
def isUpd (op : Nat) : Bool := op == opChunk || op == opVerify || op == opActivate || op == opConfirm || op == opOtp

/-- Change the update job; BUSY follows it, and a change raises class UPD (R226, R607). -/
def Dev.setJob (d : Dev) (j : Option UpdJob) : Dev :=
  ({ d with boot := { d.boot with job := j } }.flag R.BTP_UPD_BUSY j.isSome).evt 7

/-- An update command fetched before a command is not decided yet (R226). -/
def Dev.updBefore (d : Dev) (k : Cmd) : Bool :=
  (d.cmds 0).any (fun x => isUpd x.op && decide (x.seqNo < k.seqNo) && x.phase ≠ .done)

/-- Start an update command when none runs and it is next (R226). -/
def Dev.startUpd (d : Dev) (s op : Nat) (body : Cmd → Dev → Dev) : Dev :=
  match d.starting 0 s op with
  | some k => if d.boot.job.isSome || d.updBefore k then d else d.start 0 s op body
  | none => d

/-- The slot that is running: 0 A, 1 B, otherwise none. -/
def Dev.runningSlot (d : Dev) : Nat := d.rd R.BTP_STATUS_BOOTED

/-- A protected target (BOT.5). -/
def Dev.protectedTarget (d : Dev) (nv : Nv) (t : Nat) : Bool :=
  let r := currentRec nv
  if t < 2 then t == d.runningSlot || t == r.slot else t - 2 == r.man

/-- An update command begins with a job. -/
def Dev.beginUpd (d : Dev) (k : Cmd) (ph : UpdPhase) (t off : Nat) (data : List Nat) : Dev :=
  (d.begin 0 k id).setJob (some { op := k.op, ring := k.ring, target := t, offset := off, data := data, phase := ph })

/-- An update command ends: its job is over. -/
def Dev.endUpd (d : Dev) (k : Cmd) (st res det : Nat) : Dev := (d.finish 0 k st res det).setJob none

/-- FW_CHUNK (BOT.5, R227). -/
def fwChunk (s : Nat) (nv : Nv) (d : Dev) : Dev :=
  d.startUpd s opChunk (fun k d =>
    let t := k.par8 40
    if 3 < t ∨ k.dest % 4096 ≠ 0 ∨ k.len % 4096 ≠ 0 ∨ k.len = 0 ∨ 2 ^ 20 < k.len ∨ updSize t < k.dest + k.len then d.finish 0 k stRange 0 0
    else if d.protectedTarget nv t then d.finish 0 k stForbidden 0 0
    else if !(currentRec nv).confirmed then d.finish 0 k stUnavailable 0 0
    else d.hostCheck 0 k k.src k.len (fun d =>
      let d := (d.wri R.BTP_UPD_VERIFIED t 0).beginUpd k .erase t k.dest []
      (d.upd 0 k.seqNo (fun x => { x with total := k.len, awaiting := k.len })).hostRead 0 k.src k.len))

def execFwChunk (ring : Nat) (s : State) : Host.Outcome State Fault Refusal :=
  unit (decide (ring < 8)) (onDevNv (fwChunk ring) s)

/-- FW_VERIFY begins (R205). -/
def fwVerify (s : Nat) (d : Dev) : Dev :=
  d.startUpd s opVerify (fun k d =>
    if 3 < k.par8 40 then d.finish 0 k stRange 0 0 else d.beginUpd k .hashing (k.par8 40) 0 [])

def execFwVerify (ring : Nat) (s : State) : Host.Outcome State Fault Refusal :=
  unit (decide (ring < 8)) (onDev (fwVerify ring) s)

/-- Headers of a target: boot stage and firmware of a slot, or a manifest's. -/
def Dev.updHeaders (d : Dev) (nv : Nv) (t : Nat) : List Nat :=
  if t < 2 then d.flashRead nv (updBase t) 512 ++ d.flashRead nv (updBase t + fwOffset) 512 else d.flashRead nv (updBase t) 512

/-- Bytes that FW_VERIFY hashes. -/
def Dev.verifyLen (d : Dev) (nv : Nv) (t : Nat) : Nat :=
  let h := d.updHeaders nv t
  if t < 2 then min stageLimit (512 + hdrLen (h.take 512)) + min fwLimit (512 + hdrLen (h.drop 512)) else min 0x10000 (512 + hdrLen h)

/-- What FW_VERIFY finds: its status, SVN and KEY_SLOT (BOT.5). -/
def Dev.verifyTarget (d : Dev) (nv : Nv) (t : Nat) : Nat × Nat :=
  let rd := d.flashRead nv
  if t < 2 then
    let a := imageAt rd (updBase t) stageLimit
    let b := imageAt rd (updBase t + fwOffset) fwLimit
    let res := hdrSvn b.1 + hdrKey b.1 * 65536
    if hdrType a.1 ≠ 1 || hdrType b.1 ≠ 2 || !headerVerifies a.1 a.2 true || !headerVerifies b.1 b.2 true then (stMalformed, 0)
    else if !rootKeyOk nv d.rst.opt a.1 || !rootKeyOk nv d.rst.opt b.1 || hdrSvn a.1 ≠ hdrSvn b.1 || hdrSvn a.1 < nv.fuseCount then
      (stForbidden, 0)
    else (stOk, res)
  else
    let m := d.manifestAt nv (t - 2)
    let unsigned := hdrKey m.1 = 0xFE
    if hdrType m.1 ≠ 3 || !headerVerifies m.1 m.2 (!unsigned) || !manifestValid d.variant m.2 then (stMalformed, 0)
    else if manifestSigned nv d.rst.opt m.1 m.2 then (stOk, hdrSvn m.1 + hdrKey m.1 * 65536) else (stForbidden, 0)

/-- FW_ACTIVATE begins (BOT.5). -/
def fwActivate (s : Nat) (nv : Nv) (d : Dev) : Dev :=
  d.startUpd s opActivate (fun k d =>
    let t := k.par8 40
    if 3 < t then d.finish 0 k stRange 0 0
    else if !d.isSeti R.BTP_UPD_VERIFIED t || nth [] d.boot.verifiedHash t ≠ Config.sha384 (d.updHeaders nv t) ||
            (2 ≤ t && !(currentRec nv).confirmed) then d.finish 0 k stUnavailable 0 0
    else d.beginUpd k .erase t 0 [])

def execFwActivate (ring : Nat) (s : State) : Host.Outcome State Fault Refusal :=
  unit (decide (ring < 8)) (onDevNv (fwActivate ring) s)

/-- FW_CONFIRM (BOT.5). -/
def fwConfirm (s : Nat) (nv : Nv) (d : Dev) : Dev :=
  d.startUpd s opConfirm (fun k d =>
    let r := currentRec nv
    if r.slot ≠ d.runningSlot then d.finish 0 k stUnavailable 0 0
    else if r.confirmed then d.finish 0 k stOk nv.fuseCount 0
    else d.beginUpd k .erase r.slot 0 [])

def execFwConfirm (ring : Nat) (s : State) : Host.Outcome State Fault Refusal :=
  unit (decide (ring < 8)) (onDevNv (fwConfirm ring) s)

/-! ### Flash steps -/

/-- The running command of a job. -/
def Dev.jobCmd (d : Dev) (j : UpdJob) : Option Cmd := d.runningCmd 0 j.ring j.op

/-- Take a HOUSEKEEPING step of the job (R398); a step of firmware's own work belongs to no command. -/
def Dev.jobStep (d : Dev) (j : UpdJob) (f : Dev → Nv × Dev) (nv : Nv) : Nv × Dev :=
  match d.hkpRoom with
  | some (_, now, left) =>
    if left < 1000 then (nv, d)
    else match d.jobCmd j with
      | some k => f (d.useBeats 0 k 0 now 1000)
      | none => f (d.setSq (fun q => { q with used := sins q.used 0 (now + 1000) }))
  | none => (nv, d)

/-- A job's command ends, where it has one. -/
def Dev.jobEnd (d : Dev) (j : UpdJob) (st res det : Nat) : Dev :=
  match d.jobCmd j with
  | some k => d.endUpd k st res det
  | none => d.setJob none

/-- A flash operation of FW_CHUNK: sectors erased, then programmed and read back (BOT.5). -/
def chunkStep (ok : Bool) (j : UpdJob) (k : Cmd) (nv : Nv) (d : Dev) : Nv × Dev :=
  let a := updBase j.target + j.offset + j.pos
  let last := k.total ≤ j.pos + 4096
  if !ok then (nv, d.endUpd k stAborted 0 5)
  else match j.phase with
    | .erase => ({ nv with flash := mclear nv.flash a 4096 },
        { d with flashUndef := cutUndef a 4096 d.flashUndef }.setJob (some (if last then { j with phase := .program, pos := 0 } else { j with pos := j.pos + 4096 })))
    | .program => ({ nv with flash := mputs 0xFF nv.flash a (bytesAt k.data j.pos 4096) },
        d.setJob (some (if last then { j with phase := .readBack, pos := 0 } else { j with pos := j.pos + 4096 })))
    | _ => (nv, if last then d.endUpd k stOk 0 0 else d.setJob (some { j with pos := j.pos + 4096 }))

/-- A hashing step of FW_VERIFY: 64 KiB, and with the last the finding. -/
def verifyStep (ok : Bool) (j : UpdJob) (k : Cmd) (nv : Nv) (d : Dev) : Dev :=
  if !ok then d.endUpd k stAborted 0 5
  else if j.pos + 65536 < d.verifyLen nv j.target then d.setJob (some { j with pos := j.pos + 65536 })
  else
    let (st, res) := d.verifyTarget nv j.target
    if st ≠ stOk then d.endUpd k st 0 0
    else
      let d := (d.wri R.BTP_UPD_VERIFIED j.target 1)
      let h := Config.sha384 (d.updHeaders nv j.target)
      { d with boot := { d.boot with verifiedHash := d.boot.verifiedHash.set j.target h } }.endUpd k stOk res 0

/-- The record that a job writes: slot, state, manifest copy, SVN and hash (BOT.5). -/
def Dev.jobRecord (d : Dev) (nv : Nv) (j : UpdJob) : List Nat :=
  let r := currentRec nv
  let old := match currentCopy nv with
    | some c => bytesAt (recordAt nv c) 16 48
    | none => List.replicate 48 0
  if j.op = opActivate ∧ j.target < 2 then
    newRecord nv j.target (if j.target = d.runningSlot then 2 else 1) r.man (d.slotSvn nv j.target) (d.slotFwHash nv j.target)
  else if j.op = opActivate then newRecord nv r.slot (if r.confirmed then 2 else 1) (j.target - 2) r.svn old
  else newRecord nv r.slot 2 r.man r.svn (d.slotFwHash nv r.slot)

/-- A flash operation of a record write (R223); a record that does not read back leaves its sector erased. -/
def recordStep (ok : Bool) (j : UpdJob) (nv : Nv) (d : Dev) : Nv × Dev :=
  let a := 0x10000 * newCopy nv
  match j.phase with
  | .erase =>
    if ok then
      ({ nv with flash := mclear nv.flash a 4096 }, d.setJob (some { j with phase := .program, data := d.jobRecord nv j }))
    else (nv, d.jobEnd j stAborted 0 5)
  | .program => if ok then (nv, d.setJob (some { j with phase := .readBack })) else (nv, d.jobEnd j stAborted 0 5)
  | _ =>
    if !ok then (nv, d.jobEnd j stAborted 0 5)
    else
      let seq := u32 j.data 4
      let nv := { nv with flash := mputs 0xFF nv.flash a j.data }
      let running := u8 j.data 8 == d.runningSlot && u8 j.data 9 == 2
      let d := (if running then d.wr R.BTP_STATUS_TRIAL 0 else d).syncSvn nv
      let d := if j.op = opActivate ∧ j.target < 2 then d.wri R.BTP_BOOT_FAIL j.target 0 else d
      if j.op = opActivate then (nv, d.jobEnd j stOk seq 0)
      else if d.isSet R.BTP_SVN_BURN_PENDING then (nv, d.setJob (some { j with phase := .fuses }))
      else (nv, d.jobEnd j stOk nv.fuseCount 0)

/-- One flash or hashing step of the running update command; `ok` tells whether the flash operation succeeded. -/
def flashOpStep (ok : Bool) (nv : Nv) (d : Dev) : Nv × Dev :=
  match d.boot.job with
  | some j =>
    if j.phase = .fuses ∨ j.phase = .otpBurn then (nv, d)
    else match d.jobCmd j with
      | some k =>
        if j.op = opChunk then
          if j.phase = .program ∧ k.data.length < min k.total (j.pos + 4096) then (nv, d)
          else d.jobStep j (chunkStep ok j k nv) nv
        else if j.op = opVerify then d.jobStep j (fun d => (nv, verifyStep ok j k nv d)) nv
        else d.jobStep j (recordStep ok j nv) nv
      | none => (nv, d)
  | none => (nv, d)

/-! ### Fuses -/

/-- One anti-rollback fuse: burned by pulse 1, 2 or 3, or it stays unburned (R234, R236). -/
def fuseBurn (pulses : Nat) (nv : Nv) (d : Dev) : Nv × Dev :=
  match d.boot.job with
  | some j =>
    if j.phase ≠ .fuses then (nv, d)
    else d.jobStep j (fun d =>
      if 1 ≤ pulses ∧ pulses ≤ 3 then
        let nv := nv.burnFuse
        let d := d.syncSvn nv
        if d.isSet R.BTP_SVN_BURN_PENDING then (nv, d.setJob (some { j with pos := j.pos + 1 }))
        else (nv, d.jobEnd j stOk nv.fuseCount 0)
      else (nv, (d.wr R.BTP_SVN_BURN_FAIL 1).jobEnd j stAborted 0 5)) nv
  | none => (nv, d)

/-! ### OTP_OPTION_WRITE -/

/-- OTP_OPTION_WRITE begins: its block is read. -/
def otpWrite (s : Nat) (d : Dev) : Dev :=
  d.startUpd s opOtp (fun k d =>
    if k.len ≠ 256 then d.finish 0 k stRange 0 0
    else d.hostCheck 0 k k.src 256 (fun d =>
      let d := d.beginUpd k .otpBurn 0 0 []
      (d.upd 0 k.seqNo (fun x => { x with total := 256, awaiting := 256 })).hostRead 0 k.src 256))

def execOtpOptionWrite (ring : Nat) (s : State) : Host.Outcome State Fault Refusal :=
  unit (decide (ring < 8)) (onDev (otpWrite ring) s)

/-- A new block is refused FORBIDDEN (R178, R210). -/
def otpForbidden (nv : Nv) (sel b : List Nat) (runKey : Nat) : Bool :=
  let keys (o : List Nat) : Nat := bits (u8 o 9) 2 3
  let sealedOnce := (List.range 8).any (fun i => optValid (optSlot nv i) && bitAt (u8 (optSlot nv i) 8) 3)
  (sealedOnce && !bitAt (u8 b 8) 3) || bitAt (keys b) runKey ||
    !((List.range 3).any (fun k => !zerosAt (keyHashSlot nv k) 0 64 && !bitAt (keys b) k)) ||
    (List.range 3).any (fun k => bitAt (keys sel) k && !bitAt (keys b) k) ||
    (!zerosAt sel 64 48 && bytesAt sel 64 48 != bytesAt b 64 48) || (bitAt (u8 b 9) 1 && zerosAt b 64 48)

/-- The lowest blank option slot. -/
def blankSlot (nv : Nv) : Option Nat := (List.range 8).find? (fun i => optBlank (optSlot nv i))

/-- The fuses that a block burns, as bit numbers of the slot. -/
def blockFuses (b : List Nat) : List Nat := (List.range 2048).filter (fun i => bitAt (nth 0 b (i / 8)) (i % 8))

/-- The block has been read: it is checked (R188-R191, R210). -/
def Dev.otpBlock (d : Dev) (nv : Nv) (k : Cmd) : Dev :=
  let b := k.data
  let gen := if d.isSet R.OTP_OPT_STATUS_DEFAULTS then 1 else d.rd R.OTP_OPT_STATUS_GEN + 1
  if !optValid b || optGen b ≠ gen then d.endUpd k stMalformed 0 0
  else if otpForbidden nv d.rst.opt b (d.rd R.BTP_STATUS_KEY_SLOT) then d.endUpd k stForbidden 0 0
  else match blankSlot nv with
    | none => d.endUpd k stNoSpace 0 0
    | some s => d.setJob (d.boot.job.map (fun j => { j with target := s, data := b }))

/-- Eight fuses of an option block: those named in `stuck` stay unburned (R190, R398). -/
def otpBurn (stuck : List Nat) (nv : Nv) (d : Dev) : Nv × Dev :=
  match d.boot.job with
  | some j =>
    match d.jobCmd j with
    | some k =>
      if j.phase ≠ .otpBurn ∨ j.data = [] then (nv, d)
      else d.jobStep j (fun d =>
        let fs := (blockFuses j.data).drop j.pos
        let nv := ((fs.take 8).zipIdx.filter (fun p => !stuck.contains p.2)).foldl
          (fun (n : Nv) p => n.burn (0x800 + 256 * j.target + p.1 / 8) (p.1 % 8)) nv
        if 8 < fs.length then (nv, d.setJob (some { j with pos := j.pos + 8 }))
        else (nv, if optValid (optSlot nv j.target) then d.endUpd k stOk j.target 0 else d.endUpd k stAborted 0 5)) nv
    | none => (nv, d)
  | none => (nv, d)

end Sys2Proof.Machine
end

