-- ==== Sys2Proof/Machine/Abort.lean ====
section
/-!
DEFINITION. Ending commands early (RNG.5): STOP, a plan change, a failed host request and a block reset; the controls of
submission rings (R629, R631, R679-R683).
-/

namespace Sys2Proof.Machine

/-- Causes of ABORTED (RNG.3). -/
def causeStop : Nat := 1
def causePlan : Nat := 2
def causeReplaced : Nat := 3
def causeHost : Nat := 4
def causeBlock : Nat := 6

/-- The standby halves are empty (R382, R388). -/
def Dev.dropStandby (d : Dev) : Dev :=
  let d := d.setSq (fun s => { s with standby := [], sbyForms := [], staging := none })
  let d := { d with mem := { d.mem with tileSby := [] } }
  (d.wr R.SEQ_STATUS_STANDBY 0).wr R.SEQ_STATUS_STAGING 0

/-- No PLAN_ARM is pending: its gates are forgotten. -/
def Dev.dropArm (d : Dev) : Dev :=
  let d := d.setSq (fun s => { s with arm := none })
  let d := ((d.wr R.SEQ_PLAN_ARM_PENDING 0).wr R.SEQ_PLAN_ARM_TARGET 0).wr R.SEQ_PLAN_ARM_WAIT 0
  let held := d.cad.due.isSome && d.sq.frameAt.isSome
  (d.setCad (fun c => { c with armGate := false, targetGate := none })).flag R.CAD_STATUS_HELD held

/-- The pending PLAN_ARM ends with a status and DETAIL. -/
def Dev.armFail (d : Dev) (st det : Nat) : Dev :=
  match d.sq.arm with
  | some a =>
    (match d.cmd? 0 a.seqNo with
     | some k => d.finish 0 k st 0 det
     | none => d).dropArm
  | none => d

/-- What a command that is cut leaves outside its ring: its job, its standby image, its arm, its table row, its row jump. -/
def Dev.unhook (d : Dev) (c : Nat) (k : Cmd) : Dev :=
  let d := if c = 0 && k.phase == .running && isUpd k.op && d.boot.job.any (fun j => j.ring == k.ring && j.op == k.op)
           then d.setJob none else d
  let d := if c = 0 && d.sq.staging.any (fun s => s.seqNo == k.seqNo) then d.dropStandby else d
  let d := if c = 0 && d.sq.arm.any (fun a => a.seqNo == k.seqNo) then d.dropArm else d
  let d := d.setSq (fun s => { s with changes := s.changes.filter (fun t => !(t.client == c && t.seqNo == k.seqNo)) })
  d.setCal (fun x => { x with recal := x.recal.filter (fun r => !(r.1 == c && r.2.1 == k.seqNo)) })

/-- End a command ABORTED with a cause. What its steps did stays. -/
def Dev.abortCmd (d : Dev) (c : Nat) (k : Cmd) (cause : Nat) : Dev :=
  if k.phase = .done then d
  else (((d.trainTorn c k).unhook c k).finish c k stAborted 0 cause).qpSettle

/-- Abort the commands of a client that satisfy a condition. -/
def Dev.abortAll (d : Dev) (c cause : Nat) (p : Cmd → Bool) : Dev :=
  (d.cmds c).foldl (fun a k => if p k then a.abortCmd c k cause else a) d

/-- A command that runs to its end despite STOP (R681): OTP_OPTION_WRITE, and the fuse steps of FW_CONFIRM. -/
def Dev.unstoppable (d : Dev) (k : Cmd) : Bool :=
  k.phase == .running && (k.op == opOtp || (k.op == opConfirm && (d.boot.job.map (·.phase)) == some .fuses))

/-- STOP of a ring (R680). A descriptor still on its way is aborted when it arrives. -/
def Dev.stopRing (d : Dev) (c s : Nat) : Dev :=
  let d := d.setRing c s 3
  let d := d.abortAll c causeStop (fun k => k.ring == s && k.phase ≠ .issued && !d.unstoppable k)
  d.stopDone c s

/-- A write of RING_CTLs as a whole (R629, R631, R679-R683). -/
def ringCtl (c s value : Nat) (d : Dev) : Dev :=
  let st := d.ringState c s
  if !d.pageOk c then d
  else if !bitAt value 0 then
    if st = 1 ∨ st = 2 then (d.mapClient c (fun k => { k with offAfter := s :: k.offAfter.filter (· ≠ s) })).stopRing c s
    else if st = 4 then (d.setRing c s 0).pwr c R.RING_CTL_EN 0 s
    else if st = 3 then d.mapClient c (fun k => { k with offAfter := s :: k.offAfter.filter (· ≠ s) })
    else d
  else if !d.pset c R.RING_CTL_EN s then ringEnable c s d
  else if bitAt value 3 then (if st = 1 ∨ st = 2 then d.stopRing c s else d)
  else if bitAt value 1 then ringResume c s (bitAt value 2) d
  else d

/-- A write of EN = 1. -/
def ringEnableWrite (c s value : Nat) (d : Dev) : Dev := ringCtl c s value d

def execRingEnable (client s value : Nat) (st : State) : Host.Outcome State Fault Refusal :=
  unit (decide (client ≤ 256 ∧ s < 8)) (onDev (ringEnableWrite client s value) st)

/-- A write of EN = 0. -/
def ringDisableWrite (c s value : Nat) (d : Dev) : Dev := ringCtl c s value d

def execRingDisable (client s value : Nat) (st : State) : Host.Outcome State Fault Refusal :=
  unit (decide (client ≤ 256 ∧ s < 8)) (onDev (ringDisableWrite client s value) st)

/-- A write of RESUME. -/
def ringResumeWrite (c s value : Nat) (d : Dev) : Dev := ringCtl c s value d

def execRingResume (client s value : Nat) (st : State) : Host.Outcome State Fault Refusal :=
  unit (decide (client ≤ 256 ∧ s < 8)) (onDev (ringResumeWrite client s value) st)

/-- A write of STOP. -/
def ringStopWrite (c s value : Nat) (d : Dev) : Dev := ringCtl c s value d

def execRingStop (client s value : Nat) (st : State) : Host.Outcome State Fault Refusal :=
  unit (decide (client ≤ 256 ∧ s < 8)) (onDev (ringStopWrite client s value) st)

/-- A client's set-up is cleared and its commands are discarded without completion (R141, R143, R684). -/
def Dev.dropClient (d : Dev) (c : Nat) : Dev :=
  let d := (d.cmds c).foldl (fun a k => ((a.trainTorn c k).unhook c k)) d
  (d.clearPage c).qpSettle

end Sys2Proof.Machine
end

