-- ==== Sys2Proof/Machine/Tables.lean ====
section
/-!
DEFINITION. The sections and rows of the tables that a plan loads and TABLE_WRITE replaces: when they are valid
(CAD.4, CAD.6, ING.1, ING.3, COI.1, COI.4, QNT.2, ORC.3), and TABLE_WRITE itself (R659-R661).
-/

namespace Sys2Proof.Machine

/-- A value lies in a range. -/
def between (lo v hi : Nat) : Bool := decide (lo ≤ v) && decide (v ≤ hi)

/-! ### Phase event rows and CADCFG -/

/-- Half-up rounding of 2^24 / DIV. -/
def rowSpan (n : Nat) : Nat := (2 ^ 25 + n) / (2 * n)

/-- What phase event rows may name: streams, DEC lines and Sensing ADC channels, as masks (R319). -/
structure RowBound where
  streams : Nat
  lines : Nat
  sas : Nat
deriving DecidableEq, Repr

/-- Bits of `v` outside `m` are zero. -/
def inMask (v m : Nat) : Bool := v &&& m == v

/-- A phase event row is valid (R319, R844). -/
def peRowOk (b : RowBound) (r : List Nat) : Bool :=
  if !rowEn r then zerosAt r 0 16
  else
    between 1 (rowAction r) 8 && decide (u8 r 6 < 4) && u8 r 7 == 0 && (!rowBoth r || rowAction r == 8) &&
      inMask (rowMatch r) (rowMask r) && (decide (rowDiv r < 2) || decide (rowFrac r < rowSpan (rowDiv r))) &&
      (match rowAction r with
       | 2 | 3 => inMask (rowArg r) (b.streams % 2 ^ 16)
       | 5 => inMask (rowArg r) (b.lines % 2 ^ 8)
       | 7 => inMask (rowArg r) (b.sas % 2 ^ 12)
       | 8 => true
       | _ => rowArg r == 0)

/-- Rows of a PEVT section. -/
def pevtRows (s : List Nat) : List (List Nat) := (List.range (s.length / 16)).map (fun i => bytesAt s (16 * i) 16)

/-- A PEVT section is valid (R1004, R320). -/
def pevtValid (b : RowBound) (s : List Nat) : Bool :=
  s.length % 16 == 0 && between 16 s.length 16384 && (pevtRows s).all (peRowOk b)

/-- A CADCFG section is valid (R1005, R336). -/
def cadcfgValid (s : List Nat) : Bool :=
  let w (k : Nat) : Nat := u32 s (4 * k)
  s.length == 44 && inMask (w 0) 0x37 && w 1 == 0 && between 10 (w 2) 10000 && between 1 (w 3) 100000 &&
    between 1 (w 4) 16777216 && decide (1 ≤ bits (w 5) 0 8) && decide (1 ≤ bits (w 5) 8 8) &&
    decide (1 ≤ bits (w 6) 16 12) && decide (bits (w 6) 28 4 ≤ 12) && decide (250 ≤ w 7) && decide (250 ≤ w 8) &&
    decide (250 ≤ w 9) && inMask (w 10) 0xFF01 && decide (w 7 ≤ w 8)

/-! ### Streams and formats -/

/-- A field of `n` bytes at an offset lies within a limit. -/
def fieldIn (o n lim : Nat) : Bool := decide (o + n ≤ lim)

/-- A format row is valid (R700). -/
def fmtOk (r : List Nat) : Bool :=
  let lim := fmtMin r - fmtCrc r
  zerosAt r 0 64 ||
    (between 8 (fmtMin r) 9144 && between (fmtMin r) (fmtMax r) 9144 && (u8 r 4 == 0xFF || fieldIn (u8 r 4) 2 lim) &&
      decide (u8 r 5 < 4) && decide (u8 r 9 ≤ 3) && fieldIn (if u8 r 9 = 0 then 0 else u8 r 8) (fmtSeqW r) lim &&
      decide (fmtTs r ≤ 2) && (fmtTs r == 0 || fieldIn (u8 r 10) (4 * fmtTs r) lim) &&
      (u8 r 16 == 0xFF || fieldIn (u8 r 16) 2 lim) && fieldIn (u8 r 17) (u8 r 18) lim && between 4 (u8 r 18) 32 &&
      fieldIn (u8 r 19) 2 (u8 r 18) && fieldIn (u8 r 20) 2 (u8 r 18) && (u8 r 21 == 0xFF || fieldIn (u8 r 21) 2 (u8 r 18)) &&
      between 1 (u16 r 24) 1024 && zerosAt r 26 38)

/-- A FORMATS section is valid. -/
def formatsValid (s : List Nat) : Bool :=
  between 1 (u16 s 0) 64 && s.length == 16 + 64 * u16 s 0 && zerosAt s 2 14 && (formatsOf s).all fmtOk

/-- Records of a STREAMS section. -/
def strRecs (s : List Nat) : List (List Nat) := (List.range (u8 s 0)).map (fun i => bytesAt s (16 + 64 * i) 64)

/-- Lanes of a stream port, as 16 times the die plus the lane. -/
def strLaneSet (r : List Nat) : List Nat := (List.range (strLanes r)).map (fun k => 16 * strDie r + strLane r + k)

/-- Lanes of every port of a STREAMS section. -/
def streamLanes (s : List Nat) : List Nat := ((strRecs s).map strLaneSet).flatten

/-- A stream record is valid (R688), with the FORMATS and BUFFERS sections of its plan. -/
def strRecOk (formats bufs r : List Nat) : Bool :=
  decide (u8 r 0 < 16) && decide (strDie r < 2) && between 1 (strMode r) 4 && lanesOk (strLane r) (strLanes r) &&
    !zerosAt (nth [] (formatsOf formats) (u8 r 4)) 0 64 && decide (u8 r 4 < 64) && decide (u8 r 5 < 16) &&
    decide (u8 r 6 % 16 < 2 ^ strLanes r) && decide (u8 r 6 / 16 < 2 ^ strLanes r) &&
    (u32 r 8 == 0 || between 16 (u32 r 8) 250000) && decide (u8 r 14 < ringN bufs) && u8 (ringRec bufs (u8 r 14)) 16 == u8 r 0 &&
    u8 r 15 == 0 && zerosAt r 26 6 && zerosAt r 48 16 &&
    (if strMode r = 4 then decide (u8 r 5 < 2) && zerosAt r 16 10 && zerosAt r 32 16
     else (if strFlag r 3 then between 1 (u16 r 22) 4094 else u16 r 22 == 0) && decide (1 ≤ u16 r 24) &&
       ipOk (strFlag r 2) (bytesAt r 32 16))

/-- A STREAMS section is valid (R688). -/
def streamsValid (s formats bufs : List Nat) : Bool :=
  between 1 (u8 s 0) 16 && s.length == 16 + 64 * u8 s 0 && zerosAt s 1 15 && (strRecs s).all (strRecOk formats bufs) &&
    decide ((strRecs s).map (fun r => u8 r 0)).Nodup && decide (streamLanes s).Nodup &&
    (List.range 2).all (fun e => decide (((strRecs s).filter (fun r => strDie r == e)).length ≤ 8))

/-- Capacity of a mode in Gb/s. -/
def modeRate (m : Nat) : Nat := nth 0 [0, 100, 200, 400, 97] m

/-- R689. -/
def streamRates (s : List Nat) : Bool :=
  (strRecs s).all (fun r => decide (u16 r 12 ≤ modeRate (strMode r))) &&
    (List.range 2).all (fun e => decide ((((strRecs s).filter (fun r => strDie r == e)).map (fun r => u16 r 12)).foldl (· + ·) 0 ≤ 1600))

/-- Streams of a section, as a mask. -/
def streamMask (s : List Nat) : Nat := (strRecs s).foldl (fun a r => a ||| 2 ^ u8 r 0) 0

/-! ### COINC, RULES, QUANT, WEIGHTS -/

/-- A channel record of a COINC section is valid. -/
def coChOk (c : List Nat) (ch : Nat) : Bool :=
  (decide (chFeat c ch < coFeats c) || chFeat c ch == 0xFFFF) && u8 (chRec c ch) 2 != 0x80 && decide (u8 (chRec c ch) 3 < 8) &&
    decide (chD0 c ch ≤ 16383) && zerosAt (chRec c ch) 6 2

/-- The feature area. -/
def featArea (c : List Nat) : Nat × Nat := (coBase c, 2 * coZ c)

/-- A COINC section is valid (R723, R724), with the BUFFERS section and the frame length of its plan. -/
def coincValid (c bufs : List Nat) (len : Nat) : Bool :=
  c.length == 64 + 8 * coNch c && between 1 (coNch c) 4096 && between 1 (coNslice c) 1024 && between 1 (u8 c 8) 4 &&
    decide (coAmpSh c ≤ 15) && decide (u8 c 11 < 16) && between 1 (coSliceW c) 4096 && coBase c % 256 == 0 &&
    decide (coStampSh c ≤ 48) && decide (1 ≤ coInc c) && decide (1 ≤ coHalf c) && decide (coWlim c ≤ 127) && u8 c 25 == 0 &&
    decide (coDlim c ≤ 16383) && decide (coClampMax c ≤ 4096) && zerosAt c 34 30 && (List.range (coNch c)).all (coChOk c) &&
    decide (coBase c + 2 * coZ c ≤ stgSize) && (bufRanges bufs).all (fun r => !overlaps r.1 r.2 (coBase c) (2 * coZ c)) &&
    (!coLearn c || decide (cdiv (coNch c) 16 + 16 ≤ len))

/-- A rule row is valid (R743). -/
def ruOk (r : List Nat) : Bool :=
  zerosAt r 0 16 ||
    (between 1 (ruEvent r) 4 && decide (u8 r 1 ≤ 1) && (ruEvent r != 4 || ruDelay r) && decide (u8 r 2 ≤ u8 r 3) &&
      between (u16 r 4) (u16 r 6) 4095 && decide (ruShift r ≤ 15) && decide (u8 r 11 < 2) && zerosAt r 12 4)

/-- A RULES section is valid. -/
def rulesValid (s : List Nat) : Bool :=
  between 1 (u8 s 0) 64 && s.length == 16 + 16 * u8 s 0 && zerosAt s 1 15 &&
    (List.range (u8 s 0)).all (fun i => ruOk (bytesAt s (16 + 16 * i) 16))

/-- A tensor descriptor is valid (R497). -/
def descOk (e : List Nat) : Bool :=
  let fmt := u8 e 0 % 4
  decide (u8 e 0 < 8) && (if fmtZp fmt then fmtN8 fmt || decide (u8 e 1 ≤ 15) else u8 e 1 == 0) && decide (u8 e 2 ≤ 2) &&
    (u8 e 2 != 2 || !fmtZp fmt) && decide (u8 e 3 < 4) && decide (u8 e 4 ≤ 1) && decide (u8 e 5 ≤ 1) && decide (u8 e 6 < 2) &&
    u8 e 7 == 0 && zerosAt e 10 6

/-- A QUANT section is valid (R498). -/
def quantValid (q : List Nat) : Bool :=
  between 1 (descCount q) 4096 && q.length == 16 + 16 * descCount q && zerosAt q 4 12 &&
    (List.range (descCount q)).all (fun i => descOk (descBytes q i))

/-- A WEIGHTS section is valid (R425). -/
def weightsValid (w : List Nat) : Bool :=
  between 1 (u16 w 0) 256 && decide (u16 w 2 + u16 w 0 ≤ 256) && decide (u8 w 4 ≤ 1) && zerosAt w 5 11 &&
    w.length == 16 + 64 * u16 w 0 && (w.drop 16).all (fun b => b != 0x80)

/-! ### TABLE_WRITE (R659-R661) -/

/-- Row size and rows of a table; none for a table that TABLE_WRITE does not have. -/
def tableShape (t : Nat) : Option (Nat × Nat) := match t with
  | 1 => some (16, 1024)
  | 2 => some (64, 64)
  | 3 | 4 | 5 => some (16, 64)
  | _ => none

/-- Replace one row of a table in force (R318, R661, R699). -/
def Dev.putRow (d : Dev) (t row : Nat) (b : List Nat) : Dev :=
  match t with
  | 1 => d.setCad (fun c => { c with table := if zerosAt b 0 16 then sdel c.table row else sins c.table row b })
  | 2 => d.setFormats (((List.range 64).map (fun i => nth (List.replicate 64 0) d.ing.formats i)).set row b)
  | 3 => d.setLau (fun l => { l with rules := ((List.range 64).map (fun i => nth (List.replicate 16 0) l.rules i)).set row b })
  | 4 => (List.range 4).foldl (fun a i => a.wri R.LPE_CURVE (4 * row + i) (u32 b (4 * i))) d
  | _ => (List.range 4).foldl (fun a i => a.wri R.LPE_PROFILE (4 * row + i) (u32 b (4 * i))) d

/-- What rows written to the phase event table may name: the streams, DEC lines and channels that the plan which set the
table binds, within the resident record (R319). -/
def Dev.rowBound (d : Dev) : RowBound :=
  let tg := d.lastSec 12
  let lines := (List.range 8).foldl (fun a l => if lnMode (tgLine tg l) ≠ 0 then a + 2 ^ l else a) 0
  { streams := streamMask (d.lastSec 8)
    lines := if tg.isEmpty then 0 else lines &&& d.rd R.RES_DEC_MASK
    sas := if (d.lastSec 16).isEmpty then 0 else sadBound (d.lastSec 16) &&& d.rd R.RES_SA_MASK }

/-- The setpoint curve table as it will be once the rows already held are in force, with one more row. -/
def Dev.curveWith (d : Dev) (row : Nat) (b : List Nat) : List Nat :=
  let now := (List.range 64).map (fun i => ((List.range 4).map (fun j => leBytes 4 (d.rdi R.LPE_CURVE (4 * i + j)))).flatten)
  let held := d.sq.changes.foldl (fun a x => if x.tbl = 4 ∧ !x.bytes.isEmpty then a.set x.row x.bytes else a) now
  (held.set row b).flatten

/-- A row may be written (R320, R700, R743, R870). -/
def Dev.rowOk (d : Dev) (t row : Nat) (b : List Nat) : Bool :=
  match t with
  | 1 => peRowOk d.rowBound b
  | 2 => fmtOk b && (!zerosAt b 0 64 || !(strRecs (d.lastSec 8)).any (fun r => u8 r 4 == row))
  | 3 => ruOk b
  | 4 => curveOk (d.curveWith row b)
  | _ => true

/-- The row of a TABLE_WRITE is held (R659, R661). -/
def Dev.holdRow (d : Dev) (k : Cmd) (b : List Nat) : Dev :=
  let t := k.par8 8
  let row := k.par16 10
  let drop (d : Dev) : Dev := d.setSq (fun s => { s with changes := s.changes.filter (fun x => x.seqNo ≠ k.seqNo) })
  if !d.rowOk t row b then (drop d).finish 0 k stMalformed 0 0
  else
    let d := d.setSq (fun s => { s with changes := s.changes.map (fun x => if x.seqNo = k.seqNo then { x with bytes := b } else x) })
    d.upd 0 k.seqNo (fun x => { x with phase := .waiting, data := b })

/-- TABLE_WRITE starts: its change waits for its row, which comes from PARAMS or is read from SOURCE in the next
completion-and-interrupt item (R660). -/
def Dev.startTable (d : Dev) (k : Cmd) : Dev :=
  match tableShape (k.par8 8) with
  | none => d.finish 0 k stRange 0 0
  | some (size, rows) =>
    if k.len ≠ size ∨ rows ≤ k.par16 10 then d.finish 0 k stRange 0 0
    else
      let hold (d : Dev) : Dev := d.setSq (fun s => { s with changes := s.changes ++
        [{ client := 0, seqNo := k.seqNo, tbl := k.par8 8, row := k.par16 10, bytes := [] }] })
      if size ≤ 16 then (hold d).holdRow k (bytesAt k.desc 40 16)
      else d.hostCheck 0 k k.src size (fun d => (hold d).begin 0 k id)

def tableWrite (c s : Nat) (d : Dev) : Dev := d.start c s opTable (fun k d => d.startTable k)

def execTableWrite (client ring : Nat) (s : State) : Host.Outcome State Fault Refusal :=
  unit (decide (client ≤ 256 ∧ ring < 8)) (onDev (tableWrite client ring) s)

/-- TABLE_WRITE rows that are still to be read are asked for in the completion-and-interrupt item (R660). -/
def Dev.readRows (d : Dev) : Dev :=
  (d.cmds 0).foldl (fun a k =>
    if k.op = opTable ∧ k.phase = .running ∧ k.pos = 0 ∧ a.busOk 0 then
      if a.reqOk 0 k.src k.len then (a.upd 0 k.seqNo (fun x => { x with pos := k.len, awaiting := k.len })).hostRead 0 k.src k.len
      else (((a.setSq (fun s => { s with changes := s.changes.filter (fun x => x.seqNo ≠ k.seqNo) })).hostDeny 0 k.src)).finish 0 k stForbidden 0 0
    else a) d

/-- Held rows come into force at a frame boundary; their commands complete in the next completion-and-interrupt item
(R661). -/
def Dev.takeRows (d : Dev) : Dev :=
  let due := d.sq.changes.filter (fun x => !x.bytes.isEmpty)
  let d := due.foldl (fun a x => (a.putRow x.tbl x.row x.bytes).upd 0 x.seqNo (fun k => { k with stage := 1 })) d
  d.setSq (fun s => { s with changes := s.changes.filter (fun x => x.bytes.isEmpty) })

/-- TABLE_WRITEs whose row is in force complete OK (R661). -/
def Dev.tablesDone (d : Dev) : Dev :=
  (d.cmds 0).foldl (fun a k => if k.op = opTable ∧ k.phase = .waiting ∧ k.stage = 1 then a.finish 0 k stOk 0 0 else a) d

end Sys2Proof.Machine
end

