-- ==== Sys2Proof/Machine/RegRead.lean ====
section
/-!
DEFINITION. Reading a register (SCO.4, chapter 24): the value of a word of PF BAR0 or of a set-up page, the table
windows of MAP.5, SNAP captures (R15), fields whose reset has not ended (R16) and the _HI shadows of R11.
-/

namespace Sys2Proof.Machine

/-! ### Words -/

/-- The elements of a field that have a bit among the 32 from bit address `b`. -/
def Fld.elems (f : Fld) (b : Nat) : List Nat :=
  let last := if b + 32 ≤ f.bit then 0 else if f.stride = 0 then 1 else min f.count ((b + 31 - f.bit) / f.stride + 1)
  let first := if b < f.bit + f.w then 0 else if f.stride = 0 then 1 else (b - f.bit - f.w) / f.stride + 1
  (List.range (last - first)).map (· + first)

/-- The part of a value at bit address `k` that lies in the 32 bits from `b`. -/
def wordPart (b k v : Nat) : Nat := if b ≤ k then (v <<< (k - b)) % 2 ^ 32 else (v >>> (b - k)) % 2 ^ 32

/-- The word at bit address `b` made of fields whose elements have the values `val` gives. -/
def wordOf (fs : List Fld) (val : Fld → Nat → Nat) (b : Nat) : Nat :=
  fs.foldl (fun a f => (f.elems b).foldl (fun x i => x + wordPart b (f.key i) (val f i)) a) 0

/-- Whether a field can be read; a read of a WO field returns zero (SCO.4). -/
def Fld.readable (f : Fld) : Bool := f.acc ≠ .wo && f.acc ≠ .snap

/-- A field of a register block reads its reset value: a reset that clears it has not ended (R16). -/
def Dev.hidden (d : Dev) (f : Fld) (blk : Nat) : Bool :=
  let narrow := f.cls ≠ .sticky && f.cls ≠ .full && f.cls ≠ .device
  narrow && ((match d.rst.ep with
    | some e => f.cls.clearedBy e.reach
    | none => false) ||
  (f.cls.clearedByBlock && (match rstCode blk with
    | some c => d.inReset c
    | none => false)))

/-- A field of client `c`'s set-up page reads its reset value (R16, R626). -/
def Dev.pageHidden (d : Dev) (c : Nat) (f : Fld) : Bool :=
  f.cls ≠ .sticky && (d.rst.ep.isSome || (f.cls == .func && (d.inReset 6 || d.rst.flr.contains c)))

/-- A thermal sensor that the variant has (SUP.1). -/
def Dev.sensorHere (d : Dev) (i : Nat) : Bool :=
  if 34 ≤ i ∧ i < 40 then decide (i - 34 < stacksOf d.variant) else if i = 41 then ioDiesOf d.variant == 2 else decide (i < 48)

/-- Give the fields of a block that follow other state their values: ABSENT of sensors and channels, PAUSED of paths,
CONV of SA12 to SA15, and READING. -/
def Dev.derived (d : Dev) (blk : Nat) : Dev :=
  match blk with
  | 0x03 => (List.range 48).foldl (fun a i => a.flagi R.THM_SENS_ABSENT i (!d.sensorHere i)) d
  | 0x0B => (List.range 8).foldl (fun a i => a.flagi R.MEM_T2_STATUS_ABSENT i (decide (4 ≤ i) && ioDiesOf d.variant == 1)) d
  | 0x11 => (List.range 32).foldl (fun a k =>
      a.flagi R.AET_PATH_PAUSED k (d.aetPaused (u8 (recOf (aetPaths d.aetSec) k) 2))) d
  | 0x12 => d.flag R.LPE_TRC_STATUS_READING d.traceReading
  | 0x14 => (List.range 4).foldl (fun a i => a.flagi R.SAD_STATUS_CONV (12 + i) d.supConvert) d
  | _ => d

/-- Word of a register block at an aligned offset of PF BAR0, with no side effect. -/
def Dev.blockWord (d : Dev) (addr : Nat) : Nat :=
  let blk := addr / 0x10000
  let e := d.derived blk
  wordOf pfFields (fun f i => if !f.readable then 0 else if d.hidden f blk then f.rst else e.rdi f i) (8 * addr)

/-- Word of client `c`'s set-up page, with no side effect (MAP.6). -/
def Dev.pageWord (d : Dev) (c off : Nat) : Nat :=
  if 0x40 ≤ off ∧ off < 0x80 then d.blockWord (0x51000 + 64 * c + (off - 0x40))
  else
    let d := d.pwr c R.HIF_VF_ID_CLIENT c
    wordOf pageFieldsAll (fun f i => if !f.readable then 0 else if d.pageHidden c f then f.rst else d.prd c f i) (8 * off)

/-! ### Table windows (MAP.5) -/

/-- One channel's entry of the LAU channel window (COI.6). -/
def Dev.chanEntry (d : Dev) (ch : Nat) : List Nat :=
  let c := d.lastSec 10
  match d.lau.chans[ch]? with
  | some k => [ofInt 8 k.w, ofInt 8 k.cw] ++ leBytes 2 k.d ++ leBytes 2 k.cd ++ [k.x, u8 (chRec c ch) 3] ++ leBytes 2 k.s ++
      leBytes 2 (chFeat c ch) ++ [ofInt 8 (chW0 c ch), 0] ++ leBytes 2 (chD0 c ch)
  | none => []

/-- Word of a table window; zero where MAP.5 names nothing (R1003). -/
def Dev.windowWord (d : Dev) (addr : Nat) : Nat :=
  let o := addr % 0x10000
  let t := d.rd R.CAL_PAGE
  if 0x200000 ≤ addr ∧ addr < 0x204000 then u32 (sget [] d.cad.table (o / 16)) (o % 16)
  else if 0x210000 ≤ addr ∧ addr < 0x211000 then u32 (nth [] d.ing.formats (o / 64)) (o % 64)
  else if 0x220000 ≤ addr ∧ addr < 0x220400 then u32 (nth [] d.lau.rules (o / 16)) (o % 16)
  else if 0x230000 ≤ addr ∧ addr < 0x240000 then
    (if o / 4096 < aetNPeer d.aetSec then leVal (d.memBytes 0 (aetPeerBase d.aetSec + o) 4) else 0)
  else if 0x240000 ≤ addr ∧ addr < 0x250000 then u32 (d.chanEntry (o / 16)) (o % 16)
  else if 0x250000 ≤ addr ∧ addr < 0x250400 then d.rdi R.LPE_CURVE (o / 4)
  else if 0x251000 ≤ addr ∧ addr < 0x251400 then d.rdi R.LPE_PROFILE (o % 0x1000 / 4)
  else if 0x300000 ≤ addr ∧ addr < 0x320200 then u32 (d.curveBytes t ((addr - 0x300000) / 512)) (addr % 512)
  else if 0x330000 ≤ addr ∧ addr < 0x330808 then u32 (d.rowRecord t (o / 8)) (o % 8)
  else 0

/-- An offset of PF BAR0 lies in client 0's set-up page (MAP.1). -/
def inPage0 (addr : Nat) : Bool := decide (0xD8000 ≤ addr) && decide (addr < 0xD9100)

/-- The word at an aligned offset of PF BAR0 as it stands, with no side effect and past any SNAP capture. -/
def Dev.liveWord (d : Dev) (addr : Nat) : Nat :=
  if 0x200000 ≤ addr then d.windowWord addr else if inPage0 addr then d.pageWord 0 (addr - 0xD8000) else d.blockWord addr

/-! ### SNAP captures (R15) -/

/-- SNAP registers, by block code: the register's offset in its block. -/
def snapOffset (blk : Nat) : Option Nat :=
  match blk with
  | 0x02 => some 0x40 | 0x03 => some 4 | 0x06 => some 0x40 | 0x07 => some 0x20 | 0x08 => some 0x10 | 0x09 => some 8
  | 0x0A => some 0 | 0x0B => some 0x40 | 0x0C => some 0 | 0x0E => some 0 | 0x0F => some 8 | 0x10 => some 4 | 0x11 => some 0
  | 0x12 => some 8 | 0x13 => some 4 | 0x14 => some 0xC | 0x15 => some 4
  | _ => none

/-- An offset of a block belongs to the group that its SNAP register captures. -/
def snapGroup (blk off : Nat) : Bool :=
  match blk with
  | 0x02 => off == 0 || (decide (0x50 ≤ off) && decide (off < 0x60)) || (decide (0x80 ≤ off) && decide (off < 0xA0))
  | 0x06 => off == 4 || (decide (0x30 ≤ off) && decide (off < 0x40)) || off == 0x44 || (decide (0x80 ≤ off) && decide (off < 0x9C))
  | b => (snapOffset b).isSome

/-- Offsets of a set-up page that RNG_SNAP captures. -/
def pageSnap (off : Nat) : Bool := decide (0x114 ≤ off) && decide (off < 0x160)

/-- The capture in force for a key: a block code, or 0x100 plus a client. -/
def Dev.snapOf (d : Dev) (k : Nat) : Option (Sparse Nat) := (d.snaps.find? (fun e => e.1 == k)).map (·.2)

/-- Take a capture: it replaces the last one of its key. -/
def Dev.capture (d : Dev) (k : Nat) (regs : Sparse Nat) : Dev :=
  { d with snaps := (k, regs) :: d.snaps.filter (fun e => e.1 ≠ k) }

/-- Capture a block's group: the block's fields as they stand. -/
def Dev.snapBlock (d : Dev) (blk : Nat) : Dev :=
  d.capture blk (skeep (fun k => decide (k < firstPageBit) && blockOfKey k == blk) (d.derived blk).regs)

/-- Capture a client's page group. -/
def Dev.snapPage (d : Dev) (c : Nat) : Dev :=
  d.capture (0x100 + c) (skeep (fun k => decide (firstPageBit ≤ k) && clientOfKey k == c) d.regs)

/-- A word made of captured fields. -/
def capturedWord (fs : List Fld) (base : Nat) (regs : Sparse Nat) (b : Nat) : Nat :=
  wordOf fs (fun f i => if f.readable then sget f.rst regs (f.key i + base) % 2 ^ f.w else 0) b

/-- The word that a read of an aligned offset of PF BAR0 finds. -/
def Dev.seenWord (d : Dev) (addr : Nat) : Nat :=
  if 0x200000 ≤ addr then d.windowWord addr
  else if inPage0 addr then
    match d.snapOf 0x100, pageSnap (addr - 0xD8000) with
    | some r, true => capturedWord pageFieldsAll (pageBit 0) r (8 * (addr - 0xD8000))
    | _, _ => d.pageWord 0 (addr - 0xD8000)
  else
    match d.snapOf (addr / 0x10000), snapGroup (addr / 0x10000) (addr % 0x10000) with
    | some r, true => capturedWord pfFields 0 r (8 * addr)
    | _, _ => d.blockWord addr

/-- The word that VF `c`'s read of its page finds. -/
def Dev.seenPage (d : Dev) (c off : Nat) : Nat :=
  match d.snapOf (0x100 + c), pageSnap off with
  | some r, true => capturedWord pageFieldsAll (pageBit c) r (8 * off)
  | _, _ => d.pageWord c off

/-! ### _LO and _HI pairs (R11-R14) -/

/-- Page offsets of _HI halves. -/
def pageHi (off : Nat) : Bool :=
  off == 0x104 || off == 0x1004 || off == 0x100C ||
  (decide (0x200 ≤ off) && decide (off < 0x400) && off % 0x20 == 4)

/-- Offsets of PF BAR0 that hold the _HI half of a _LO, _HI pair. -/
def isHi (addr : Nat) : Bool :=
  if inPage0 addr then pageHi (addr - 0xD8000)
  else
    let o := addr % 0x10000
    match addr / 0x10000 with
    | 0x02 => o == 0x14 || o == 0x1C || o == 0x5C
    | 0x05 => o == 0x24
    | 0x06 => o == 0x34 || o == 0x3C
    | 0x07 => o == 0x1C
    | 0x08 => o == 0x1C
    | 0x09 => o == 0x24
    | 0x0A => o == 0xC || o == 0x14 || o == 0x1C
    | 0x0B => o == 0x6C || (decide (0x100 ≤ o) && decide (o < 0x180) && o % 8 == 4) ||
        (decide (0x200 ≤ o) && decide (o < 0x280) && o % 8 == 4)
    | 0x0D => o == 0x54
    | 0x0E => decide (0x300 ≤ o) && decide (o < 0x380) && o % 8 == 4
    | 0x0F => o == 0x14
    | 0x10 => o == 0xC || o == 0x14 || o == 0x1C
    | 0x11 => decide (0x100 ≤ o) && decide (o < 0x900) && (o % 0x40 == 0x14 || o % 0x40 == 0x2C)
    | _ => false

/-- Which shadow a master has (R14): a function's, the debug port's, or the Armature's. -/
def masterKey (m : Master) : Nat :=
  match m with
  | .pf => 0 | .vf n => n | .dbg => 257 | .armature => 258 | .boot => 258

/-- Key of a master's shadow of a _HI word. -/
def hiKey (m : Master) (addr : Nat) : Nat := masterKey m * 2 ^ 32 + addr

/-- One aligned 32-bit read: the value, and the shadow that a _LO read latches. `seen` reads a word and `hi` tells
the _HI halves. -/
def Dev.read32 (d : Dev) (m : Master) (seen : Nat → Nat) (hi : Nat → Bool) (addr : Nat) : Nat × Dev :=
  if hi addr then (sget 0 d.hi (hiKey m addr), d)
  else
    let d := if hi (addr + 4) then { d with hi := sput 0 d.hi (hiKey m (addr + 4)) (seen (addr + 4)) } else d
    (seen addr, if addr = 0xE0008 ∧ !masterVf m then (d.wri R.STP_FILL 0 0).wri R.STP_FILL 1 0 else d)

/-- A read of 4 or 8 aligned bytes (R9, R13); any other returns all ones and records an access error (R10). -/
def Dev.readSized (d : Dev) (m : Master) (seen : Nat → Nat) (hi : Nat → Bool) (addr size : Nat) (err : Dev → Dev) : Nat × Dev :=
  if size = 4 ∧ addr % 4 = 0 then d.read32 m seen hi addr
  else if size = 8 ∧ addr % 8 = 0 then
    let (a, d) := d.read32 m seen hi addr
    let (b, d) := d.read32 m seen hi (addr + 4)
    (a + 2 ^ 32 * b, d)
  else (2 ^ (8 * size) - 1, err d)

/-- An access error of a VF at an offset of its page. -/
def Dev.pageError (d : Dev) (c off : Nat) : Dev := d.rasEvent 1 0x0D c (0xD8000 + off)

/-- A master's read of a register that is reached: a VF's page, or PF BAR0. -/
def Dev.readReg (d : Dev) (m : Master) (addr size : Nat) : Nat × Dev :=
  match m with
  | .vf n => d.readSized m (d.seenPage n) pageHi addr size (fun e => e.pageError n addr)
  | m => d.readSized m d.seenWord isHi addr size (fun e => e.accessError (masterClient m) addr)

end Sys2Proof.Machine
end

