-- ==== Sys2Proof/Machine/Complete.lean ====
section
/-!
DEFINITION. Host reads that are answered (HIF.4): data, failures and timeouts; READ_STATS (R658); and CAL_REQUEST
(HLD.6), whose steps run in the calibration reserve.
-/

namespace Sys2Proof.Machine

/-! ### Answers to host reads (HIF.4) -/

/-- The oldest command of a ring with a host read that is not answered. -/
def Dev.waitingRead (d : Dev) (c s : Nat) : Option Cmd := (d.cmds c).find? (fun k => k.ring == s && decide (0 < k.awaiting))

/-- Every byte that a running command asked for has arrived: the next part of the command, by its opcode. -/
def Dev.readDone (d : Dev) (nv : Nv) (c : Nat) (k : Cmd) : Dev :=
  if k.op = opTable then d.holdRow k k.data
  else if k.op = opOtp then d.otpBlock nv k
  else if k.pos < k.total then d
  else if k.op = opLoad then d.finishOk c k k.total
  else if k.op = opSection then d.sectionImage c k
  else if k.op = opTrain then d.trainImage c k
  else if k.op = opQp then d.qpImage c k
  else d

/-- Data of a command's host read arrive, in the order in which the bytes were asked for. LOAD_TENSOR puts them where
they go, also once it is ABORTED; other commands that have ended drop them. -/
def Dev.dataArrives (d : Dev) (nv : Nv) (c : Nat) (k : Cmd) (bytes : List Nat) : Dev :=
  let b := bytes.take k.awaiting
  let d := if k.op = opLoad then
      match d.clientSpace c (devSpace k.dest) with
      | some p => d.store (devSpace k.dest) (p.1 + devOff k.dest + (k.pos - k.awaiting)) b false
      | none => d
    else d
  let keep := k.op ≠ opLoad && k.phase == .running
  let k := { k with awaiting := k.awaiting - b.length, data := if keep then k.data ++ b else k.data }
  let d := d.upd c k.seqNo (fun _ => k)
  if k.awaiting = 0 ∧ k.phase = .running then d.readDone nv c k else d

/-- A host read of a client fails: its command, if it still runs, ends with a status (HIF.4, R616). -/
def Dev.readFails (d : Dev) (c s status : Nat) : Dev :=
  let stop (d : Dev) (k : Cmd) : Dev :=
    if k.phase = .done then d
    else (((d.trainTorn c k).unhook c k).finish c k status 0 (if status = stAborted then causeHost else 0)).qpSettle
  if s = 8 then d.mapClient c (fun x => { x with polling := false })
  else match d.waitingRead c s with
    | some k => (stop d k).upd c k.seqNo (fun x => { x with awaiting := 0 })
    | none => match d.onTheWay c s with
      | some k => stop d k
      | none => match d.sq.staging, d.runningCmd c s opStage with
        | some _, some k => stop d k
        | _, _ => d

/-- A completion of a host read arrives (HIF.4). One that answers a request which a reset has dropped is discarded
(R617). -/
def hostCompletion (c s : Nat) (kind : CplKind) (bytes : List Nat) (nv : Nv) (d : Dev) : Dev :=
  if !d.running then d
  else match kind with
    | .data => match d.waitingRead c s with
      | some k => (d.dataArrives nv c k bytes).qpSettle
      | none => d
    | .failed => (d.inc R.HIF_CNT_CPL_ERR).readFails c s stAborted
    | .poisoned => (d.aerLog c .poisoned bytes).readFails c s stAborted
    | .unexpected => d.aerLog c .unexpectedCpl bytes

def execHostCompletionArrived (client ring : Nat) (kind : CplKind) (bytes : List Nat) (s : State) :
    Host.Outcome State Fault Refusal :=
  unit (decide (client ≤ 256 ∧ ring ≤ 8)) (onDevNv (hostCompletion client ring kind bytes) s)

/-- No completion came in time (HIF.4). -/
def completionTimeout (c s : Nat) (d : Dev) : Dev :=
  if !d.running then d else ((d.aerLog c .cplTimeout []).inc R.HIF_CNT_CPL_TO).readFails c s stTimeout

def execCompletionTimeout (client ring : Nat) (s : State) : Host.Outcome State Fault Refusal :=
  unit (decide (client ≤ 256 ∧ ring ≤ 8)) (onDev (completionTimeout client ring) s)

/-! ### READ_STATS (R658) -/

/-- The bytes that READ_STATS copies, as they stand at one instant. -/
def Dev.statsBytes (d : Dev) (c code : Nat) : List Nat :=
  if code = 0xFF then ((List.range 16).map (fun i => leBytes 4 (d.pageWord c (0x120 + 4 * i)))).flatten
  else ((List.range 64).map (fun i => leBytes 4 (d.liveWord (0x10000 * code + 4 * i)))).flatten

/-- READ_STATS starts. -/
def Dev.startStats (d : Dev) (c : Nat) (k : Cmd) : Dev :=
  let code := k.par8 8
  if code ≠ 0xFF ∧ 0x16 < code then d.finish c k stRange 0 0
  else if code ≠ 0xFF ∧ c ≠ 0 then d.finish c k stForbidden 0 0
  else if k.len ≠ (if code = 0xFF then 64 else 256) then d.finish c k stRange 0 0
  else d.hostCheck c k k.dest k.len (fun d =>
    if d.fitsSome c {} 16 then d.begin c k (fun x => { x with total := k.len }) else d.finish c k stUnavailable 0 0)

/-- The one step of a READ_STATS: 16 beats. -/
def statsStep (c s : Nat) (d : Dev) : Dev :=
  match d.runningCmd c s opStats with
  | some k =>
    if !d.busOk c then d
    else d.takeStep c k {} 16 (fun d =>
      if d.reqOk c k.dest k.total then (d.hostWrite c k.dest (d.statsBytes c (k.par8 8))).finishOk c k 0
      else (d.hostDeny c k.dest).finish c k stForbidden 0 0)
  | none => d

/-! ### CAL_REQUEST (HLD.6) -/

def Cmd.calKind (k : Cmd) : Nat := k.par8 40
def Cmd.calTile (k : Cmd) : Nat := k.par8 41
def Cmd.calRow (k : Cmd) : Nat := k.par16 42

/-- Bytes that a kind of CAL_REQUEST writes. -/
def calLen (kind : Nat) : Nat := if kind = 1 then 133640 else if kind = 2 then 2736 else 0

/-- CAL_REQUEST starts (R490, R491). -/
def Dev.startCal (d : Dev) (c : Nat) (k : Cmd) : Dev :=
  let kind := k.calKind
  if kind = 3 ∧ c ≠ 0 then d.finish c k stForbidden 0 0
  else if kind = 0 ∨ 3 < kind ∨ 15 < k.calTile ∨ 256 < k.calRow ∨ k.len ≠ calLen kind ∨ (kind = 3 ∧ k.dest ≠ 0) then
    d.finish c k stRange 0 0
  else if kind = 3 then
    if d.rdi R.CAL_TILE_STATE k.calTile = 0 then d.begin c k id else d.finish c k stUnavailable 0 0
  else d.hostCheck c k k.dest k.len (fun d => d.begin c k (fun x => { x with total := k.len }))

/-- CAL_REQUEST of a kind starts; a kind that HLD.6 does not name goes with `other`. -/
def calRequest (c s kind : Nat) (other : Bool) (d : Dev) : Dev :=
  match d.starting c s opCal with
  | some k =>
    if k.calKind = kind ∨ (other ∧ (k.calKind = 0 ∨ 3 < k.calKind)) then d.start c s opCal (fun k d => d.startCal c k) else d
  | none => d

def execReadCurves (client ring : Nat) (s : State) : Host.Outcome State Fault Refusal :=
  unit (decide (client ≤ 256 ∧ ring < 8)) (onDev (calRequest client ring 1 true) s)

def execReadMonitors (client ring : Nat) (s : State) : Host.Outcome State Fault Refusal :=
  unit (decide (client ≤ 256 ∧ ring < 8)) (onDev (calRequest client ring 2 false) s)

def execRecalRow (client ring : Nat) (s : State) : Host.Outcome State Fault Refusal :=
  unit (decide (client ≤ 256 ∧ ring < 8)) (onDev (calRequest client ring 3 false) s)

/-- Byte `o` of what READ_CURVES writes: curves in physical row order, then row records. -/
def Dev.curvesByte (d : Dev) (t o : Nat) : Nat :=
  if o < 131584 then u8 (leBytes 2 (nth 0 (sget [] d.cal.curves (257 * t + o / 512)) (o % 512 / 2))) (o % 2)
  else u8 (d.rowRecord t ((o - 131584) / 8)) (o % 8)

/-- What READ_MONITORS writes: reading and reference of the 66 lines of the tile's engine and of its 276 monitors. -/
def Dev.monitorBytes (d : Dev) (t : Nat) : List Nat :=
  let e := engineOf t
  let m0 := (List.range 66).map (fun j => leBytes 4 (nth 0 (nth [] d.cal.m0 e) j) ++ leBytes 4 (sget 0 d.cal.refM0 (66 * e + j)))
  let m := (List.range 276).map (fun j => leBytes 4 (nth 0 (nth [] d.cal.mon t) j) ++ leBytes 4 (sget 0 d.cal.refNum (276 * t + j)))
  (m0 ++ m).flatten

/-- One step of a CAL_REQUEST: 256 bytes written, or the row named for the next remap beat. -/
def Dev.calStep (d : Dev) (c : Nat) (k : Cmd) : Dev :=
  let d := (d.upd c k.seqNo (fun x => { x with steps := x.steps + 1 })).pinc c R.RNG_STEPS
  let d := d.setSq (fun q => { q with turn := sins q.turn (calTurn c) (d.beat, k.ring) })
  if k.calKind = 3 then
    let d := d.setCal (fun x => { x with recal := x.recal ++ [(c, k.seqNo, k.calTile, k.calRow)] })
    d.upd c k.seqNo (fun x => { x with phase := .waiting })
  else
    let n := min 256 (k.total - k.pos)
    let a := k.dest + k.pos
    if !d.reqOk c a n then (d.hostDeny c a).finish c k stForbidden 0 0
    else
      let bs := if k.calKind = 1 then (List.range n).map (fun i => d.curvesByte k.calTile (k.pos + i))
                else bytesAt (d.monitorBytes k.calTile) k.pos n
      let d := (d.hostWrite c a bs).upd c k.seqNo (fun x => { x with pos := x.pos + n })
      if k.pos + n < k.total then d else d.finishOk c k 0

/-- The next step of a CAL_REQUEST in the reserve of a slot that starts at beat `slot`: clients ascending, the rings of a
client in turn (R670). -/
def Dev.calNext (d : Dev) (slot : Nat) : Option (Nat × Cmd) :=
  ((d.clients.map (·.1)).map (fun c => (ringsAfter (sget (0, 7) d.sq.turn (calTurn c)).2 8).filterMap (fun s =>
    match d.runningCmd c s opCal with
    | some k => if (k.calKind = 3 ∨ d.busOk c) ∧ (k.steps ≠ 0 ∨ k.readyAt < slot) then some (c, k) else none
    | none => none))).flatten.head?

/-- Steps of CAL_REQUEST in what the service leaves of a reserve, four beats each (HLD.6). -/
def calSteps (slot : Nat) : Nat → Dev → Dev
  | 0, d => d
  | n + 1, d =>
    match d.calNext slot with
    | some (c, k) => calSteps slot n (d.calStep c k)
    | none => d

end Sys2Proof.Machine
end

