-- ==== Sys2Proof/Machine/Admit.lean ====
section
/-!
DEFINITION. The container of a Maquette and its admission checks 1-13 (PLN.1-PLN.5), each over every plan before the
next. A check answers the word of R377 of the first thing it finds wrong.
-/

namespace Sys2Proof.Machine

/-- The plans that sections of a Maquette name. -/
def plansOf (img : List Nat) : List Nat := (List.range 8).filter (fun p => (secTable img).any (fun s => s.plan == p))

/-- Index of the section of a type that applies to a plan, and of its SLOTS section of a variant; 0xFFFF for none. -/
def secIx (img : List Nat) (p ty : Nat) : Nat := ((secFor img p ty).map (fun s => s.idx)).getD 0xFFFF
def slotIx (img : List Nat) (p v : Nat) : Nat :=
  (((secTable img).find? (fun s => s.ty == 2 && s.plan == p && s.arg == v)).map (fun s => s.idx)).getD 0xFFFF

/-- A plan has a section of a type. -/
def hasSec (img : List Nat) (p ty : Nat) : Bool := (secFor img p ty).isSome

/-- The first failure of a check among plans: each plan answers the index of a section. -/
def overPlans (check : Nat) (ps : List Nat) (f : Nat → Option Nat) : Option Nat :=
  ps.findSome? (fun p => (f p).map (refuseWord check p))

/-- A section at fault where a condition does not hold. -/
def blame (ok : Bool) (ix : Nat) : Option Nat := if ok then none else some ix

/-- The first of several faults. -/
def firstFault (l : List (Option Nat)) : Option Nat := l.findSome? id

/-! ### Checks 1 and 2 -/

/-- An image begins with a signature header; its Maquette then follows at offset 512 (R343). -/
def maqSigned (b : List Nat) : Bool := u32 b 0 == 0x56494D47
def maqOf (b : List Nat) : List Nat := if maqSigned b then b.drop 512 else b

/-- A Maquette header is valid on a variant (R345). -/
def maqHeaderOk (v : Nat) (img : List Nat) : Bool :=
  u32 img 0 == 0x5551414D && u16 img 4 == 1 && between 1 (u16 img 6) 1024 && zerosAt img 17 7 && zerosAt img 35 25 &&
    decide (u8 img 16 < 16) && bitAt (u8 img 16) v && u32 img 60 == crc32c (bytesAt img 0 60) && u32 img 8 == img.length &&
    decide (64 + 32 * u16 img 6 ≤ img.length) && ((secTable img).map (fun s => s.off + s.len)).foldl max 0 == img.length

/-- LENGTH of a section fits its type (R346). -/
def secLenOk (s : Sec) : Bool :=
  decide (1 ≤ s.len) && (match s.ty with
    | 1 | 5 => s.len == 64
    | 2 | 3 => s.len % 32 == 0
    | 4 => s.len % 16 == 0
    | _ => true)

/-- Two sections lie apart: in the image, in the plan store half, and in the tile buffer half of any plan that may place
both (R346, R347). -/
def secsApart (a b : Sec) : Bool :=
  !overlaps a.off a.len b.off b.len &&
    !(a.dest == 0 && b.dest == 0 && overlaps a.destOff a.len b.destOff b.len) &&
    !(a.dest == 1 && b.dest == 1 && a.tile == b.tile && (a.plan == b.plan || a.plan == 0xFF || b.plan == 0xFF) &&
      overlaps a.destOff a.len b.destOff b.len)

/-- A section entry is valid, and apart from those before it (R346, R347, R349). -/
def secOk (img : List Nat) (s : Sec) : Bool :=
  between 1 s.ty 19 && s.dest == (if s.ty = 19 then 1 else 0) && (decide (s.plan < 8) || (s.plan == 0xFF && decide (5 < s.ty))) &&
    (if s.ty = 19 then decide (s.tile < 16) else s.tile == 0) && (s.ty == 2 || s.arg == 0) && s.res == 0 &&
    s.off % 64 == 0 && s.destOff % 64 == 0 && decide (64 + 32 * u16 img 6 ≤ s.off) && decide (s.off + s.len ≤ img.length) &&
    secLenOk s && s.crc == crc32c (secBytes img s) &&
    decide (s.destOff + s.len ≤ if s.dest = 0 then 0x200000 else 0x80000) &&
    ((secTable img).take s.idx).all (secsApart s)

/-- Number of sections of a type that name a plan. -/
def secCount (img : List Nat) (p ty : Nat) : Nat := countIf (fun s => s.ty == ty && s.plan == p) (secTable img)

/-- A plan has the sections that R348 asks for. -/
def planSecsOk (img : List Nat) (p : Nat) : Bool :=
  let slots := (secTable img).filter (fun s => s.ty == 2 && s.plan == p)
  let one (ty : Nat) : Bool := secCount img p ty == 1
  one 1 && one 3 && one 5 && between 1 (planVars img p) 16 && slots.length == planVars img p &&
    (List.range (planVars img p)).all (fun v => slots.any (fun s => s.arg == v)) &&
    (List.range 19).all (fun ty => decide (ty < 4) || ty == 5 || decide (secCount img p ty ≤ 1))

/-- No type but WEIGHTS is shared twice (R348, R349). -/
def sharedOk (img : List Nat) : Bool := (List.range 19).all (fun ty => decide (secCount img 0xFF ty ≤ 1))

/-- Check 1. -/
def check1 (v : Nat) (img : List Nat) : Option Nat :=
  if !maqHeaderOk v img then some (refuseWord 1 0 0xFFFF)
  else match (secTable img).find? (fun s => !secOk img s) with
    | some s => some (refuseWord 1 (if s.plan = 0xFF then 0 else s.plan) s.idx)
    | none =>
      if !sharedOk img then some (refuseWord 1 0 0xFFFF)
      else overPlans 1 (plansOf img) (fun p => blame (planSecsOk img p) (secIx img p 1))

/-- Check 2: the signature header, where there is one or the option generation asks for one (R343, R344). -/
def Dev.check2 (d : Dev) (b : List Nat) : Option Nat :=
  let h := b.take 512
  let ok := if maqSigned b then hdrType h == 4 && headerVerifies h (b.drop 512) true && ownerKeyOk d.rst.opt h
            else !bitAt (u8 d.rst.opt 9) 1
  if ok then none else some (refuseWord 2 0 0xFFFF)

/-! ### The items that slots hold -/

/-- The items of the RESIDENT slots of a variant, with their indices, in index order. -/
def planOwned (img : List Nat) (p v : Nat) : List (Nat × Item) :=
  let rs := (planSlots img p v).filter (fun s => s.kind == 1)
  let s := planSec img p 3
  ((List.range (s.length / 32)).filter (fun i =>
    rs.any (fun r => decide (r.itemFirst ≤ i) && decide (i < r.itemFirst + r.itemCount)))).map (fun i => (i, itemAt s i))

/-- The variants of a plan. -/
def varsOf (img : List Nat) (p : Nat) : List Nat := List.range (planVars img p)

/-- The items of every variant. -/
def planUsed (img : List Nat) (p : Nat) : List (Nat × Item) := ((varsOf img p).map (planOwned img p)).flatten.eraseDups

/-- What the item checks read of one variant. -/
def Dev.planChk (d : Dev) (img : List Nat) (p v : Nat) : Chk :=
  { c := { client := none, base := 0, bufs := planSec img p 18, items := planOwned img p v, t := 0 }
    q := planSec img p 17, img := img, plan := p, d := d, slots := planSlots img p v, span := 0 }

/-- An item check over every variant. -/
def Dev.itemsPass (d : Dev) (img : List Nat) (p : Nat) (f : Chk → Nat → Item → Bool) : Bool :=
  (varsOf img p).all (fun v => ((d.planChk img p v).firstBad (f (d.planChk img p v))).isNone)

/-- The FETCH and STORE items of a plan. -/
def planMoves (img : List Nat) (p : Nat) : List Item :=
  ((planUsed img p).map (fun e => e.2)).filter (fun it => it.op == 1 || it.op == 2)

/-! ### Checks 3 and 4 -/

/-- A Tier 2 channel is lacking, absent or failed (R547, R557, R559). -/
def Dev.channelBad (d : Dev) (c : Nat) : Bool :=
  decide (d.channels ≤ c) || d.isSeti R.MEM_T2_STATUS_ABSENT c || d.isSeti R.MEM_T2_STATUS_FAILED c

/-- A range of Tier 2 reaches such a channel. -/
def Dev.rangeBad (d : Dev) (a n : Nat) : Bool :=
  decide (1 ≤ n) && (List.range (channelAt (a + n - 1) + 1 - channelAt a)).any (fun i => d.channelBad (channelAt a + i))

/-- Check 3 of a plan (R20-R22, R559). -/
def Dev.check3 (d : Dev) (img : List Nat) (p : Nat) : Option Nat :=
  let die1 := decide (ioDiesOf d.variant = 2) && !d.rst.ioDie1Failed
  let aet := planSec img p 13
  firstFault [
    blame (d.rd R.MEM_T1_STATUS_FAILED == 0) 0xFFFF,
    blame (die1 || (strRecs (planSec img p 8)).all (fun r => strDie r != 1)) (secIx img p 8),
    blame (die1 || (aetPorts aet).all (fun r => u8 r 1 != 1)) (secIx img p 13),
    blame ((aetPaths aet).all (fun r => !d.channelBad (u8 r 2))) (secIx img p 13),
    blame ((planMoves img p).all (fun it => it.mSpace != 2 || !d.rangeBad it.mAddr it.mLen)) (secIx img p 3)]

/-- A plan that may hold a role: it exists and is no 15-tile form (R350). -/
def fullPlan (img : List Nat) (p : Nat) : Bool := (plansOf img).contains p && !planForm15 img p

/-- Check 4 (R39, R40, R350). -/
def check4 (img : List Nat) : Option Nat :=
  let roles := [roleOf img 0, roleOf img 1, roleOf img 2]
  let forms := (plansOf img).filter (fun p => !roles.contains p)
  let bad := roles.find? (fun r => !fullPlan img r)
  match bad with
  | some r => some (refuseWord 4 r 0xFFFF)
  | none =>
    let formOk (p : Nat) : Bool := planForm15 img p && roles.contains (planFullOf img p) &&
      forms.all (fun q => p ≤ q || planFullOf img q != planFullOf img p)
    let s := roleOf img 1
    let c := roleOf img 2
    (overPlans 4 forms (fun p => blame (formOk p) (secIx img p 1))).or
      (overPlans 4 [s] (fun p => blame (decide (budEIn (planBudget img s) * planLen img c ≤
        budEIn (planBudget img c) * planLen img s)) (secIx img p 5)))

/-! ### Checks 5 to 8 -/

/-- Rows of the FRAME_START action of a plan, and EN of its CADCFG section's CAD_FSTART. -/
def hasStartRow (img : List Nat) (p : Nat) : Bool := (pevtRows (planSec img p 6)).any (fun r => rowEn r && rowAction r == 1)
def planFstart (img : List Nat) (p : Nat) : Nat := let s := planSec img p 7; if s.length = 44 then u32 s 40 else 0x800
def planTol (img : List Nat) (p : Nat) : Nat := bits (planFstart img p) 8 8

/-- The plan record's own fields (PLN.2, R351). -/
def planRecOk (img : List Nat) (p : Nat) : Bool :=
  let r := planRec img p
  zerosAt r 11 1 && zerosAt r 20 44 && decide (planFlags img p < 4) && between 250 (planLen img p) 250000 &&
    decide (planStart img p ≤ 1) && (if planForm15 img p then decide (planFullOf img p < 8) else planFullOf img p == 0) &&
    (!planGated img p || planStart img p == 0) &&
    (if planStart img p = 1 then bitAt (planFstart img p) 0 && hasStartRow img p else !bitAt (planFstart img p) 0)

/-- A slot record by itself (R352, R353, R1018). -/
def slotOk (len nItems : Nat) (s : Slot) : Bool :=
  s.res == 0 && between 1 s.kind 5 && decide (1 ≤ s.len) && decide (s.start + s.len ≤ len) && decide (s.units < 8) &&
    (if s.kind = 2 then decide (s.client ≤ 256) else s.client == 0) &&
    (if s.kind = 1 then decide (s.itemFirst + s.itemCount ≤ nItems) else s.itemFirst == 0 && s.itemCount == 0) &&
    (match s.kind with
     | 1 => s.units &&& 6 == 0
     | 3 => s.tiles == 0 && s.vu == 0 && s.units == 0 && s.len == 24
     | 4 => s.tiles == 0 && s.vu == 0 && s.units == 4
     | _ => s.units &&& 4 == 0)

/-- Two slots may stand in one variant (R353); no item lies in both. -/
def slotsApart (a b : Slot) : Bool :=
  (!overlaps a.start a.len b.start b.len ||
    (a.kind != 3 && b.kind != 3 && a.tiles &&& b.tiles == 0 && a.vu &&& b.vu == 0 && a.units &&& b.units == 0)) &&
    !overlaps a.itemFirst a.itemCount b.itemFirst b.itemCount

/-- The slots of a variant (R352, R353, R1018). -/
def slotsOk (img : List Nat) (p v : Nat) : Bool :=
  let l := planSlots img p v
  decide (l.length ≤ 512) && l.all (slotOk (planLen img p) ((planSec img p 3).length / 32)) &&
    (l.zip (l.drop 1)).all (fun e => decide (e.1.start ≤ e.2.start)) &&
    (List.range l.length).all (fun i => (l.drop (i + 1)).all (fun b => match l[i]? with
      | some a => slotsApart a b
      | none => true))

/-- Every slot of a plan. -/
def allSlots (img : List Nat) (p : Nat) : List Slot := ((varsOf img p).map (planSlots img p)).flatten

/-- The leases of a plan (R356). -/
def leasesOk (img : List Nat) (p : Nat) : Bool :=
  let l := planLeases img p
  decide (l.length ≤ 257) && l.all (fun e => decide (e.client ≤ 256) && decide (e.pollVar < planVars img p) &&
      decide (1 ≤ e.pollEvery) && e.res == 0) &&
    decide (l.map (fun e => e.client)).Nodup && l.any (fun e => e.client == 0) &&
    (allSlots img p).all (fun s => s.kind != 2 || l.any (fun e => e.client == s.client))

/-- An item's envelope, place and tokens (R365, R366). -/
def itemOk (k : Chk) (i : Nat) (it : Item) : Bool :=
  it.res == 0 && between 1 it.op 9 && decide (1 ≤ it.dur) && k.placed i it && k.tokens i it

/-- Check 5 of a plan. -/
def Dev.check5 (d : Dev) (img : List Nat) (p : Nat) : Option Nat :=
  let all := allSlots img p
  let tg := planSec img p 12
  firstFault ([
    blame (planRecOk img p) (secIx img p 1),
    blame (decide ((planSec img p 6).length ≤ 16384)) (secIx img p 6),
    blame (decide ((planSec img p 3).length / 32 ≤ 65535)) (secIx img p 3)] ++
    (varsOf img p).map (fun v => blame (slotsOk img p v) (slotIx img p v)) ++ [
    blame (all.foldl (fun a s => a ||| s.tiles) 0 == planTiles img p && all.foldl (fun a s => a ||| s.vu) 0 == u8 (planRec img p) 10)
      (secIx img p 1),
    blame (leasesOk img p) (secIx img p 4),
    blame (d.itemsPass img p itemOk) (secIx img p 3),
    ((varsOf img p).findSome? (fun v =>
      trgFault tg (planLatDec img p) (planLen img p) ((planOwned img p v).map (fun e => e.2)))).map (secIx img p)])

/-- STARTs of the seams of a plan within its cycle. -/
def seamStarts (img : List Nat) (p : Nat) : List Nat :=
  ((varsOf img p).map (fun v => ((planSlots img p v).filter (fun s => s.kind == 3)).map (fun s => v * planLen img p + s.start))).flatten

/-- Check 6 of a plan (R363, R364). -/
def check6 (img : List Nat) (p : Nat) : Option Nat :=
  let l := seamStarts img p
  let len := max 1 (planLen img p)
  let cyc := planVars img p * len
  let tol := if planStart img p = 1 then planTol img p else 0
  let next := (l.drop 1) ++ (l.take 1).map (· + cyc)
  let far := (l.zip next).find? (fun e => decide (500000 < e.2 - e.1 + (e.2 / len - e.1 / len) * tol))
  firstFault [blame (l.head? == some 0) (slotIx img p 0), far.map (fun e => slotIx img p (e.1 / len))]

/-- Beats of the calibration reserve of a frame (R358). -/
def calReserve (len : Nat) : Nat := max 8 (cdiv len 500)

/-- Check 7 of a plan (R359). -/
def check7 (img : List Nat) (p : Nat) : Option Nat :=
  let hkp (v : Nat) : List Slot := (planSlots img p v).filter (fun s => s.kind == 4)
  let fixed (v : Nat) : Nat := calReserve (planLen img p) + 8 * countIf (fun l => l.pollVar == v) (planLeases img p) + 40
  let short := (varsOf img p).find? (fun v => match hkp v with
    | s :: _ => decide (s.len < fixed v)
    | [] => true)
  let roomy (v : Nat) : Bool := match hkp v with
    | s :: r => decide (fixed v + 1000 ≤ s.len) || r.any (fun s => decide (1000 ≤ s.len))
    | [] => false
  firstFault [short.map (slotIx img p), blame ((varsOf img p).any roomy) (slotIx img p 0)]

/-- Check 8 of a plan (R367, R368, R566). -/
def Dev.check8 (d : Dev) (img : List Nat) (p : Nat) : Option Nat := blame (d.itemsPass img p Chk.fetches) (secIx img p 3)

/-! ### Checks 9 to 12 -/

/-- Check 9 of a plan (R51, R689, R762, R792, R912). -/
def Dev.check9 (d : Dev) (img : List Nat) (p : Nat) : Option Nat :=
  let qp := planSec img p 15
  firstFault [
    blame (d.itemsPass img p (fun k i it => k.rates i it && (it.op != 8 || decideDur (planSec img p 12) it))) (secIx img p 3),
    blame (streamRates (planSec img p 8)) (secIx img p 8),
    blame (aetRates (planSec img p 13) (planLen img p)) (secIx img p 13),
    blame (qp.isEmpty || decide (qpMin qp ≤ qpBeats qp)) (secIx img p 15)]

/-- A power budget record passes R130. -/
def Dev.budgetOk (d : Dev) (b : List Nat) (len : Nat) : Bool :=
  let rs := List.range 4
  u32 b 60 == crc32c (bytesAt b 0 60) && zerosAt b 6 2 && rs.all (fun r => zerosAt b (11 + 8 * r) 1) && zerosAt b 40 20 &&
    decide (budEIn b ≤ 4 * d.rd R.PWR_CAP_CAP_W * len) && decide (budPIn b ≤ 8000) &&
    decide (10 * (rs.map (budERail b)).foldl (· + ·) 0 ≤ 9 * budEIn b) &&
    rs.all (fun r => between 1 (budActive b r) (d.inService r)) &&
    rs.all (fun r => decide (100 * budPeak b r ≤ budActive b r * legMw r))

/-- A safe plan has a margin of one leg on every rail (R131). -/
def Dev.safeMargin (d : Dev) (b : List Nat) : Bool :=
  (List.range 4).all (fun r => decide (100 * budPeak b r ≤ (d.inService r - 1) * legMw r))

/-- Check 10 over plans, and over the form `safe` of the safe plan. -/
def Dev.check10 (d : Dev) (img : List Nat) (ps : List Nat) (safe : Nat) : Option Nat :=
  (overPlans 10 ps (fun p => blame (d.budgetOk (planBudget img p) (planLen img p)) (secIx img p 5))).or
    (overPlans 10 [safe] (fun p => blame (d.safeMargin (planBudget img p)) (secIx img p 5)))

/-- The WEIGHTS sections that a form places, each with its physical tile (R349, R379). -/
def Dev.placedBy (d : Dev) (img : List Nat) (f : Nat) : List (Nat × Sec) :=
  ((secTable img).filter (fun s => s.ty == 19 && (s.plan == f || s.plan == 0xFF))).filterMap (fun s =>
    ((d.formMap img f)[s.tile]?).map (fun t => (t, s)))

/-- What the chosen forms place; a section placed twice on one tile counts once (R1017). -/
def Dev.placedAll (d : Dev) (img : List Nat) (fs : List Nat) : List (Nat × Sec) :=
  ((fs.map (d.placedBy img)).flatten).eraseDups

/-- Forms without repeats. -/
def formSet (fs : List Nat) : List Nat := fs.eraseDups

/-- Check 11: some form of each role fits, and the WEIGHTS of the chosen forms fit every physical tile (R378,
R1017). -/
def Dev.check11 (d : Dev) (img : List Nat) (fs : List Nat) : Option Nat :=
  let unfit := [0, 1, 2].find? (fun k => (d.chooseForm img (roleOf img k)).isNone)
  let pl := d.placedAll img (formSet fs)
  let clash (e : Nat × Sec) : Bool :=
    decide (0x80000 < e.2.destOff + e.2.len) ||
      pl.any (fun o => o.1 == e.1 && decide (o.2.idx < e.2.idx) && overlaps o.2.destOff o.2.len e.2.destOff e.2.len)
  match unfit with
  | some k => some (refuseWord 11 (roleOf img k) 0xFFFF)
  | none => (pl.find? clash).map (fun e => refuseWord 11 (if e.2.plan = 0xFF then nth 0 fs 0 else e.2.plan) e.2.idx)

/-- A range lies within a resident window. -/
def Dev.resIn (d : Dev) (space a n : Nat) : Bool :=
  if space = 1 then within a n (d.rd R.RES_T1_BASE) (d.rd R.RES_T1_SIZE)
  else if space = 2 then within a n (d.rd R.RES_T2_BASE) (d.rd R.RES_T2_SIZE) else true

/-- Drive outputs that a LOOP section binds, as DRV_MASK names them (LPE.6, BOT.3). -/
def drvMask (lo : List Nat) : Nat := b2n (loFlag lo 1) + 2 * b2n (loFlag lo 2) + 4 * b2n (loFlag lo 0)

/-- Every lane of a list is granted. -/
def lanesIn (l : List Nat) (mask : Nat) : Bool := l.all (fun n => bitAt mask n)

/-- Check 12 of a plan (R216, R561). -/
def Dev.check12 (d : Dev) (img : List Nat) (p : Nat) : Option Nat :=
  let tg := planSec img p 12
  let lo := planSec img p 14
  let sad := planSec img p 16
  firstFault [
    blame (lanesIn (streamLanes (planSec img p 8)) (d.rd R.RES_STREAM_LANES)) (secIx img p 8),
    blame (lanesIn (aetLanes (planSec img p 13)) (d.rd R.RES_AET_LANES)) (secIx img p 13),
    blame (tg.isEmpty || (List.range 8).all (fun l => lnMode (tgLine tg l) == 0 || bitAt (d.rd R.RES_DEC_MASK) l)) (secIx img p 12),
    blame (lo.isEmpty || inMask (drvMask lo) (d.rd R.RES_DRV_MASK)) (secIx img p 14),
    blame (sad.isEmpty || inMask (sadBound sad) (d.rd R.RES_SA_MASK)) (secIx img p 16),
    blame ((planMoves img p).all (fun it => it.mSeq || it.mAppend || d.resIn it.mSpace it.mAddr it.mLen)) (secIx img p 3)]

/-! ### Check 13 -/

/-- A section of a type is absent, or passes its test. -/
def secPass (img : List Nat) (p ty : Nat) (f : List Nat → Bool) : Option Nat :=
  match secFor img p ty with
  | some s => blame (f (secBytes img s)) s.idx
  | none => none

/-- What rows of a plan's phase event table may name: what it binds within the resident record (R319, R773, R844). -/
def Dev.planBound (d : Dev) (img : List Nat) (p : Nat) : RowBound :=
  let tg := planSec img p 12
  let sad := planSec img p 16
  { streams := streamMask (planSec img p 8)
    lines := if tg.isEmpty then 0
             else (List.range 8).foldl (fun a l => if lnMode (tgLine tg l) = 2 then a + 2 ^ l else a) 0 &&& d.rd R.RES_DEC_MASK
    sas := if sad.isEmpty then 0 else sadBound sad &&& d.rd R.RES_SA_MASK }

/-- LOOP, LOOP_PERIOD, LOOP_SAMPLE rows and QPSCHED agree (R858, R860, R903, R912). -/
def loopAgrees (img : List Nat) (p : Nat) : Bool :=
  let lo := planSec img p 14
  let qp := planSec img p 15
  let t := planLoopPeriod img p
  let rows := (pevtRows (planSec img p 6)).any (fun r => rowEn r && rowAction r == 4)
  if lo.isEmpty then t == 0 && qp.isEmpty
  else between 250 t 2500000 && loopValid lo (planSec img p 16) t && rows == !loTimer lo &&
    decide ((loMode lo = 3) = !qp.isEmpty) && (qp.isEmpty || decide (qpBeats qp ≤ t))

/-- Tier 1 regions that a plan declares: raw rings, sequence windows and send queues. -/
def planRegions (img : List Nat) (p : Nat) : List (Nat × Nat) := ringRegions (planSec img p 18) ++ aetQueues (planSec img p 13)

/-- The peer area of an AETCFG section lies within the buffer area, apart from buffers and the feature area (R791). -/
def peerOk (img : List Nat) (p : Nat) : Bool :=
  let s := planSec img p 13
  let r := (aetPeerBase s, 4096 * aetNPeer s)
  let co := planSec img p 10
  s.isEmpty || aetNPeer s == 0 || (decide (r.1 + r.2 ≤ stgSize) &&
    (bufRanges (planSec img p 18) ++ (if co.isEmpty then [] else [featArea co])).all (fun b => !overlaps b.1 b.2 r.1 r.2))

/-- The rules for AETCFG that look at other sections (R575, R791). -/
def Dev.aetFits (d : Dev) (img : List Nat) (p : Nat) : Bool :=
  let s := planSec img p 13
  let rs := aetRegions s
  s.isEmpty || (rs.all (fun r => d.resIn 2 r.1 r.2) && disjoint rs && peerOk img p &&
    (aetLanes s).all (fun l => !(streamLanes (planSec img p 8)).contains l))

/-- TRIGGER, with the flow that BUILD sends to (R759). -/
def trgFits (img : List Nat) (p : Nat) : Bool :=
  let s := planSec img p 12
  trgValid s && (!tgBuild s || (aetFlows (planSec img p 13)).any (fun r => u8 r 0 == tgDest s))

/-- Operands of one item, DECIDE and BUILD included, and FETCH ranges at the feature area (R735, R762, R780). -/
def planItemOk (img : List Nat) (p : Nat) (k : Chk) (i : Nat) (it : Item) : Bool :=
  let tg := planSec img p 12
  let co := planSec img p 10
  k.operands i it &&
    (it.op != 8 || (decideOperands tg it && k.holds it.inA (4 * tgNVec tg * tgNScore tg) && k.holds it.out 64)) &&
    (it.op != 9 || buildOperands it) &&
    (it.op != 1 || it.mSpace != 0 || co.isEmpty || !overlaps it.mAddr it.mLen (coBase co) (2 * coZ co) ||
      within it.mAddr it.mLen (coBase co) (coZ co))

/-- The span of a cycle in which an item of a variant runs, its tile and its WEIGHTS section. -/
def spanUses (img : List Nat) (p : Nat) : List ((Nat × Nat) × Nat) :=
  let seams := seamStarts img p
  ((varsOf img p).map (fun v => ((planOwned img p v).filter (fun e => e.2.op == 3)).map (fun e =>
    ((countIf (fun a => decide (a ≤ v * planLen img p + e.2.start)) seams, e.2.unit), e.2.tSec)))).flatten

/-- One WEIGHTS section for each tile in each span (R427). -/
def spansOk (img : List Nat) (p : Nat) : Bool := decide ((spanUses img p).eraseDups.map (fun e => e.1)).Nodup

/-- Check 13 of a plan. -/
def Dev.check13 (d : Dev) (img : List Nat) (p : Nat) : Option Nat :=
  let bufs := planSec img p 18
  let forms := planSec img p 9
  let ws := (secTable img).filter (fun s => s.ty == 19 && (s.plan == p || s.plan == 0xFF))
  firstFault ([
    secPass img p 7 cadcfgValid,
    secPass img p 9 formatsValid,
    secPass img p 18 (fun s => buffersValid s && (planRegions img p).all (fun r => d.resIn 1 r.1 r.2) && disjoint (planRegions img p)),
    secPass img p 8 (fun s => streamsValid s forms bufs),
    secPass img p 10 (fun s => coincValid s bufs (planLen img p)),
    secPass img p 11 rulesValid,
    secPass img p 12 (fun _ => trgFits img p),
    secPass img p 13 (fun s => aetValid s && d.aetFits img p && (aetQueues s).all (fun r => d.resIn 1 r.1 r.2) && disjoint (aetQueues s)),
    secPass img p 16 sadValid,
    blame (loopAgrees img p) (if hasSec img p 14 then secIx img p 14 else secIx img p 1),
    secPass img p 15 (qpValid false),
    secPass img p 17 quantValid] ++
    ws.map (fun s => blame (weightsValid (secBytes img s)) s.idx) ++ [
    blame (d.itemsPass img p (planItemOk img p)) (secIx img p 3),
    blame (spansOk img p) (secIx img p 3),
    secPass img p 6 (pevtValid (d.planBound img p))])

/-! ### Admission -/

/-- The forms chosen at staging for main, safe and cool, the role's own plan where none fits (R379). -/
def Dev.formsOf (d : Dev) (img : List Nat) : List Nat :=
  [0, 1, 2].map (fun k => (d.chooseForm img (roleOf img k)).getD (roleOf img k))

/-- PLAN_STAGE admission: the word of the first check that fails (R375). The image is as it was read, with its signature
header where it has one. -/
def Dev.admitStage (d : Dev) (b : List Nat) : Option Nat :=
  let img := maqOf b
  match check1 d.variant img with
  | some w => some w
  | none => match d.check2 b with
    | some w => some w
    | none =>
      let ps := plansOf img
      let fs := d.formsOf img
      firstFault [overPlans 3 ps (d.check3 img), check4 img, overPlans 5 ps (d.check5 img), overPlans 6 ps (check6 img),
        overPlans 7 ps (check7 img), overPlans 8 ps (d.check8 img), overPlans 9 ps (d.check9 img),
        d.check10 img ps (nth 0 fs 1), d.check11 img fs, overPlans 12 ps (d.check12 img), overPlans 13 ps (d.check13 img)]

/-- PLAN_ARM admission of a Maquette with the forms chosen at its staging (R376, R380); an absent one fails check 14. -/
def Dev.admitArm (d : Dev) (img fs : List Nat) : Option Nat :=
  if img.isEmpty || fs.isEmpty then some (refuseWord 14 0 0xFFFF)
  else
    let ps := formSet fs
    firstFault [overPlans 3 ps (d.check3 img), d.check10 img ps (nth 0 fs 1), d.check11 img fs,
      overPlans 12 ps (d.check12 img), overPlans 14 ps (fun p => blame (d.formFits img p) 0xFFFF)]

/-- Status of a refusal by its check (PLN.5). -/
def refuseStatus (w : Nat) : Nat :=
  match w % 256 with
  | 2 | 12 => stForbidden
  | 3 | 9 | 10 => stRange
  | 11 | 14 => stUnavailable
  | _ => stMalformed

/-- Steps that the admission of an image takes: one for each section, and one for each 256 KiB of a larger one (PLN.7). -/
def Dev.admitSteps (d : Dev) (img : List Nat) : Nat :=
  if maqHeaderOk d.variant img then ((secTable img).map (fun s => max 1 (cdiv s.len 262144))).foldl (· + ·) 0 else 1

end Sys2Proof.Machine
end

