-- ==== Sys2Proof/Machine/Stage.lean ====
section
/-!
DEFINITION. PLAN_STAGE and PLAN_ARM (PLN.5, PLN.6): staging a Maquette into the standby halves, its admission, and
arming a plan.
-/

namespace Sys2Proof.Machine

/-- HOUSEKEEPING slots, where these commands take their steps (PLN.7). -/
def hkpNeed : Need := { units := 4 }

/-- The image lies as R342 asks. -/
def Cmd.imageOk (k : Cmd) : Bool := k.src % 4096 == 0 && between 1 k.len 11534336

/-- A refusal is reported in SEQ_REFUSE and as a class PLAN event (R377). -/
def Dev.noteRefusal (d : Dev) (w : Nat) : Dev := (d.wr R.SEQ_REFUSE w).evt 1

/-- PLAN_STAGE starts: the standby halves are emptied (R382, R383). An image that R342 does not allow is not read. -/
def Dev.startStage (d : Dev) (k : Cmd) : Dev :=
  if d.sq.arm.any (fun a => a.target == 0) then d.finish 0 k stUnavailable 0 0
  else d.hostCheck 0 k k.src k.len (fun d =>
    let d := d.dropStandby.setSq (fun s => { s with staging := some { ring := k.ring, seqNo := k.seqNo } })
    (d.wr R.SEQ_STATUS_STAGING 1).begin 0 k (fun x => { x with total := if k.imageOk then k.len else 0 }))

/-- PLAN_STAGE: one at a time (R382). -/
def planStage (s : Nat) (d : Dev) : Dev :=
  if d.sq.staging.isSome then d else d.start 0 s opStage (fun k d => d.startStage k)

def execPlanStage (ring : Nat) (s : State) : Host.Outcome State Fault Refusal :=
  unit (decide (ring < 8)) (onDev (planStage ring) s)

/-- A step copies up to 64 KiB of the image; `bytes` are those that came back within it, when none are outstanding. -/
def Dev.copyStep (d : Dev) (k : Cmd) (bytes : List Nat) : Dev :=
  let n := min 65536 (k.total - k.pos)
  if !d.busOk 0 then d
  else if !d.reqOk 0 (k.src + k.pos) n then ((d.hostDeny 0 (k.src + k.pos)).finish 0 k stForbidden 0 0).dropStandby
  else d.takeStep 0 k hkpNeed 1000 (fun d =>
    let b := if k.awaiting = 0 then bytes.take n else []
    let d := d.upd 0 k.seqNo (fun x => { x with pos := x.pos + n, awaiting := x.awaiting + (n - b.length), data := x.data ++ b })
    d.hostRead 0 (k.src + k.pos) n)

/-- The tile buffers' standby halves with what the chosen forms place (R379). -/
def Dev.placeWeights (d : Dev) (img fs : List Nat) : Dev :=
  let m := (d.placedAll img (formSet fs)).foldl (fun m e => mputs 0 m (0x80000 * e.1 + e.2.destOff) (secBytes img e.2)) []
  { d with mem := { d.mem with tileSby := m } }

/-- Admission of a staged image ends (R375, R377, R379). -/
def Dev.stageDone (d : Dev) (k : Cmd) : Dev :=
  match (if k.imageOk then d.admitStage k.data else some (refuseWord 1 0 0xFFFF)) with
  | some w => ((d.noteRefusal w).finish 0 k (refuseStatus w) 0 w).dropStandby
  | none =>
    let img := maqOf k.data
    let fs := d.formsOf img
    let d := (d.placeWeights img fs).setSq (fun s => { s with standby := img, sbyForms := fs, staging := none })
    ((d.wr R.SEQ_STATUS_STANDBY 1).wr R.SEQ_STATUS_STAGING 0).finish 0 k stOk 0 0

/-- An admission step; the last one decides. -/
def Dev.checkStep (d : Dev) (k : Cmd) (st : Staging) : Dev :=
  d.takeStep 0 k hkpNeed 1000 (fun d =>
    let d := d.setSq (fun s => { s with staging := some { st with checks := st.checks + 1 } })
    if st.checks + 1 < d.admitSteps (maqOf k.data) then d else d.stageDone k)

/-- One step of a PLAN_STAGE. -/
def planStageStep (s : Nat) (bytes : List Nat) (d : Dev) : Dev :=
  match d.runningCmd 0 s opStage, d.sq.staging with
  | some k, some st =>
    if st.seqNo ≠ k.seqNo then d
    else if k.pos < k.total then d.copyStep k bytes
    else if k.awaiting ≠ 0 then d else d.checkStep k st
  | _, _ => d

/-! ### PLAN_ARM -/

/-- The Maquette of an arm, its chosen forms and its main plan. -/
def Dev.armImg (d : Dev) (target : Nat) : List Nat := if target = 0 then d.sq.standby else d.sq.active
def Dev.armForms (d : Dev) (target : Nat) : List Nat := if target = 0 then d.sq.sbyForms else d.sq.actForms
def Dev.armPlan (d : Dev) (target : Nat) : Nat := nth 0 (d.armForms target) 0

/-- WAIT of an arm. -/
def Dev.setArmWait (d : Dev) (w : Nat) : Dev :=
  (d.setSq (fun s => { s with arm := s.arm.map (fun a => { a with wait := w }) })).wr R.SEQ_PLAN_ARM_WAIT w

/-- PLAN_ARM starts: it replaces a pending one (R384, R385). It takes one to four admission steps, how many is open. -/
def Dev.startArm (d : Dev) (k : Cmd) : Dev :=
  let t := k.par8 40
  if 1 < t then d.finish 0 k stRange 0 0
  else
    let d := d.armFail stAborted causeReplaced
    let (n, d) := d.freeVal 2
    let d := d.setSq (fun s => { s with arm := some { ring := k.ring, seqNo := k.seqNo, steps := n % 4 + 1, target := t, wait := 0 } })
    let d := ((d.wr R.SEQ_PLAN_ARM_PENDING 1).wr R.SEQ_PLAN_ARM_TARGET t).wr R.SEQ_PLAN_ARM_WAIT 0
    d.begin 0 k id

/-- The target is the plan that runs already (R386). -/
def Dev.armRuns (d : Dev) (a : Arm) : Bool := a.target == 1 && d.planActive && d.sq.plan == d.armPlan 1

/-- Admission of an arm ends: it is refused, or pending until its boundary (R376, R386, R387). -/
def Dev.armDecide (d : Dev) (k : Cmd) (a : Arm) : Dev :=
  let img := d.armImg a.target
  match d.admitArm img (d.armForms a.target) with
  | some w => ((d.noteRefusal w).finish 0 k (refuseStatus w) 0 w).dropArm
  | none =>
    if d.armRuns a then (d.finish 0 k stOk (d.rd R.SEQ_FRAME % 2 ^ 32) 0).dropArm
    else
      let p := d.armPlan a.target
      let w := if planStart img p = 1 then 3 else if planGated img p then 2 else 1
      (d.setArmWait w).upd 0 k.seqNo (fun x => { x with phase := .waiting })

/-- One admission step of the arm that runs. -/
def Dev.armStep (d : Dev) (k : Cmd) (a : Arm) : Dev :=
  d.takeStep 0 k hkpNeed 1000 (fun d =>
    if 1 < a.steps then d.setSq (fun s => { s with arm := some { a with steps := a.steps - 1 } }) else d.armDecide k a)

/-- The next admission step of a PLAN_ARM. -/
def planArmStep (s : Nat) (d : Dev) : Dev :=
  match d.runningCmd 0 s opArm, d.sq.arm with
  | some k, some a => if a.seqNo = k.seqNo then d.armStep k a else d
  | _, _ => d

end Sys2Proof.Machine
end

