-- ==== Sys2Proof/Machine/Seam.lean ====
section
/-!
DEFINITION. Seams (PLN.3): the drain with its section loads, tile steps of clients (R938) and leg changes (R106, R120),
the weight swap, and the remap beat (R486).
-/

namespace Sys2Proof.Machine

/-! ### Legs (R105-R107, R120) -/

/-- Do something to `n` elements of a list; which ones is open. -/
def eachPick (f : Dev → Nat → Dev) : Nat → List Nat → Dev → Dev
  | 0, _, d => d
  | n + 1, l, d =>
    if l.isEmpty then d
    else
      let x := nth 0 l ((d.freeVal 8).1 % l.length)
      eachPick f n (l.filter (· ≠ x)) (f (d.freeVal 8).2 x)

/-- In-service legs of a rail that switch, and those that are parked. -/
def Dev.activeLegs (d : Dev) (r : Nat) : List Nat :=
  (railLegs r).filter (fun l => !d.isSeti R.PWR_LEG_LATCH l && !d.isSeti R.PWR_LEG_PARK l)
def Dev.parkedLegs (d : Dev) (r : Nat) : List Nat := (railLegs r).filter (d.isSeti R.PWR_LEG_PARK)

/-- Active legs that the running plan gives a rail (R105). -/
def Dev.planLegs (d : Dev) (r : Nat) : Nat := budActive (planBudget d.sq.active d.sq.plan) r

/-- Legs that a plan needs and that are parked rise at the first beat of its switch seam (R106). -/
def Dev.raiseLegs (d : Dev) : Dev :=
  (List.range 4).foldl (fun a r =>
    eachPick (fun b l => b.wri R.PWR_LEG_PARK l 0) (a.planLegs r - (a.activeLegs r).length) (a.parkedLegs r) a) d

/-- Legs above what the plan needs are parked at the last beat of its switch seam (R106). -/
def Dev.parkLegs (d : Dev) : Dev :=
  (List.range 4).foldl (fun a r =>
    eachPick (fun b l => b.wri R.PWR_LEG_PARK l 1) ((a.activeLegs r).length - a.planLegs r) (a.activeLegs r) a) d

/-- Released legs return at the first beat of a seam: active where no plan has taken effect since the last reach
(R107) or the running plan needs them, else parked (R120). -/
def Dev.returnLegs (d : Dev) : Dev :=
  let ls := d.pw.returning
  let d := { d with pw := { d.pw with returning := [] } }
  let needed (a : Dev) (l : Nat) : Bool :=
    a.rd R.SEQ_STATUS_STATE == 0 || (a.planActive && decide ((a.activeLegs (railOf l)).length < a.planLegs (railOf l)))
  (ls.foldl (fun a l => a.releaseLeg l (!needed a l)) d).syncPower

/-! ### The remap beat -/

/-- A RECAL_ROW jump (HLD.6, R491). -/
def Dev.recalJump (d : Dev) (e : Nat × Nat × Nat × Nat) : Dev :=
  match d.cmd? e.1 e.2.1 with
  | some k =>
    if d.rdi R.CAL_TILE_STATE e.2.2.1 = 0 then (d.goOut e.2.2.1 e.2.2.2).finishOk e.1 k 0
    else d.finish e.1 k stUnavailable 0 0
  | none => d

/-- What the remap beat of a seam does, in the order of R486; modulator takeovers wait for READY (R489). -/
def Dev.remap (d : Dev) (seam : Nat) : Dev :=
  let d := (d.cal.repls.filter (fun r => !r.modulator)).foldl (fun a r => a.seamA seam r) d
  let d := if d.isSet R.GLB_START_READY then (d.cal.repls.filter (·.modulator)).foldl (fun a r => a.seamA seam r) d else d
  let js := (List.range 16).filter (d.jumps seam)
  let d := js.foldl Dev.spareJump d
  let d := ((List.range 16).filter (fun t => !js.contains t)).foldl Dev.rotate d
  let es := d.cal.recal
  es.foldl Dev.recalJump (d.setCal (fun c => { c with recal := [] }))

/-- The remap beat: beat 21 of a seam (R362, R407). -/
def remapBeat (d : Dev) : Dev :=
  match d.sq.seamAt with
  | some b => if d.works 1 && d.beat == b + 21 then d.remap b else d
  | none => d

def execRemapBeat (s : State) : Host.Outcome State Fault Refusal := onDev remapBeat s

/-! ### Section loads -/

/-- Physical tile of a logical tile of the running form. -/
def Dev.phys (d : Dev) (l : Nat) : Nat := nth l d.sq.tileMap l

/-- Content of a WEIGHTS section in the active half of a tile's buffer. -/
def Dev.bufSec (d : Dev) (t i : Nat) : List Nat :=
  let s := secAt d.sq.active i
  mgets 0 d.mem.tileAct (0x80000 * t + s.destOff) s.len

/-- Drive codes of a tile for a section's content through a row mapping (R360, R423); the codes of the row out of service
stay. -/
def Dev.codesFor (d : Dev) (t x : Nat) (w : List Nat) : List Nat :=
  ((List.range 257).map (fun p =>
    if p = x then bytesAt (nth [] d.opt.drive t) (64 * p) 64
    else (List.range 64).map (fun c => d.driveCode t p (weightAt w (logicalRow x p) c)))).flatten

/-- Fill a tile's shadow registers with content, of section `sec - 1`; `x` is the row out of service after the remap. -/
def Dev.fillShadow (d : Dev) (t x : Nat) (w : List Nat) (sec : Nat) : Dev :=
  let codes := if w.isEmpty then [] else d.codesFor t x w
  { d with opt := { d.opt with shadow := d.opt.shadow.set t (some w), shDrive := d.opt.shDrive.set t codes,
                               shSec := d.opt.shSec.set t sec } }

/-- The CLIENT slots, or the others, of the span that a seam at a position of the cycle opens, in order. -/
def Dev.spanSlots (d : Dev) (pos : Nat) (client : Bool) : List Slot :=
  let img := d.sq.active
  let p := d.sq.plan
  let next := ((seamStarts img p).find? (fun a => decide (pos < a))).getD (planVars img p * planLen img p)
  ((varsOf img p).map (fun v => ((planSlots img p v).filter (fun k =>
    decide (pos < v * planLen img p + k.start ∧ v * planLen img p + k.start < next) && (k.kind == 2) == client)))).flatten

/-- Sections that the TILE items of a span name, by logical tile (R428). -/
def Dev.spanNames (d : Dev) (pos : Nat) : List (Nat × Nat) :=
  let n := countIf (fun a => decide (a ≤ pos)) (seamStarts d.sq.active d.sq.plan)
  (((spanUses d.sq.active d.sq.plan).filter (fun e => e.1.1 == n)).map (fun e => (e.1.2, e.2))).eraseDups

/-- Tile steps given to clients so far: sections that tiles take for them, and the commands. -/
structure Assign where
  loads : List (Nat × Nat)
  cmds : List (Nat × Nat)

/-- Assign a client command's run to a slot where its tiles hold, or can be loaded with, its sections; `owned` are the
logical tiles that other than CLIENT slots hold in the span (R938). -/
def Dev.assignCmd (d : Dev) (owned : Nat) (named : List (Nat × Nat)) (k : Slot) (a : Assign) (c : Cmd) : Assign :=
  match c.runImage with
  | some b =>
    let ts := csTiles b
    let need := if c.op = opTrain then c.runNeed else csNeed b
    let free (t : Nat) : Bool := !bitAt owned t && !a.loads.any (fun e => e.1 == t)
    let holds (e : Nat × Nat) : Bool :=
      match (named ++ a.loads).find? (fun x => x.1 == e.1) with
      | some x => x.2 == e.2
      | none => nth 0 d.opt.actSec (d.phys e.1) == e.2 + 1
    if ts.isEmpty || a.cmds.contains (k.client, c.seqNo) || !k.holds need || k.len < csSpan b ||
        !ts.all (fun e => free e.1 || holds e) then a
    else { loads := a.loads ++ ts.filter (fun e => free e.1), cmds := a.cmds ++ [(k.client, c.seqNo)] }
  | none => a

/-- The client tile steps of the span that a seam opens (R938). -/
def Dev.assignSpan (d : Dev) (pos : Nat) : Assign :=
  let owned := (d.spanSlots pos false).foldl (fun a k => a ||| k.tiles) 0
  let named := d.spanNames pos
  (d.spanSlots pos true).foldl (fun a k =>
    ((List.range 8).filterMap (fun s => (d.runningCmd k.client s opSection).or (d.runningCmd k.client s opTrain))).foldl
      (d.assignCmd owned named k) a) { loads := [], cmds := [] }

/-- The sections that physical tiles take at a seam at a position of the cycle, and the client commands that get tiles. -/
def Dev.seamLoads (d : Dev) (pos : Nat) : List (Nat × Nat) × List (Nat × Nat) :=
  if d.planActive then
    let a := d.assignSpan pos
    ((d.spanNames pos ++ a.loads).map (fun e => (d.phys e.1, e.2)), a.cmds)
  else ([], [])

/-- Load one tile in the drain: the section it takes (R360, R428), else its own again where its mapping changes (R361) or
its content has been committed anew (R952). The second part says whether its buffer was read. -/
def Dev.loadTile (d : Dev) (after : Dev) (loads : List (Nat × Nat)) (t : Nat) : Dev × Bool :=
  let x := after.oosRow t
  let held := nth 0 d.opt.actSec t
  let act := nth [] d.opt.act t
  match loads.find? (fun e => e.1 == t) with
  | some (_, i) => (d.fillShadow t x (d.bufSec t i) (i + 1), true)
  | none =>
    if act.isEmpty then (d, false)
    else if held ≠ 0 ∧ (d.bufSec t (held - 1) ≠ act ∨ x ≠ d.oosRow t) then (d.fillShadow t x (d.bufSec t (held - 1)) held, true)
    else if x ≠ d.oosRow t then (d.fillShadow t x act held, false)
    else (d, false)

/-- A tile buffer read of the drain had an uncorrectable error (R972, R1013): what the tile gets is undefined, and its
results are invalid until the next seam. -/
def Dev.spoilTile (d : Dev) (t : Nat) : Dev :=
  let d := d.fillShadow t (d.oosRow t) [] (nth 0 d.opt.shSec t)
  ({ d with opt := { d.opt with spoiled := d.opt.spoiled ++ [t] } }).rasEvent 5 0x08 noClient t

/-- The drain fills the shadow registers (R360, R361). -/
def Dev.drainTiles (d : Dev) (seam pos bad : Nat) : Dev :=
  let after := { d with beat := seam + 21 }.remap seam
  let (loads, cmds) := d.seamLoads pos
  let d := (d.setSq (fun s => { s with assigned := cmds }))
  let d := { d with opt := { d.opt with spoiled := [] } }
  (List.range 16).foldl (fun a t =>
    let (b, rd) := a.loadTile after loads t
    if rd && bitAt bad t then b.spoilTile t else b) d

/-- The seam slot whose first beat this is. -/
def Dev.seamNow (d : Dev) : Option Slot :=
  if d.works 1 && d.sq.frameAt.isSome && !d.cutOver then d.slotsNow.find? (fun k => k.kind == 3 && k.start == d.frameBeat)
  else none

/-- A seam begins and drains (R360): legs return (R120), a pending move to the safe plan or to HALTED cuts the frame
(R42, R394, R395), replacements take effect (R473), and the shadow registers fill. -/
def seamDrain (bad : Nat) (d : Dev) : Dev :=
  match d.seamNow with
  | some k =>
    if d.sq.seamAt = some d.beat then d
    else
      let d := (d.setSq (fun s => { s with seamAt := some d.beat })).returnLegs
      let d := if d.safeRuns ∧ d.sq.planAt = d.beat then d.safeCompare else d
      if !d.running then d
      else
        let cut := d.planActive && (d.isSet R.SEQ_STATUS_SAFE_PENDING || d.sq.halting)
        let d := d.setSq (fun s => { s with moving := s.moving || cut })
        d.seamBs.drainTiles d.beat (d.variantNow * d.frameLen + k.start) bad
  | none => d

def execSeamDrain (bad : Nat) (s : State) : Host.Outcome State Fault Refusal := onDev (seamDrain bad) s

/-- Copy one tile's shadow registers into its active registers. -/
def Dev.swapTile (d : Dev) (t : Nat) : Dev :=
  match nth none d.opt.shadow t with
  | some w => { d with opt := { d.opt with
      act := d.opt.act.set t w, drive := d.opt.drive.set t (nth [] d.opt.shDrive t)
      actSec := d.opt.actSec.set t (nth 0 d.opt.shSec t), shadow := d.opt.shadow.set t none } }
  | none => d

/-- The weight-swap beats of a seam (R32, R421). -/
def weightSwap (d : Dev) : Dev :=
  match d.sq.seamAt with
  | some b => if d.works 1 && decide (b + 16 ≤ d.beat ∧ d.beat ≤ b + 20) then (List.range 16).foldl Dev.swapTile d else d
  | none => d

def execWeightSwap (s : State) : Host.Outcome State Fault Refusal := onDev weightSwap s

/-- One beat passes; at the last beat of a plan's switch seam its legs fall (R106). -/
def phaseBeat (d : Dev) : Dev :=
  let d := d.tick
  if d.planActive && d.beat == d.sq.planAt + 23 then d.parkLegs else d

def execPhaseBeat (s : State) : Host.Outcome State Fault Refusal := onDev phaseBeat s

end Sys2Proof.Machine
end

