-- ==== Sys2Proof/Machine/Frame.lean ====
section
/-!
DEFINITION. Frames and plan changes: how a frame begins and ends (PLN.2, PLN.4, CAD.5), plans taking effect, forced moves
and HALTED (ARC.6, PLN.6), the housekeeping schedule (R358), and errors of the plan store and of core memory (R971, R973).
-/

namespace Sys2Proof.Machine

/-! ### What a plan change does to commands (R392, R393, R924, R955) -/

/-- A plan change ends a command: a client section checked against the old plan, a TRAIN_STEP, or any command of a client
that the new timeline does not lease. -/
def Cmd.planCut (leased : Bool) (k : Cmd) : Bool :=
  (k.op == opSection && k.phase == .running && decide (1 ≤ k.stage)) || (k.op == opTrain && k.phase == .running) ||
    (!leased && k.phase ≠ .issued && k.phase ≠ .done)

/-- The commands that a plan change ends; `leased` are the clients that go on. -/
def Dev.cutCommands (d : Dev) (leased : List Nat) : Dev :=
  (d.clients.map (·.1)).foldl (fun a c => a.abortAll c causePlan (Cmd.planCut (leased.contains c))) d

/-- Held table rows of the old plan are dropped (R392). -/
def Dev.cutTables (d : Dev) : Dev :=
  d.sq.changes.foldl (fun a x =>
    match a.cmd? x.client x.seqNo with
    | some k => a.abortCmd x.client k causePlan
    | none => a) d

/-- A plan with an MPC loop takes the solver: the command that holds it is aborted, those that wait end (R924). -/
def Dev.cutSolves (d : Dev) : Dev :=
  let owner := d.qps.run.bind (·.owner)
  let waits (c : Nat) (k : Cmd) : Bool := k.op == opQp && k.phase == .running && owner ≠ some (c, k.seqNo)
  let d := d.clients.foldl (fun a e => (e.2.cmds.filter (waits e.1)).foldl (fun b k => b.finish e.1 k stUnavailable 0 0) a) d
  match owner with
  | some (c, n) => match d.cmd? c n with
    | some k => d.abortCmd c k causePlan
    | none => d
  | none => d

/-! ### A plan takes effect (R388-R391) -/

/-- Registers that a CADCFG section loads: field, word and lowest bit (R1005). -/
def cadCfg : List (Fld × Nat × Nat) :=
  [(R.CAD_CTL_SRC, 0, 0), (R.CAD_CTL_ENC_INV, 0, 2), (R.CAD_CTL_SYNC_EDGE, 0, 4), (R.CAD_FILT, 2, 0), (R.CAD_STALL_TO, 3, 0),
   (R.CAD_ENC_N, 4, 0), (R.CAD_ENC_CFG_MAXRATE, 5, 0), (R.CAD_ENC_CFG_DIR_HYST, 5, 8), (R.CAD_ENC_CFG_IDX_WIN, 5, 16),
   (R.CAD_TF_CFG_LAT_NS, 6, 0), (R.CAD_TF_CFG_TO_US, 6, 16), (R.CAD_TF_CFG_JUMP, 6, 28), (R.CAD_PULSE_PMIN, 7, 0),
   (R.CAD_PULSE_PMAX, 8, 0), (R.CAD_TMR_PERIOD, 9, 0), (R.CAD_FSTART_EN, 10, 0), (R.CAD_FSTART_TOL, 10, 8)]

/-- The Cadence unit takes the CADCFG and PEVT sections of the plan (R308, R317, R1004, R1005, R1016). Frame starts of the
old plan are forgotten. -/
def Dev.cadPlan (d : Dev) (cfg pevt : List Nat) : Dev :=
  let old := (d.rd R.CAD_ENC_N, d.rd R.CAD_TMR_PERIOD)
  let d := cadCfg.foldl (fun a e => a.wr e.1 (if cfg.isEmpty then e.1.rst else bits (u32 cfg (4 * e.2.1)) e.2.2 e.1.w)) d
  let rows := (pevtRows pevt).zipIdx.foldl (fun t e => if zerosAt e.1 0 16 then t else sins t e.2 e.1) []
  let d := d.setCad (fun c => { c with
    table := rows, due := none, targetGate := none, armGate := false
    fired := c.fired.filter (fun e => rowAction e.bytes ≠ 1) })
  let d := d.flag R.CAD_STATUS_HELD false
  let d := if (d.rd R.CAD_ENC_N, d.rd R.CAD_TMR_PERIOD) = old then d else d.cadRescale
  d.changeSource

/-- Raw rings of a new BUFFERS section that keep their write position, and windows that keep their head (R576). -/
def keptRings (old new : List Nat) : List Nat :=
  (List.range (ringN new)).filter (fun i => decide (i < ringN old) && bitAt (u8 (ringRec new i) 17) 0 &&
    bytesAt (ringRec old i) 0 17 == bytesAt (ringRec new i) 0 17)
def keptSeqs (old new : List Nat) : List Nat :=
  (List.range (seqN new)).filter (fun i => decide (i < seqN old) && bitAt (u8 (seqRec new i) 14) 0 &&
    bytesAt (seqRec old i) 0 14 == bytesAt (seqRec new i) 0 14)

/-- The other rings and windows of the new plan start at 0 (R576). -/
def Dev.freshRings (d : Dev) (new : List Nat) (rings seqs : List Nat) : Dev :=
  let d := (List.range (ringN new)).foldl (fun a i => if rings.contains i then a else a.wri R.MEM_RAW_WP i 0) d
  (List.range (seqN new)).foldl (fun a i => if seqs.contains i then a else a.wri R.MEM_SEQ_H i 0) d

/-- The standby halves become the active ones (R388). The tiles hold sections of a Maquette that is gone. -/
def Dev.switchHalves (d : Dev) : Dev :=
  let m := d.mem.tileSby
  let d := d.setSq (fun s => { s with active := s.standby, actForms := s.sbyForms })
  let d := d.dropStandby
  { d with mem := { d.mem with tileAct := m }, opt := { d.opt with actSec := List.replicate 16 0 } }

/-- What no longer waits once a plan takes effect or HALTED is entered. -/
def Dev.movesDone (d : Dev) : Dev :=
  (d.setSq (fun s => { s with moving := false, halting := false, coolPending := false, haltPending := false,
                              shortfallMove := false, seamAt := none, assigned := [] })).wr R.SEQ_STATUS_SAFE_PENDING 0

/-- The plan of a role of the active Maquette runs: registers and hidden state of the sequencer. -/
def Dev.runPlan (d : Dev) (role : Nat) : Dev :=
  let img := d.sq.active
  let p := d.formOf role
  let now := d.beat
  let map := d.formMap img p
  let d := d.setSq (fun s => { s with plan := p, tileMap := map, frameNo := 0, planAt := now })
  let d := ((d.wr R.SEQ_STATUS_STATE (role + 1)).wr R.SEQ_STATUS_ACTIVE 1).flag R.SEQ_STATUS_FORM15 (planForm15 img p)
  ((d.wr R.SEQ_PLAN_ID (u32 img 12)).wr R.SEQ_LAT (planLatDec img p)).wr R.GLB_START_STARTUP_TL 0

/-- A plan of role 0 main, 1 safe or 2 cool takes effect (R389): of the standby Maquette for target 0, else of the active
one. Blocks compare with the plan that ran last; the loop with the plan that runs (R899, R900). -/
def Dev.take (d : Dev) (target role : Nat) : Dev :=
  let loop := if d.planActive then some (d.lastSec 14, planLoopPeriod d.sq.active d.sq.plan) else none
  let (bufs, streams, coinc, aet, qp) := (d.lastSec 18, d.lastSec 8, d.lastSec 10, d.lastSec 13, d.lastSec 15)
  let img := d.armImg target
  let p := nth 0 (d.armForms target) role
  let d := d.endWindows.cutTables.cutCommands (0 :: (planLeases img p).map (·.client))
  let d := if loMode (planSec img p 14) = 3 ∧ planLoopPeriod img p ≠ 0 then d.cutSolves else d
  let d := (if target = 0 then d.switchHalves else d).movesDone.runPlan role
  let new := d.sec 18
  let (rings, seqs) := (keptRings bufs new, keptSeqs bufs new)
  let d := d.freshRings new rings seqs
  let d := d.cadPlan (d.sec 7) (d.sec 6)
  let d := d.streamsPlan streams (d.sec 8) (d.sec 9) ((List.range (ringN new)).filter (fun i => !rings.contains i))
  let d := (d.lauPlan coinc (d.sec 10) (d.sec 11)).aetPlan aet (d.sec 13)
  let same := d.rd R.LPE_STATUS_STATE ≠ 0 && loop == some (d.sec 14, planLoopPeriod d.sq.active d.sq.plan) && qp == d.sec 15
  let d := (((d.trgPlan rings).sadPlan.loopPlan loop).solvePlan same).loopTimingStart
  d.raiseLegs.syncPower.evt 1

/-! ### Frames -/

/-- A frame begins. `switch` says that a plan takes effect with it; otherwise held rows come into force and, with no plan
active, a new phase source (R308, R318). -/
def Dev.beginFrame (d : Dev) (switch unanch : Bool) : Dev :=
  let on := d.planActive
  let n := d.sq.frameNo
  let now := d.beat
  let d := d.wr R.SEQ_FRAME (d.rd R.SEQ_FRAME + 1)
  let d := d.wr R.SEQ_STATUS_VARIANT (if on then n % max 1 (planVars d.sq.active d.sq.plan) else 0)
  let d := d.setSq (fun s => { s with
    frameNo := if on then n + 1 else s.frameNo, frameAt := some now, seamAt := none
    status := 2 * b2n unanch + 8 * b2n (on && n == 0), tokens := [], slots := [], scales := [], inflight := []
    doneItems := [], used := [], hkpDone := false, commits := [] })
  let d := (d.setCad (fun c => { c with due := none })).flag R.CAD_STATUS_HELD d.cad.targetGate.isSome
  let d := if switch then d else d.takeRows
  let d := if !on && d.cad.srcPending then d.changeSource else d
  let d := d.lauBoundary (if on then some n else none) switch
  if on then (d.openSet n).trgFrame n unanch else d

/-- HALTED is entered: the start-up timeline runs (R396), windows end (R720), the loop and the decision lines stop. -/
def Dev.enterHalt (d : Dev) : Dev :=
  let d := (d.endWindows.cutCommands [0]).movesDone
  let d := ((d.wr R.SEQ_STATUS_STATE 4).wr R.SEQ_STATUS_ACTIVE 0).flag R.SEQ_STATUS_FORM15 false
  let d := ((d.wr R.SEQ_PLAN_ID 0).wr R.SEQ_LAT 0).wr R.GLB_START_STARTUP_TL 1
  let d := (d.loopStop.abandonSolve.trgHalt).setCad (fun c => { c with due := none })
  let d := ((d.flag R.CAD_STATUS_HOLD_TIMING false).flag R.LPE_STATUS_HOLD false).flag R.PWR_STATUS_SAFE_FORCED false
  (d.syncPower.evt 1).beginFrame false false

/-- A forced move (R42, R43, R390); `short` says that a shortfall made it. -/
def Dev.force (d : Dev) (role : Nat) (short : Bool) : Dev :=
  (((d.take 1 role).flag R.PWR_STATUS_SAFE_FORCED short).inc R.SEQ_CNT_FORCED).beginFrame true false

/-! ### Armed plans at a boundary (R387) -/

/-- A reset of a block that RST.5 refuses while a plan is active is in progress (R173). -/
def Dev.planBlockReset (d : Dev) : Bool :=
  match d.rst.blk with
  | some (c, _) => decide (c < 6) || c == 9
  | none => false

/-- The pending arm's boundary is this one (R257, R334, R387, R1014). -/
def Dev.armDue (d : Dev) : Bool :=
  let st := d.rd R.SEQ_STATUS_STATE
  let ready := d.isSet R.GLB_START_READY
  match d.sq.arm.map (·.wait) with
  | some 1 => d.planActive || ready
  | some 2 => if st = 0 then ready else d.cad.armGate && (st ≠ 4 || ready)
  | some 3 => (match d.cad.targetGate with
    | some b => decide (b < d.beat)
    | none => false)
  | _ => false

/-- Thermal HOT is in force (R48). -/
def Dev.hot (d : Dev) : Bool := d.rd R.THM_STATUS_STATE == 2

/-- The due arm's plan takes effect, the cool plan of its Maquette while HOT is in force (R48, R259); none where it fails
(R46, R132, R173). -/
def Dev.armEffect (d : Dev) (a : Arm) : Option Dev :=
  let img := d.armImg a.target
  let role := if d.hot then 2 else 0
  let b := planBudget img (nth 0 (d.armForms a.target) role)
  if (d.planActive && d.isSet R.SEQ_STATUS_SAFE_PENDING) || d.planBlockReset || img.isEmpty || (List.range 4).any (d.overCapacity b)
  then none
  else
    let d := d.dropArm
    let d := d.take a.target role
    let d := d.setSq (fun s => { s with armDone := s.armDone ++ [(a.seqNo, (d.rd R.SEQ_FRAME + 1) % 2 ^ 32)] })
    some (((d.flag R.PWR_STATUS_SAFE_FORCED false).inc R.SEQ_CNT_SWITCHES).beginFrame true false)

/-- A firing that made a held frame start came more than TOL beats ago (R322). -/
def Dev.noteHeld (d : Dev) : Dev :=
  match d.cad.targetGate.or d.cad.due with
  | some b => if d.isSet R.CAD_STATUS_HELD ∧ b + d.rd R.CAD_FSTART_TOL < d.beat then d.inc R.CAD_CNT_FS_HELD else d
  | none => d

/-! ### Frame boundaries -/

/-- The sequencer runs frames. -/
def Dev.sqOn (d : Dev) : Bool := d.works 1 && d.fwReady

/-- The seam that cut a frame has ended: HALTED, or the safe plan (R42, R395); a due arm is cancelled (R46). -/
def Dev.cutBoundary (d : Dev) : Dev :=
  let d := if d.armDue then d.armFail stUnavailable 0 else d
  if d.sq.halting || d.safeRuns || !d.formFits d.sq.active (d.formOf 1) then d.enterHalt
  else d.force 1 d.sq.shortfallMove

/-- A frame of the running plan, or of the start-up timeline, may begin now without a forced move or an armed switch. -/
def Dev.frameDue (d : Dev) : Bool :=
  !d.planActive || planStart d.sq.active d.sq.plan ≠ 1 || (match d.cad.due with
    | some b => decide (b < d.beat)
    | none => false)

/-- A frame boundary at which frame `unanch` would begin (R43, R46, R387, R971). -/
def Dev.boundary (d : Dev) (unanch : Bool) : Dev :=
  let d := d.noteHeld
  if d.sq.haltPending && d.planActive then d.enterHalt
  else if d.sq.coolPending && d.rd R.SEQ_STATUS_STATE == 1 && !d.isSet R.SEQ_STATUS_SAFE_PENDING then
    (if d.armDue then d.armFail stUnavailable 0 else d).force 2 false
  else
    let plain (d : Dev) (again : Bool) : Dev :=
      let d := d.setSq (fun s => { s with coolPending := false })
      if unanch then (d.inc R.CAD_CNT_FS_UNANCH).beginFrame false true
      else if again && !d.frameDue then d else d.beginFrame false false
    match d.sq.arm with
    | some a =>
      if d.armDue then (match d.armEffect a with
        | some e => e
        | none => plain (d.armFail stUnavailable 0) true)
      else plain d false
    | none => plain d false

/-- A frame boundary (R322, R387): after the frame before, when a frame start is due or held, at the first firing of an
armed plan's row, or at once where frames run free. -/
def frameBoundary (d : Dev) : Dev :=
  if !d.sqOn || d.sq.frameAt.isSome || d.beat < d.sq.frameEnd then d
  else if d.sq.haltPending && d.planActive then d.enterHalt
  else if d.sq.moving then d.cutBoundary
  else if d.frameDue || (d.armDue && d.cad.targetGate.isSome) then d.boundary false
  else d

def execFrameBoundary (s : State) : Host.Outcome State Fault Refusal := onDev frameBoundary s

/-- No frame start is due TOL beats after a frame has ended (R324, R326). -/
def unanchored (d : Dev) : Dev :=
  if d.sqOn && d.sq.frameAt.isNone && d.planActive && !d.sq.moving && planStart d.sq.active d.sq.plan == 1 &&
      d.cad.due.isNone && d.cad.targetGate.isNone && decide (d.sq.frameEnd + d.rd R.CAD_FSTART_TOL ≤ d.beat) then
    d.boundary true
  else d

def execUnanchoredFrameStart (s : State) : Host.Outcome State Fault Refusal := onDev unanchored s

/-- The beat at which the running frame ends: after its last, or at the end of the seam that cuts it (R42). -/
def Dev.frameStop (d : Dev) : Nat :=
  if d.sq.moving then d.sq.seamAt.getD 0 + 24 else d.sq.frameAt.getD 0 + d.frameLen

/-- Count a frame status (R372, PLN.8). -/
def Dev.countFrame (d : Dev) (st : Nat) : Dev :=
  [(0, R.SEQ_CNT_DEGRADED), (2, R.SEQ_CNT_CUT), (4, R.SEQ_CNT_LATE), (5, R.SEQ_CNT_ECC)].foldl
    (fun a e => if bitAt st e.1 then a.inc e.2 else a) d

/-- A frame ends (R372, R374): its status, and what the trigger service and the coincidence stage learn. -/
def frameEnd (d : Dev) : Dev :=
  if !d.sqOn || d.sq.frameAt.isNone || d.beat < d.frameStop then d
  else
    let stop := d.frameStop
    let bad := d.sq.moving || d.sq.tokens.any (fun e => e.2 == .invalid)
    let st := if d.planActive then d.sq.status ||| (b2n bad + 4 * b2n d.sq.moving) else 0
    let d := (d.wr R.SEQ_FRAME_STAT st).countFrame st
    let d := if d.planActive then d.trgFrameEnd bad else d
    let d := d.setSq (fun s => { s with frameAt := none, frameEnd := stop, inflight := [] })
    (d.lau.sets.filter (fun x => !x.hasWin)).foldl (fun a x => if a.setDue x then a.completeSet x else a) d

def execFrameEnd (s : State) : Host.Outcome State Fault Refusal := onDev frameEnd s

/-! ### The housekeeping schedule (R358) -/

/-- Clients whose doorbell record is read in this frame (R254, R255, R357). -/
def Dev.pollsDue (d : Dev) : List Nat :=
  let cycle := d.frameIdx / max 1 (planVars d.sq.active d.sq.plan)
  if d.planActive then ((d.leases.filter (fun l => l.pollVar == d.variantNow && cycle % max 1 l.pollEvery == 0)).map (·.client))
  else [0]

/-- Beats that the fixed items take (R358, R359). -/
def Dev.fixedBeats (d : Dev) : Nat :=
  calReserve d.frameLen + 8 * countIf (fun l => l.pollVar == d.variantNow) d.leases + 40

/-- PLAN_ARMs whose plan has taken effect complete (R391). -/
def Dev.armsDone (d : Dev) : Dev :=
  let l := d.sq.armDone
  l.foldl (fun a e =>
    match a.cmd? 0 e.1 with
    | some k => a.finishOk 0 k e.2
    | none => a) (d.setSq (fun s => { s with armDone := [] }))

/-- The calibration reserve of a slot that begins at a beat (R358, R458, HLD.6). -/
def Dev.reserve (d : Dev) (slot : Nat) : Dev :=
  if d.works 3 then
    let (d, left) := calWrites (List.range 16) (calReserve d.frameLen) d
    calSteps slot (left / 4) d
  else d

/-- Doorbell reads, then completions, interrupts and statistics. -/
def Dev.fixedItems (d : Dev) : Dev :=
  if d.inReset 6 then d.armsDone.tablesDone
  else ((d.pollsDue.foldl Dev.poll d).actRecords.fetchAll.readRows.tablesDone.armsDone.postAll.cplIrqs).sendDue

/-- The first HOUSEKEEPING slot of a frame runs its fixed items; its other beats carry steps (R358). -/
def housekeeping (d : Dev) : Dev :=
  match d.firstHkp with
  | some k =>
    if !d.sqOn || d.sq.frameAt.isNone || d.cutOver || d.sq.hkpDone || d.frameBeat < k.start || k.start + k.len ≤ d.frameBeat then d
    else
      let u := k.start + d.fixedBeats
      let d := (d.reserve (d.sq.frameAt.getD 0 + k.start)).fixedItems
      d.setSq (fun s => { s with used := sins s.used 0 u, hkpDone := true })
  | none => d

def execHousekeepingSlot (s : State) : Host.Outcome State Fault Refusal := onDev housekeeping s

/-! ### Errors of internal memories (R971, R973, R1013) -/

/-- An uncorrectable error in a half of the plan store. -/
def planStoreError (standby : Bool) (d : Dev) : Dev :=
  if !d.running then d
  else
    let d := d.rasEvent 5 0x07 noClient (b2n standby)
    if !standby then (if d.planActive then d.setSq (fun s => { s with haltPending := true }) else d)
    else
      let p := d.armPlan 0
      let d := if d.sq.arm.any (fun a => a.target == 0) then (d.noteRefusal (refuseWord 14 p 0xFFFF)).armFail stUnavailable
        (refuseWord 14 p 0xFFFF) else d
      if d.sq.staging.isSome then d else d.dropStandby

def execPlanStoreUncorrectableError (standby : Bool) (s : State) : Host.Outcome State Fault Refusal :=
  onDev (planStoreError standby) s

/-- An uncorrectable error in the memory of a control core, which halts, or of the boot core (4). -/
def coreMemoryError (core : Nat) (d : Dev) : Dev :=
  if !d.running then d
  else
    let d := d.rasEvent 5 0x15 noClient core
    if core < 4 ∧ !d.boot.dead.contains core then { d with boot := { d.boot with dead := core :: d.boot.dead } } else d

def execControlCoreMemoryUe (core : Nat) (s : State) : Host.Outcome State Fault Refusal :=
  unit (decide (core < 5)) (onDev (coreMemoryError core) s)

end Sys2Proof.Machine
end

