-- ==== Sys2Proof/Machine/Hif.lean ====
section
/-!
DEFINITION. The host link and its functions (chapter 13): FUNCTION reach, VF enabling, Bus Master Enable, D3hot, link
training, AER, unmasking and the use range.
-/

namespace Sys2Proof.Machine

/-- Function `f` exists: the PF, or a VF that is enabled (R597). -/
def Dev.fnHere (d : Dev) (f : Nat) : Bool := f == 0 || (d.hif.vfEnable && decide (f ≤ d.hif.numVfs))

/-- Function `f` takes configuration requests: link up, no CRS, a VF 100 ms after VF Enable and outside its FUNCTION
reach (R245, R597). -/
def Dev.cfgOk (d : Dev) (f : Nat) : Bool :=
  d.running && d.isSet R.HIF_LINK_DL_UP && !d.isSet R.HIF_LINK_CRS &&
    (f == 0 || (d.fnHere f && d.hif.vfReady && !d.rst.flr.contains f))

/-- HIF is held in reset, so that a Function Level Reset waits (R174). -/
def Dev.hifHeld (d : Dev) : Bool := d.inReset 6

/-- The beginning of a FUNCTION reach of client `c` (R141, R143, R617): its set-up, its fetched commands, its
function's configuration registers and its _HI shadows (R1006). -/
def Dev.functionReach (d : Dev) (c : Nat) : Dev :=
  let d := d.dropClient c
  let d := d.setFn c {}
  let d := d.setSq (fun q => { q with assigned := q.assigned.filter (fun a => a.1 ≠ c) })
  { d with hif := { d.hif with vecDue := d.hif.vecDue.filter (fun v => v.1 ≠ c) }
           hi := skeep (fun k => k / 2 ^ 32 ≠ c) d.hi }

/-- A Function Level Reset of VF `c` takes effect. -/
def Dev.flr (d : Dev) (c : Nat) : Dev :=
  let d := (d.functionReach c).inc R.HIF_CNT_FLR
  { d with rst := { d.rst with flr := c :: d.rst.flr.filter (· ≠ c), flrEnd := d.rst.flrEnd.filter (· ≠ c) } }

/-- A Function Level Reset of a VF (R141, R161, R174, R619). -/
def functionReachGo (vf : Nat) (d : Dev) : Dev :=
  if !d.running || !d.fnHere vf || !d.hif.vfReady then d
  else if d.hifHeld then
    { d with rst := { d.rst with flrDue := if d.rst.flrDue.contains vf then d.rst.flrDue else d.rst.flrDue ++ [vf] } }
  else d.flr vf

def execFunctionReach (vf : Nat) (s : State) : Host.Outcome State Fault Refusal :=
  unit (decide (1 ≤ vf ∧ vf ≤ 256)) (onDev (functionReachGo vf) s)

/-- A FUNCTION reach comes to its own end; a block reset of HIF in progress keeps it until its own (R144, R620). -/
def functionReachEnd (vf : Nat) (d : Dev) : Dev :=
  if !d.rst.flr.contains vf then d
  else if d.hifHeld then { d with rst := { d.rst with flrEnd := vf :: d.rst.flrEnd.filter (· ≠ vf) } }
  else { d with rst := { d.rst with flr := d.rst.flr.filter (· ≠ vf) } }

def execFunctionReachEnd (vf : Nat) (s : State) : Host.Outcome State Fault Refusal :=
  unit (decide (1 ≤ vf ∧ vf ≤ 256)) (onDev (functionReachEnd vf) s)

/-- HIF has left reset: reaches that had ended end, and Function Level Resets that waited take effect (R174, R620). -/
def Dev.hifOut (d : Dev) : Dev :=
  let due := d.rst.flrDue
  let d := { d with rst := { d.rst with flr := d.rst.flr.filter (fun v => !d.rst.flrEnd.contains v),
                                        flrEnd := [], flrDue := [] } }
  due.foldl (fun a v => if a.fnHere v then a.flr v else a) d

/-- NumVFs and VF Enable are written (R597, R599): a NumVFs above 256 is ignored, and so is the whole write before
FW_READY or while VF Enable is 1. -/
def vfEnableSet (n : Nat) (d : Dev) : Dev :=
  if !d.fwReady || !d.cfgOk 0 || d.hif.vfEnable then d
  else
    let n := if n ≤ 256 then n else d.hif.numVfs
    { d.wr R.HIF_LINK_NUMVFS n with hif := { d.hif with vfEnable := true, vfReady := false, numVfs := n } }

def execVfEnableSet (numVfs : Nat) (s : State) : Host.Outcome State Fault Refusal := onDev (vfEnableSet numVfs) s

/-- 100 ms after VF Enable was set (R597). -/
def vfReadyNow (d : Dev) : Dev :=
  if d.running && d.hif.vfEnable then { d with hif := { d.hif with vfReady := true } } else d

def execVfReady (s : State) : Host.Outcome State Fault Refusal := onDev vfReadyNow s

/-- VF Enable is cleared: a FUNCTION reach of every enabled VF at once (R598). -/
def vfEnableClear (d : Dev) : Dev :=
  if !d.cfgOk 0 || !d.hif.vfEnable then d
  else
    let d := ((List.range d.hif.numVfs).map (· + 1)).foldl (fun a c => a.functionReach c) d
    { d.wr R.HIF_LINK_NUMVFS 0 with
      hif := { d.hif with vfEnable := false, vfReady := false }
      rst := { d.rst with flr := [], flrDue := [], flrEnd := [] } }

def execVfEnableClear (s : State) : Host.Outcome State Fault Refusal := onDev vfEnableClear s

/-- Bus Master Enable of a function is written (R611). -/
def busMaster (f : Nat) (on : Bool) (d : Dev) : Dev :=
  if d.cfgOk f then d.setFn f { d.fn f with bme := on } else d

def execBusMasterEnableChange (fn : Nat) (on : Bool) (s : State) : Host.Outcome State Fault Refusal :=
  unit (decide (fn ≤ 256)) (onDev (busMaster fn on) s)

/-- The PF's power state is written (R609, R623). -/
def pfPower (d3hot : Bool) (d : Dev) : Dev := if d.cfgOk 0 then d.flag R.HIF_LINK_D3HOT d3hot else d

def execPfPowerStateChange (d3hot : Bool) (s : State) : Host.Outcome State Fault Refusal := onDev (pfPower d3hot) s

/-- A rate code and a width that the link can train to (HIF.1). -/
def linkForm (speed width : Nat) : Bool := decide (1 ≤ speed ∧ speed ≤ 5) && [1, 2, 4, 8, 16].contains width

/-- The link reaches DL_Active (R244, R245, R622). -/
def linkUp (speed width : Nat) (d : Dev) : Dev :=
  if !d.running || !d.rst.perstHigh || d.rst.refLost || d.isSet R.HIF_LINK_DL_UP || !linkForm speed width then d
  else
    let d := ((d.wr R.HIF_LINK_SPEED speed).wr R.HIF_LINK_WIDTH width).wr R.HIF_LINK_DL_UP 1
    let d := { d with hif := { d.hif with dlSeen := true } }
    d.flag R.HIF_LINK_CRS (!d.hif.noCrs && !d.fwReady && decide (d.rd R.BTP_STATUS_STEP ≠ 4))

def execPcieLinkUp (speed width : Nat) (s : State) : Host.Outcome State Fault Refusal := onDev (linkUp speed width) s

/-- Answer with Unsupported Request, logged in the addressed function or, where there is none, in the PF (R603). -/
def Dev.answerUr (d : Dev) (f : Nat) (hdr : List Nat) : Dev :=
  let g := if d.fnHere f then f else 0
  (d.emit (.unsupported g)).aerLog g .unsupported hdr

/-- A request that R603 answers with Unsupported Request. -/
def unsupportedRequest (f : Nat) (hdr : List Nat) (d : Dev) : Dev :=
  if d.running && d.isSet R.HIF_LINK_DL_UP then d.answerUr f hdr else d

def execUnsupportedRequest (fn : Nat) (hdr : List Nat) (s : State) : Host.Outcome State Fault Refusal :=
  unit (decide (fn ≤ 256)) (onDev (unsupportedRequest fn hdr) s)

/-- AER error of a link error. -/
def aerOf (e : LinkErr) : AerErr :=
  match e with
  | .receiver => .receiver
  | .badTlp => .badTlp
  | .badDllp => .badDllp
  | .replayTimeout => .replayTimeout
  | .replayRollover => .replayRollover
  | .dataLink => .dataLink
  | .flowControl => .flowControl
  | .overflow => .overflow
  | .malformed => .malformed

/-- A link error is logged in the PF and changes nothing else (HIF.6, R625). -/
def tlpError (e : LinkErr) (hdr : List Nat) (d : Dev) : Dev :=
  if d.running && d.isSet R.HIF_LINK_DL_UP then d.aerLog 0 (aerOf e) hdr else d

def execTlpErrorReceived (err : LinkErr) (hdr : List Nat) (s : State) : Host.Outcome State Fault Refusal :=
  onDev (tlpError err hdr) s

/-- A vector is unmasked; a pending message goes in the next HOUSEKEEPING slot (R604, R605). -/
def msixUnmask (f v : Nat) (d : Dev) : Dev :=
  if !d.running || !d.fnHere f then d
  else if f = 0 then d.wri R.MSIX_MASK v 0
  else if d.hifHeld || d.rst.flr.contains f then d
  else d.wri (R.VMSIX_MASK.page f) v 0

def execMsixUnmask (fn vec : Nat) (s : State) : Host.Outcome State Fault Refusal :=
  unit (decide (fn ≤ 256) && decide (vec < vecCount fn)) (onDev (msixUnmask fn vec) s)

/-- A write of HIF_USE_CTL of client `c` (R613-R615). -/
def useCtl (c value : Nat) (d : Dev) : Dev :=
  if !d.pageOk c then d
  else if !bitAt value 0 then d.pwr c R.HIF_USE_CTL_EN 0
  else
    let a := d.prd c R.HIF_USE_BASE
    let n := d.prd c R.HIF_USE_SIZE
    if a % 4096 = 0 ∧ n % 4096 = 0 ∧ n ≠ 0 ∧ d.hostWin c a n then
      (d.pwr c R.HIF_USE_CTL_EN 1).pwr c R.HIF_USE_CTL_ERR 0
    else (d.pwr c R.HIF_USE_CTL_EN 0).pwr c R.HIF_USE_CTL_ERR 1

def execUseRangeEnable (client value : Nat) (s : State) : Host.Outcome State Fault Refusal :=
  unit (decide (client ≤ 256)) (onDev (useCtl client value) s)

end Sys2Proof.Machine
end

