-- ==== Sys2Proof/Machine/Thermal.lean ====
section
/-!
DEFINITION. The thermal supervisor (SUP.1, SUP.2): readings, exclusion, the cross-check with SA14 and SA15, the
supervisor temperature, and the WARN, HOT and TRIP flags; THERM_N; heartbeats of the control cores (R970).
-/

namespace Sys2Proof.Machine

/-- THERM_N is asserted (R964). -/
def Dev.thermN (d : Dev) : Bool := decide (2 ≤ d.rd R.THM_STATUS_STATE)

/-- A reading in 0.125 degrees is valid (R956). -/
def readingOk (r : Option Int) : Bool :=
  match r with
  | some v => decide (-320 ≤ v ∧ v ≤ 1200)
  | none => false

/-- Change the supervisor's hidden state. -/
def Dev.setThm (d : Dev) (f : Thm → Thm) : Dev := { d with thm := f d.thm }

/-- A THERMAL entry of the error summary (R965, R966). -/
def Dev.thermalEvent (d : Dev) (detail : Nat) : Dev := d.rasEvent 7 0x03 noClient detail

/-- One present sensor's reading: its register, its runs, and its exclusion or return (R956, R958). -/
def Dev.sensorSample (d : Dev) (i : Nat) (r : Option Int) : Dev :=
  if !d.sensorHere i then d
  else
    let ok := readingOk r
    let bad := if ok then 0 else nth 0 d.thm.badRun i + 1
    let good := if ok then nth 0 d.thm.goodRun i + 1 else 0
    let was := d.isSeti R.THM_SENS_EXCL i
    let now := if was then decide (good < 64) else decide (3 ≤ bad)
    let d := d.wri R.THM_SENS_READING i (match r with
      | some v => ofInt 16 v
      | none => 0x8000)
    let d := (d.flagi R.THM_SENS_INVALID i (!ok)).flagi R.THM_SENS_EXCL i now
    let d := d.setThm (fun t => { t with badRun := t.badRun.set i bad, goodRun := t.goodRun.set i good })
    if was = now then d else d.thermalEvent (0x100 + i)

/-- Valid readings of this sample among the included sensors from `lo` on, `n` of them. -/
def Dev.usable (d : Dev) (rs : List (Option Int)) (lo n : Nat) : List Int :=
  ((List.range n).map (· + lo)).filterMap (fun i =>
    if d.sensorHere i && !d.isSeti R.THM_SENS_EXCL i && readingOk (nth none rs i) then nth none rs i else none)

/-- The largest of some readings. -/
def topOf (l : List Int) : Option Int :=
  l.foldl (fun a x => match a with
    | some y => some (max x y)
    | none => some x) none

/-- XCHECK bit of reference `g`: 0 SA14 over sensors 0-15, 1 SA15 over sensors 16-31. -/
def xcheckFld (g : Nat) : Fld := if g = 0 then R.THM_STATUS_XCHECK_PHO else R.THM_STATUS_XCHECK_PLI

/-- Compare a reference with its group (R959). -/
def Dev.crossCheck (d : Dev) (rs : List (Option Int)) (g : Nat) (ref : Int) : Dev :=
  match topOf (d.usable rs (16 * g) 16) with
  | none => d
  | some top =>
    let above := if 40 < ref - top then nth 0 d.thm.xAbove g + 1 else 0
    let within := if -40 ≤ ref - top ∧ ref - top ≤ 40 then nth 0 d.thm.xWithin g + 1 else 0
    let was := d.isSet (xcheckFld g)
    let now := if was then decide (within < 64) else decide (8 ≤ above)
    let within := if was then within else 0
    let d := d.setThm (fun t => { t with xAbove := t.xAbove.set g above, xWithin := t.xWithin.set g within })
    let d := d.flag (xcheckFld g) now
    if now && !was then d.thermalEvent (0x100 + 48 + g) else d

/-- References that take part in the maximum of R960 (R959). -/
def Dev.refsIn (d : Dev) (rs : List (Option Int)) (refs : List Int) : List Int :=
  (List.range 2).filterMap (fun g =>
    if d.isSet (xcheckFld g) || (d.usable rs (16 * g) 16).isEmpty then refs[g]? else none)

/-- Sensors excluded now (R958). -/
def Dev.excludedCount (d : Dev) : Nat := countIf (fun i => d.sensorHere i && d.isSeti R.THM_SENS_EXCL i) (List.range 48)

/-- The supervisor temperature of a sample (R960, R961). -/
def Dev.superT (d : Dev) (rs : List (Option Int)) (refs : List Int) : Int :=
  let t := (topOf (d.usable rs 0 48 ++ d.refsIn rs refs)).getD 840
  if 4 < d.excludedCount then max t 840 else t

/-- Thresholds of WARN, HOT and TRIP in 0.125 degrees. -/
def levelT (l : Nat) : Int := if l = 0 then 760 else if l = 1 then 840 else 920

/-- One level's flag and counts after a sample (R962). -/
def Thm.level (t : Thm) (l : Nat) (v : Int) : Thm :=
  if nth false t.flags l then
    let n := if v < levelT l - 32 then nth 0 t.leave l + 1 else 0
    if 64 ≤ n then { t with flags := t.flags.set l false, leave := t.leave.set l 0, enter := t.enter.set l 0 }
    else { t with leave := t.leave.set l n }
  else
    let n := if levelT l ≤ v then nth 0 t.enter l + 1 else 0
    if 8 ≤ n then { t with flags := t.flags.set l true, enter := t.enter.set l 0, leave := t.leave.set l 0 }
    else { t with enter := t.enter.set l n }

/-- The thermal state of the flags (R963). -/
def Thm.state (t : Thm) : Nat :=
  if nth false t.flags 2 then 3 else if nth false t.flags 1 then 2 else if nth false t.flags 0 then 1 else 0

/-- A change of thermal state (R43, R49, R965): its entry and event, the pending cool move, and the TRIP source. -/
def Dev.thermalChange (d : Dev) (was now : Nat) : Dev :=
  if was = now then d
  else
    let d := ((d.wr R.THM_STATUS_STATE now).thermalEvent now).evt 2
    let d := if was < 2 ∧ 2 ≤ now ∧ d.rd R.SEQ_STATUS_STATE = 1 then d.setSq (fun s => { s with coolPending := true }) else d
    if now = 3 then d.assertSrc .therm .device true
    else if was = 3 then d.releaseSrc .therm
    else d

/-- One sample of the thermal supervisor (R956-R963, R1002). -/
def thermalSample (rs : List (Option Int)) (ref14 ref15 : Int) (d : Dev) : Dev :=
  if !d.pw.vaux || !(d.railsUp || d.thm.began) then d
  else
    let d := d.setThm (fun t => { t with began := true })
    let d := (List.range 48).foldl (fun a i => a.sensorSample i (nth none rs i)) d
    let d := (d.crossCheck rs 0 ref14).crossCheck rs 1 ref15
    let d := d.wr R.THM_STATUS_EXCLUDED d.excludedCount
    let d := d.flag R.THM_STATUS_SENS_DEGRADED (decide (4 < d.excludedCount))
    let v := d.superT rs [ref14, ref15]
    let d := d.wr R.THM_STATUS_T (ofInt 16 v)
    let was := d.rd R.THM_STATUS_STATE
    let d := d.setThm (fun t => ((t.level 0 v).level 1 v).level 2 v)
    d.thermalChange was d.thm.state

def execThermalSample (readings : List (Option Int)) (ref14 ref15 : Int) (s : State) : Host.Outcome State Fault Refusal :=
  onDev (thermalSample readings ref14 ref15) s

/-- A control core's heartbeat has not advanced for 10 ms (R970). -/
def heartbeatTimeout (core : Nat) (d : Dev) : Dev := if d.fwReady then d.rasEvent 10 0x15 noClient core else d

def execHeartbeatTimeout (core : Nat) (s : State) : Host.Outcome State Fault Refusal :=
  unit (decide (core < 4)) (onDev (heartbeatTimeout core) s)

end Sys2Proof.Machine
end

