-- ==== Sys2Proof/Machine/Smbus.lean ====
section
/-!
DEFINITION. SMBus management (SUP.4): which requests are acknowledged, the cached reply, the commands and their
records, SMB_ALERT_N; and writes of RAS_SUM (R969, R981).
-/

namespace Sys2Proof.Machine

/-- SMB_ALERT_N is asserted (R985). -/
def Dev.smbAlertN (d : Dev) : Bool := d.isSet R.MGT_STATUS_ALERT

/-- The interface answers: 15 ms after VAUX became valid (R242). -/
def Dev.smbAwake (d : Dev) : Bool := d.pw.vaux && decide (d.mgt.vauxAt + 3750000 ≤ d.beat)

/-- A write of ones to RAS_SUM; bits that an event set in this beat stay (R969). -/
def Dev.rasClear (d : Dev) (mask : Nat) : Dev :=
  let kept := if d.ras.sumAt = d.beat then d.ras.sumBits else 0
  d.wr R.RAS_SUM
    ((List.range 13).foldl (fun v c => putBit v c (bitAt (d.rd R.RAS_SUM) c && (!bitAt mask c || bitAt kept c))) 0)

/-- Rail faults latched now, as a mask. -/
def Dev.railFaults (d : Dev) : Nat := d.word R.PWR_STATUS_RAIL_FAULT

/-- A command code is acknowledged (R164, R243, R979): none while a request is PENDING. -/
def Dev.smbAck (d : Dev) (code : Nat) : Bool :=
  !d.isSet R.MGT_STATUS_PENDING &&
    (d.fwReady || code == 0x01 || code == 0x02 || (code == 0x11 && decide (d.railFaults ≠ 0)))

/-- The status record (SUP.4, R984). -/
def Dev.statusRecord (d : Dev) : List Nat :=
  let byte (l : List Bool) : Nat := l.foldr (fun b a => b2n b + 2 * a) 0
  let fw (l : List Nat) : List Nat := if d.fwReady then l else l.map (fun _ => 0)
  [byte [d.fwReady, d.isSet R.GLB_START_READY, d.rst.ep.isSome, d.sealedMode, decide (d.rd R.MGT_DBG_SCOPE ≠ 0),
         d.smbAlertN],
   byte [d.rst.strapInvalid, d.rst.refclkFail || d.rst.refLost, decide (d.rd R.BTP_STATUS_STEP = 5),
         decide (d.railFaults ≠ 0), decide (d.word R.MEM_T1_STATUS_FAILED ≠ 0), d.rst.ioDie1Failed,
         d.isSet R.THM_STATUS_SENS_DEGRADED],
   d.rd R.THM_STATUS_STATE,
   d.rd R.PWR_RAIL_FAULT_INFO_KIND + 16 * d.rd R.PWR_RAIL_FAULT_INFO_RAIL] ++
  leBytes 2 (d.rd R.RST_CAUSE) ++ [d.rd R.RST_EPISODE_REACH] ++
  fw ([d.rd R.SEQ_STATUS_STATE] ++ leBytes 2 (d.word R.GLB_START_TILE_FAIL) ++
      [d.word R.MEM_T1_STATUS_FAILED, d.word R.MEM_T2_STATUS_FAILED] ++ leBytes 2 (d.rd R.RAS_SUM)) ++
  leBytes 2 (d.rd R.THM_STATUS_T)

/-- The telemetry record (SUP.4). -/
def Dev.telemetryRecord (d : Dev) : List Nat :=
  leBytes 2 (d.rd R.PWR_IN_VI_MV) ++ leBytes 2 (d.rd R.PWR_IN_VI_CUR) ++ leBytes 2 (d.rd R.PWR_IN_P) ++
  leBytes 2 (d.rd R.THM_STATUS_T) ++
  ((List.range 4).map (fun r => leBytes 2 (d.rdi R.PWR_RAIL_VI_MV r) ++ leBytes 2 (d.rdi R.PWR_RAIL_VI_CUR r))).flatten

/-- Twelve readings of a SENSORS page. -/
def Dev.sensorPage (d : Dev) (p : Nat) : List Nat :=
  ((List.range 12).map (fun i =>
    let n := 12 * p + i
    leBytes 2 (if !d.sensorHere n || d.isSeti R.THM_SENS_EXCL n then 0x8000 else d.rdi R.THM_SENS_READING n))).flatten

/-- A log entry of the error summary, 16 bytes (SUP.3). -/
def Dev.rasEntry (d : Dev) (i : Nat) : List Nat :=
  leBytes 4 (d.rdi R.RAS_LOG_STAMP i) ++ [d.rdi R.RAS_LOG_CLASS i, d.rdi R.RAS_LOG_BLOCK i] ++
  leBytes 2 (d.rdi R.RAS_LOG_CLIENT i) ++ [d.rdi R.RAS_LOG_COUNT i, 0, 0, 0] ++ leBytes 4 (d.rdi R.RAS_LOG_DETAIL i)

/-- The IDENTITY record (R999, R1000). -/
def Dev.identityRecord (d : Dev) : List Nat :=
  ((List.range 4).map (fun k => leBytes 4 (d.rdi R.GLB_SERIAL k))).flatten ++
  [d.variant, d.rd R.GLB_ID_STEPPING, d.rd R.BTP_SVN_IMG_SVN, d.rd R.BTP_SVN_FUSES] ++ leBytes 4 (d.rd R.SEQ_PLAN_ID)

/-- Record a reply as the cached one (R977, R978). -/
def Dev.smbDone (d : Dev) (code : Nat) (payload : List Nat) (st : Nat) (data : List Nat) : Dev :=
  let d := { d with mgt := { d.mgt with cached := some { code := code, payload := payload, status := st, data := data } } }
  let d := d.flag R.MGT_STATUS_PENDING (decide (st = 1))
  (d.wr R.MGT_STATUS_LASTCMD code).wr R.MGT_STATUS_SEQ (u8 payload 0)

/-- The request repeats the last one acted on (R977). -/
def Dev.smbRepeat (d : Dev) (code : Nat) (payload : List Nat) : Bool :=
  match d.mgt.cached with
  | some r => r.code == code && decide (r.payload = payload)
  | none => false

/-- A Block Write of a command: NACKed, discarded for its PEC, answered from the cache, or acted on by `act`, which
gives STATUS, the reply data and what the command does (R976-R979, R164, R242, R243). -/
def Dev.smbRequest (d : Dev) (code nargs : Nat) (req : SmbReq) (act : List Nat → Dev → Nat × List Nat × Dev) : Dev :=
  if !d.smbAwake then d.emit .smbNack
  else if !d.smbAck code then (d.inc R.MGT_CNT0_NACK).emit .smbNack
  else if !req.pecOk || req.payload.isEmpty then
    ((d.inc R.MGT_CNT0_PEC_ERR).rasEvent 12 0x16 noClient 0).emit .smbNack
  else if d.smbRepeat code req.payload then d.inc R.MGT_CNT1_REPEAT
  else if req.payload.length ≠ nargs + 1 then d.smbDone code req.payload 3 []
  else
    let r := act (req.payload.drop 1) d
    r.2.2.smbDone code req.payload r.1 r.2.1

def smbStatus (req : SmbReq) (d : Dev) : Dev := d.smbRequest 0x01 0 req (fun _ d => (0, d.statusRecord, d))
def execStatus (req : SmbReq) (s : State) : Host.Outcome State Fault Refusal := onDev (smbStatus req) s

def smbTelemetry (req : SmbReq) (d : Dev) : Dev := d.smbRequest 0x02 0 req (fun _ d => (0, d.telemetryRecord, d))
def execTelemetry (req : SmbReq) (s : State) : Host.Outcome State Fault Refusal := onDev (smbTelemetry req) s

def smbSensors (req : SmbReq) (d : Dev) : Dev :=
  d.smbRequest 0x03 1 req (fun a d => if u8 a 0 < 4 then (0, d.sensorPage (u8 a 0), d) else (3, [], d))
def execSensors (req : SmbReq) (s : State) : Host.Outcome State Fault Refusal := onDev (smbSensors req) s

def smbErrlog (req : SmbReq) (d : Dev) : Dev :=
  d.smbRequest 0x04 1 req (fun a d => (0, d.rasEntry (u8 a 0) ++ [d.rd R.RAS_LOG_WR_NEXT], d))
def execErrlog (req : SmbReq) (s : State) : Host.Outcome State Fault Refusal := onDev (smbErrlog req) s

/-- ERRCLR (R981). -/
def smbErrclr (req : SmbReq) (d : Dev) : Dev := d.smbRequest 0x05 2 req (fun a d => (0, [], d.rasClear (u16 a 0)))
def execErrclr (req : SmbReq) (s : State) : Host.Outcome State Fault Refusal := onDev (smbErrclr req) s

def smbIdentity (req : SmbReq) (d : Dev) : Dev := d.smbRequest 0x06 0 req (fun _ d => (0, d.identityRecord, d))
def execIdentity (req : SmbReq) (s : State) : Host.Outcome State Fault Refusal := onDev (smbIdentity req) s

/-- Give MGT_ALERT_MASK bits 13 to 1 of a value. -/
def Dev.setAlertMask (d : Dev) (v : Nat) : Dev := d.wr R.MGT_ALERT_MASK (2 * bits v 1 13)

/-- ALERT_MASK: the previous mask is the reply (R985). -/
def smbAlertMask (req : SmbReq) (d : Dev) : Dev :=
  d.smbRequest 0x07 2 req (fun a d => (0, leBytes 2 (d.rd R.MGT_ALERT_MASK), d.setAlertMask (u16 a 0)))
def execAlertMask (req : SmbReq) (s : State) : Host.Outcome State Fault Refusal := onDev (smbAlertMask req) s

/-- RESET_DEVICE (R175, R982): the key is checked before sealed mode. -/
def smbResetDevice (req : SmbReq) (d : Dev) : Dev :=
  d.smbRequest 0x10 1 req (fun a d =>
    if u8 a 0 ≠ 0xA5 then (3, [], d)
    else if d.sealedMode then (2, [], d)
    else (0, [], { d with mgt := { d.mgt with resetDue := true } }))
def execResetDevice (req : SmbReq) (s : State) : Host.Outcome State Fault Refusal := onDev (smbResetDevice req) s

/-- RAIL_RETRY (R127, R128, R983): PENDING while a down sequence still runs. -/
def smbRailRetry (req : SmbReq) (d : Dev) : Dev :=
  d.smbRequest 0x11 1 req (fun a d =>
    if 4 ≤ u8 a 0 then (3, [], d)
    else if !d.isSeti R.PWR_STATUS_RAIL_FAULT (u8 a 0) then (2, [], d)
    else (if d.pw.seq = .falling then 1 else 0, [], d.railRetry (u8 a 0)))
def execRailRetry (req : SmbReq) (s : State) : Host.Outcome State Fault Refusal := onDev (smbRailRetry req) s

/-- 1 ms after an accepted RESET_DEVICE the MGMT_CMD source asserts (R982). -/
def mgmtReset (d : Dev) : Dev :=
  if d.mgt.resetDue then ({ d with mgt := { d.mgt with resetDue := false } }).assertSrc .mgmt .device false else d
def execMgmtResetAssert (s : State) : Host.Outcome State Fault Refusal := onDev mgmtReset s

/-- A REPLY block: count, STATUS, SEQ, command code and data; NONE before any request (R977). -/
def Dev.replyBlock (d : Dev) : List Nat :=
  match d.mgt.cached with
  | some r => [3 + r.data.length, r.status, u8 r.payload 0, r.code] ++ r.data
  | none => [3, 4, 0, 0]

/-- A Block Read of REPLY; it is always answered (R979). -/
def smbReply (d : Dev) : Dev := d.emit (if d.smbAwake then .smbus d.replyBlock else .smbNack)
def execReply (s : State) : Host.Outcome State Fault Refusal := onDev smbReply s

/-- A read of the Alert Response Address (R986). -/
def alertResponse (d : Dev) : Dev :=
  if d.smbAwake && d.smbAlertN then (d.emit (.smbus [0x4A])).wr R.MGT_STATUS_ALERT 0 else d
def execAlertResponse (s : State) : Host.Outcome State Fault Refusal := onDev alertResponse s

/-- SMB_SCL held low for 35 ms (R980). -/
def smbTimeout (d : Dev) : Dev := if d.pw.vaux then (d.inc R.MGT_CNT1_TIMEOUT).rasEvent 12 0x16 noClient 0 else d
def execSmbusTimeout (s : State) : Host.Outcome State Fault Refusal := onDev smbTimeout s

end Sys2Proof.Machine
end

