-- ==== Sys2Proof/Machine/Jtag.lean ====
section
/-!
DEFINITION. The JTAG port and debug access (SUP.5): the TAP's instruction, boundary scan, the challenge and its
response, and the halting of control cores. DBG_MEM lies with register access (Access.lean).
-/

namespace Sys2Proof.Machine

/-- Instruction codes of R987. -/
def irIdcode : Nat := 0x01
def irExtest : Nat := 0x03
def irClamp : Nat := 0x04
def irHighz : Nat := 0x05
def irChal : Nat := 0x20
def irBypass : Nat := 0xFF

/-- Change the debug unit. -/
def Dev.setDbg (d : Dev) (f : Dbg → Dbg) : Dev := { d with dbg := f d.dbg }

/-- The instruction that an instruction code selects: codes the table does not list select BYPASS (R987). -/
def irOf (code : Nat) : Nat :=
  if [0x01, 0x02, 0x03, 0x04, 0x05, 0x20, 0x21, 0x22, 0x23].contains code then code else irBypass

/-- Test-Logic-Reset: IDCODE selected, the functional outputs return (R987, R989). -/
def tapReset (d : Dev) : Dev := d.setDbg (fun x => { x with ir := irIdcode, scan := false })

def execTapReset (s : State) : Host.Outcome State Fault Refusal := onDev tapReset s

/-- EXTEST, CLAMP or HIGHZ is loaded with a boundary register (R988, R989): BYPASS in its place while a plan is active. -/
def boundaryScan (code cells : Nat) (d : Dev) : Dev :=
  if d.planActive then (d.setDbg (fun x => { x with ir := irBypass, scan := false })).wr R.MGT_DBG_SCAN_REF 1
  else d.setDbg (fun x => { x with ir := code, scan := true, cells := cells % 2 ^ 84 })

def execBoundaryScanInstruction (code cells : Nat) (s : State) : Host.Outcome State Fault Refusal :=
  unit (decide (irExtest ≤ code ∧ code ≤ irHighz)) (onDev (boundaryScan code cells) s)

/-- Draw bytes the spec leaves free. -/
def Dev.freeBytes (d : Dev) (n : Nat) : List Nat × Dev :=
  (List.range n).foldl (fun (a : List Nat × Dev) _ => (a.1 ++ [(a.2.freeVal 8).1], (a.2.freeVal 8).2)) ([], d)

/-- The bits of bytes in the order in which a data register shifts them out, bit 0 first. -/
def shiftBits (l : List Nat) : List Nat := (l.map (fun b => (List.range 8).map (fun i => bits b i 1))).flatten

/-- The 48 bytes of a challenge (R991). -/
def challenge (nv : Nv) (nonce : List Nat) : List Nat := mgets 0 nv.otp 0 16 ++ nonce

/-- An Update-IR that selects DBG_CHAL draws a fresh nonce; DBG_CHAL then reads the challenge (R991). -/
def dbgChal (nv : Nv) (d : Dev) : Dev :=
  let (n, d) := d.freeBytes 32
  (d.setDbg (fun x => { x with ir := irChal, scan := false, nonce := some n })).emit (.tdo (shiftBits (challenge nv n)))

def execDbgChal (s : State) : Host.Outcome State Fault Refusal := onDevNv dbgChal s

/-- An Update-IR (R987, R989). -/
def updateIr (code : Nat) (nv : Nv) (d : Dev) : Dev :=
  if irExtest ≤ code ∧ code ≤ irHighz then boundaryScan code d.dbg.cells d
  else if code = irChal then dbgChal nv d
  else d.setDbg (fun x => { x with ir := irOf code, scan := false })

def execUpdateIr (code : Nat) (s : State) : Host.Outcome State Fault Refusal := onDevNv (updateIr code) s

/-- A DEBUG entry of the error summary (SUP.5). -/
def Dev.debugEvent (d : Dev) : Dev := d.rasEvent 11 0x16 noClient 0

/-- A response is accepted (R206, R207, R992). -/
def respOk (nv : Nv) (opt nonce b : List Nat) : Bool :=
  let scope := u8 b 0
  let slot := u8 b 1
  let pub := bytesAt b 2 97
  let root := rootKeyAt nv opt slot pub
  let owner := slot == 0xFF && ownerKeyIs opt pub
  ((scope == 1 && (root || owner)) || (scope == 2 && root)) &&
    Config.ecdsaP384 pub (bytesAt b 99 96) (Config.sha384 (challenge nv nonce ++ [scope]))

/-- Update-DR of DBG_RESP (R992, R993). -/
def dbgResp (b : List Nat) (nv : Nv) (d : Dev) : Dev :=
  if d.isSet R.MGT_DBG_LOCKOUT then d
  else
    let ok := match d.dbg.nonce with
      | some n => respOk nv d.rst.opt n b
      | none => false
    let d := (d.setDbg (fun x => { x with nonce := none })).debugEvent
    if ok then d.wr R.MGT_DBG_SCOPE (u8 b 0)
    else
      let d := d.inc R.MGT_DBG_FAILS
      if d.rd R.MGT_DBG_FAILS = 3 then d.wr R.MGT_DBG_LOCKOUT 1 else d

def execDbgResp (bytes : List Nat) (s : State) : Host.Outcome State Fault Refusal := onDevNv (dbgResp bytes) s

/-- The bits of a captured 64-bit data register. -/
def tdo64 (v : Nat) : Out := .tdo ((List.range 64).map (fun i => bits v i 1))

/-- What DBG_CORE captures (R995, R998): zero below CORE scope; else the halted mask and the named core's program
counter, which the spec gives no value. -/
def Dev.coreCapture (d : Dev) : Dev :=
  if d.rd R.MGT_DBG_SCOPE ≠ 2 then d.emit (tdo64 0)
  else
    let (pc, d) := d.freeVal 24
    d.emit (tdo64 (d.rd R.MGT_DBG_HALTED * 2 ^ 32 + pc * 2 ^ 40))

/-- Update-DR of DBG_CORE (R998): HALT or RESUME of the named core; a request with both bits does one of the two, the
spec does not say which. -/
def dbgCore (u : Nat) (d : Dev) : Dev :=
  let d := d.coreCapture
  if d.rd R.MGT_DBG_SCOPE ≠ 2 then d
  else
    let core := bits u 0 2
    let d := d.setDbg (fun x => { x with core := core })
    let both := bitAt u 2 && bitAt u 3
    let (f, d) := if both then d.freeVal 1 else (0, d)
    let h := d.rd R.MGT_DBG_HALTED
    if (bitAt u 2 && !both) || (both && decide (f = 1)) then
      if bitAt h core then d else (d.wr R.MGT_DBG_HALTED (putBit h core true)).debugEvent
    else if bitAt u 3 then d.wr R.MGT_DBG_HALTED (putBit h core false)
    else d

/-- A DBG_CORE update that requests HALT. -/
def dbgCoreHalt (u : Nat) (d : Dev) : Dev := dbgCore u d
def execDbgCoreHalt (update : Nat) (s : State) : Host.Outcome State Fault Refusal := onDev (dbgCoreHalt update) s

/-- A DBG_CORE update that requests RESUME. -/
def dbgCoreResume (u : Nat) (d : Dev) : Dev := dbgCore u d
def execDbgCoreResume (update : Nat) (s : State) : Host.Outcome State Fault Refusal := onDev (dbgCoreResume update) s

end Sys2Proof.Machine
end

