-- ==== Sys2Proof/Machine/BlockReset.lean ====
section
/-!
DEFINITION. Block reset (RST.5): requests and refusals, idling, what a BLOCK reach does to each block, the end of the
reset, and the BLOCK reach of HIF that a link event causes (R1010).
-/

namespace Sys2Proof.Machine

/-- Register block of an RST.5 code. -/
def blkOfCode (c : Nat) : Nat := if c < 5 then c + 6 else c + 7

/-- A block that RST.5 marks "yes": refused while a plan is active. -/
def blkPlanned (c : Nat) : Bool := decide (c < 6) || c == 9

/-- A command uses the block of a code (RNG.5). -/
def Cmd.uses (k : Cmd) (c : Nat) : Bool :=
  let t := k.par8 8
  (k.op == opStats && rstCode t == some c) ||
  match c with
  | 0 => k.op == opTable && t == 1
  | 1 => k.op == opStage || k.op == opArm
  | 3 => k.op == opCal
  | 7 => k.op == opTable && t == 2
  | 8 => k.op == opTable && t == 3
  | 11 => k.op == opTrace || (k.op == opTable && (t == 4 || t == 5))
  | 12 => k.op == opQp
  | 2 => k.op == opSection || k.op == opTrain
  | 4 => k.op == opSection || k.op == opTrain
  | 5 => k.op == opSection || k.op == opTrain
  | _ => false

/-- End the commands that use a block (RNG.5): those started or fetched whose descriptors have arrived. -/
def Dev.abortUsers (d : Dev) (c : Nat) : Dev :=
  (d.clients.map (·.1)).foldl (fun a n => a.abortAll n causeBlock (fun k => k.phase ≠ .issued && k.uses c)) d

/-- Fields, _HI shadows and SNAP capture of a block take their reset values (R6, R7, R1006). -/
def Dev.clearBlock (d : Dev) (c : Nat) : Dev :=
  let blk := blkOfCode c
  let d := d.clearRegs (fun k f => decide (k < firstPageBit) && blockOf (k / 8) == blk && f.cls.clearedByBlock)
  let ofBlk (k : Nat) : Bool :=
    let m := k / 2 ^ 32
    let a := k % 2 ^ 32
    if 1 ≤ m ∧ m ≤ 256 then blk == 0x0D else blockOf a == blk
  { d with hi := skeep (fun k => !ofBlk k) d.hi, snaps := d.snaps.filter (fun e => e.1 ≠ blk) }

/-- Every client's set-up and pending work is cleared (RST.5, R626, R684). -/
def Dev.dropClients (d : Dev) : Dev :=
  let d := (d.clients.map (·.1)).foldl (fun a c => (a.cmds c).foldl (fun b k => (b.trainTorn c k).unhook c k) a) d
  let d := d.clearRegs (fun k f => decide (firstPageBit ≤ k) && f.cls == .func)
  let d := { d with clients := [], snaps := d.snaps.filter (fun e => e.1 < 0x100),
                    sq := { d.sq with assigned := [] }, hif := { d.hif with vecDue := [] } }
  d.qpSettle

/-- What the sequencer keeps through a BLOCK reach (RST.1): the active half and held table rows. -/
def Seq.afterBlock (s : Seq) (now : Nat) : Seq :=
  { active := s.active, actForms := s.actForms, plan := s.plan, planAt := s.planAt, tileMap := s.tileMap,
    changes := s.changes, frameEnd := now }

/-- A running solve ends at a BLOCK reach of QPS (R925); the next solve starts COLD. -/
def Dev.qpsBlock (d : Dev) : Dev := d.abandonSolve.setQps (fun q => { q with warm := none })

/-- What a BLOCK reach does to a block beyond its registers. -/
def Dev.blockState (d : Dev) (c : Nat) : Dev :=
  match c with
  | 0 => (({ d with cad := {} }).wr R.GLB_START_PHASE_VALID 0).syncEvents
  | 1 => { d.dropStandby.dropArm with sq := d.sq.afterBlock d.beat }
  | 2 => { d with opt := d.opt.afterReach .warm }
  | 3 =>
    let was := d.alertBits
    let d := ((d.wr R.GLB_START_READY 0).wr R.GLB_START_OPT_STAGE 0).lasersOff
    ({ d with cal := {}, st := {} }).syncEvents.alertChange was
  | 6 => d.dropClients
  | 7 => { d with ing := { d.ing with streams := d.ing.streams.map (fun t => { t with wins := [] }) } }
  | 8 => d.lauBlock
  | 9 => { d with trg := {} }
  | 10 => { d with aet := {} }
  | 11 => { d.loopStop with lpe := { faultLow := d.lpe.faultLow } }
  | 12 => d.qpsBlock
  | 13 => d.sadBlock
  | _ => d

/-- A block enters reset: `n` fabric transactions end with an error (R169-R171). -/
def Dev.enterBlock (d : Dev) (c n : Nat) : Dev :=
  let d := if c = 7 then d.endWindows else d
  let d := if c = 6 then d else d.abortUsers c
  let d := (d.clearBlock c).blockState c
  (List.range (min n 255)).foldl (fun a _ => a.rasEvent 9 (blkOfCode c) noClient 0) d

/-- A block leaves reset (RST.5). -/
def Dev.leaveBlock (d : Dev) (c : Nat) : Dev :=
  match c with
  | 0 => d.acquire
  | 3 => if d.fwReady then d.optStart else d
  | 6 => d.hifOut
  | 7 => d.streamsRestart
  | 10 => d.aetRestart
  | 13 => d.sadRestart
  | _ => d

/-- Set the phase of the requested block reset. -/
def Dev.setBlk (d : Dev) (b : Option (Nat × BlkPhase)) : Dev :=
  { d with rst := { d.rst with blk := b, blkAt := d.beat } }

/-- A GO is refused (R168). -/
def Dev.refuseGo (d : Dev) (reason : Nat) : Dev := (d.wr R.RST_BLK_STATUS_REFUSED 1).wr R.RST_BLK_STATUS_REASON reason

/-- A GO is accepted (R169, R170): in IDLE_ASSERTED mode the block enters reset, and what is in flight ends with an
error; how many transactions that is, the spec does not say. -/
def Dev.acceptGo (d : Dev) (c : Nat) : Dev :=
  let d := (d.wr R.RST_BLK_STATUS_BUSY 1).wr R.RST_BLK_STATUS_LAST c
  if c = 6 || bitAt (d.rd R.RST_BLK_MODE) c then d.setBlk (some (c, .requested))
  else
    let (n, d) := d.freeVal 8
    (d.setBlk (some (c, .inReset))).enterBlock c n

/-- A write of RST_BLK_CTL with GO (R168). -/
def Dev.blkGo (d : Dev) (value : Nat) : Dev :=
  let c := bits value 0 4
  if !bitAt value 31 then d
  else if 13 < c then d.refuseGo 3
  else if d.isSet R.RST_BLK_STATUS_BUSY then d.refuseGo 2
  else if blkPlanned c && d.planActive then d.refuseGo 1
  else d.acceptGo c

def blockResetGo (m : Master) (value : Nat) (d : Dev) : Dev := d.gated m 0x10024 (fun d => d.blkGo value)

def execBlockResetGo (m : Master) (value : Nat) (s : State) : Host.Outcome State Fault Refusal :=
  onDev (blockResetGo m value) s

/-- The block is idle, so it enters reset (R170); `hot` names the BLOCK reach of R1010. -/
def blockIdle (hot : Bool) (d : Dev) : Dev :=
  if hot then
    if d.rst.hot = some .requested then
      ({ d with rst := { d.rst with hot := some .inReset, hotAt := d.beat } }).enterBlock 6 0
    else d
  else match d.rst.blk with
    | some (c, .requested) => (d.setBlk (some (c, .inReset))).enterBlock c 0
    | _ => d

def execBlockIdleReached (hot : Bool) (s : State) : Host.Outcome State Fault Refusal := onDev (blockIdle hot) s

/-- The block is not idle TO_US after the request (R171). -/
def blockIdleTimeout (hot : Bool) (n : Nat) (d : Dev) : Dev :=
  let wait := 250 * d.rd R.RST_BLK_IDLE_TO
  if hot then
    if d.rst.hot = some .requested ∧ d.rst.hotAt + wait ≤ d.beat then
      ({ d with rst := { d.rst with hot := some .inReset, hotAt := d.beat } }).enterBlock 6 n
    else d
  else match d.rst.blk with
    | some (c, .requested) =>
      if d.rst.blkAt + wait ≤ d.beat then
        ((d.setBlk (some (c, .inReset))).enterBlock c n).wr R.RST_BLK_STATUS_FORCED 1
      else d
    | _ => d

def execBlockIdleTimeout (hot : Bool) (inFlight : Nat) (s : State) : Host.Outcome State Fault Refusal :=
  onDev (blockIdleTimeout hot inFlight) s

/-- After 256 beats the block leaves reset (R172). HIF stays in reset until both resets of R1010 have ended. -/
def blockResetEnd (hot : Bool) (d : Dev) : Dev :=
  if hot then
    if d.rst.hot = some .inReset ∧ d.rst.hotAt + 256 ≤ d.beat then
      let d := { d.inc R.HIF_CNT_HOT_BLOCK with rst := { d.rst with hot := none } }
      if d.inReset 6 then d else d.leaveBlock 6
    else d
  else match d.rst.blk with
    | some (c, .inReset) =>
      if d.rst.blkAt + 256 ≤ d.beat ∧ !(c = 6 ∧ d.rst.hot = some .inReset) then
        let d := (d.wr R.RST_BLK_STATUS_BUSY 0).wr R.RST_BLK_STATUS_DONE 1
        ({ d with rst := { d.rst with blk := none } }).leaveBlock c
      else d
    | _ => d

def execBlockResetEnd (hot : Bool) (s : State) : Host.Outcome State Fault Refusal := onDev (blockResetEnd hot) s

end Sys2Proof.Machine
end

