-- ==== Sys2Proof/Machine/Access.lean ====
section
/-!
DEFINITION. Register accesses (SCO.4, HIF.3): what a write of each word does, SNAP and W1C writes, sizes and alignment
(R9, R10), requests that no BAR takes (R600, R603), DBG_MEM (R996), and writes of the configuration registers that have
no command of their own.
-/

namespace Sys2Proof.Machine

/-! ### Fields of a word -/

/-- First and last-plus-one bit, counted in the field's element at bit address `k`, that lies in the 32 bits from `b`. -/
def partLo (k b : Nat) : Nat := b - k
def partHi (k w b : Nat) : Nat := min w (b + 32 - k)

/-- The bits of a word from bit address `b` that fall on an element at `k`, at their places in the element. -/
def partOf (k w b v : Nat) : Nat := (bits v (k + partLo k b - b) (partHi k w b - partLo k b)) <<< partLo k b

/-- A word written over element `i` of a field: RW bits take it, W1C bits clear where it is 1 (SCO.4). -/
def Dev.putElem (d : Dev) (f g : Fld) (b v i : Nat) : Dev :=
  let k := f.key i
  let lo := partLo k b
  let n := partHi k f.w b - lo
  let x := partOf k f.w b v
  let old := d.rdi g i
  match f.acc with
  | .w1c => d.wri g i ((List.range f.w).foldl (fun a j => putBit a j (bitAt old j && !bitAt x j)) 0)
  | .ro => d
  | .wo => d
  | .snap => d
  | .win => d
  | .lock => d
  | _ => d.wri g i (putBits old lo n (x >>> lo))

/-- A word written over every element that has a bit in it; `place` puts a field where it is stored. -/
def Dev.putFields (d : Dev) (fs : List Fld) (place : Fld → Fld) (b v : Nat) : Dev :=
  fs.foldl (fun a f => (f.elems b).foldl (fun x i => x.putElem f (place f) b v i) a) d

/-- Fields with a bit in the word at byte offset `o`. -/
def fieldsAt (fs : List Fld) (o : Nat) : List Fld := fs.filter (fun f => !(f.elems (8 * o)).isEmpty)

/-- A write of a word with no rule of its own: BOOT fields take it from the boot core before BTP_SEAL only (R217). -/
def Dev.plainWord (d : Dev) (m : Master) (a v : Nat) : Dev :=
  let fs := fieldsAt pfFields a
  if fs.any (fun f => f.acc == .boot) then
    (if m = .boot ∧ !d.isSet R.BTP_SEAL then d.putFields fs id (8 * a) v else d.protection (masterClient m) a)
  else d.putFields fs id (8 * a) v

/-! ### Words with rules of their own -/

/-- RST_CAUSE: a bit whose source is still asserted stays (R166). -/
def Dev.causeClear (d : Dev) (v : Nat) : Dev :=
  let held := d.rst.asserted.map (fun s => s.bit)
  d.wr R.RST_CAUSE ((List.range 12).foldl (fun x i =>
    putBit x i (bitAt (d.rd R.RST_CAUSE) i && (!bitAt v i || held.contains i))) 0)

/-- A value kept when it is in range, else ignored (R335). -/
def Dev.ranged (d : Dev) (f : Fld) (lo hi v : Nat) : Dev := if lo ≤ v ∧ v ≤ hi then d.wr f v else d

/-- The counters of the CAD block. -/
def cadCounters : List Fld :=
  [R.CAD_CNT_QUAD_ERR, R.CAD_CNT_RATE_ERR, R.CAD_CNT_IDX_ERR, R.CAD_CNT_IDX_CORR, R.CAD_CNT_TF_CRC, R.CAD_CNT_TF_DEC,
   R.CAD_CNT_TF_MISS, R.CAD_CNT_PULSE_SHORT, R.CAD_CNT_FS_HELD, R.CAD_CNT_FS_UNANCH, R.CAD_CNT_WIN_TRUNC,
   R.CAD_CNT_WIN_SKIP, R.CAD_CNT_FIRE_MERGE, R.CAD_CNT_RESYNC]

/-- The host may not write the CAD block: a plan is active (R337). -/
def Dev.cadShut (d : Dev) (m : Master) : Bool := masterHost m && d.planActive

/-- A write of CAD_CTL (R301, R308, R337). -/
def Dev.cadCtl (d : Dev) (m : Master) (v : Nat) : Dev :=
  let same := d.rd R.CAD_CTL_SRC == bits v 0 2 && d.rd R.CAD_CTL_ENC_INV == bits v 2 1 && d.rd R.CAD_CTL_SYNC_EDGE == bits v 4 2
  let d := if bitAt v 3 then d.setCad (fun c => { c with hwmSet := true }) else d
  if d.cadShut m then (if same then d else d.accessError (masterClient m) 0x60000)
  else
    let d := (d.wr R.CAD_CTL_SRC (bits v 0 2)).wr R.CAD_CTL_ENC_INV (bits v 2 1)
    let d := d.setCad (fun c => { c with srcPending := c.srcPending || masterHost m })
    d.wr R.CAD_CTL_SYNC_EDGE (bits v 4 2)

/-- CAD_PULSE_PMIN and PMAX: a host write that would cross them is ignored and recorded (R335, R336). -/
def Dev.cadPulse (d : Dev) (m : Master) (a v : Nat) : Dev :=
  let crossed := if a = 0x6001C then decide (d.rd R.CAD_PULSE_PMAX < v) else decide (v < d.rd R.CAD_PULSE_PMIN)
  if v < 250 then d
  else if crossed && masterHost m then d.accessError (masterClient m) a
  else d.wr (if a = 0x6001C then R.CAD_PULSE_PMIN else R.CAD_PULSE_PMAX) v

/-- A write of CAD_ENC_N or CAD_TMR_PERIOD, which sets the phase word anew (R335, R1016). -/
def Dev.cadScale (d : Dev) (f : Fld) (lo hi v : Nat) : Dev :=
  if lo ≤ v ∧ v ≤ hi ∧ v ≠ d.rd f then (d.wr f v).cadRescale else d

/-- A write of a CAD word but for CAD_SNAP (CAD.6). -/
def Dev.cadWord (d : Dev) (m : Master) (a v : Nat) : Dev :=
  if a = 0x60000 then d.cadCtl m v
  else if a = 0x600A4 then d.wr R.CAD_LOG_RD (bits v 0 8)
  else if d.cadShut m then (if (fieldsAt pfFields a).isEmpty then d else d.accessError (masterClient m) a)
  else if a = 0x60008 then d.ranged R.CAD_FILT 10 10000 v
  else if a = 0x6000C then d.ranged R.CAD_STALL_TO 1 100000 v
  else if a = 0x60010 then d.cadScale R.CAD_ENC_N 1 16777216 v
  else if a = 0x60014 then
    let d := if bits v 0 8 = 0 then d else d.wr R.CAD_ENC_CFG_MAXRATE (bits v 0 8)
    let d := if bits v 8 8 = 0 then d else d.wr R.CAD_ENC_CFG_DIR_HYST (bits v 8 8)
    d.wr R.CAD_ENC_CFG_IDX_WIN (bits v 16 16)
  else if a = 0x60018 then
    let d := d.wr R.CAD_TF_CFG_LAT_NS (bits v 0 16)
    let d := if bits v 16 12 = 0 then d else d.wr R.CAD_TF_CFG_TO_US (bits v 16 12)
    if 13 ≤ bits v 28 4 then d else d.wr R.CAD_TF_CFG_JUMP (bits v 28 4)
  else if a = 0x6001C ∨ a = 0x60020 then d.cadPulse m a v
  else if a = 0x60024 then d.cadScale R.CAD_TMR_PERIOD 250 0xFFFFFFFF v
  else d.plainWord m a v

/-- A write of an LPE word but for LPE_SNAP (LPE.8). -/
def Dev.lpeWord (d : Dev) (m : Master) (a v : Nat) : Dev :=
  let o := a - 0x120000
  if a = 0x120000 then clearTrip m v (!d.lpe.faultLow) d
  else if a = 0x120040 then traceArm m v d
  else if 0x1000 ≤ o ∧ o < 0x1180 then lpeBankWrite m 0 ((o - 0x1000) / 4) v d
  else if 0x1200 ≤ o ∧ o < 0x1380 then lpeBankWrite m 1 ((o - 0x1200) / 4) v d
  else
    let fs := fieldsAt pfFields a
    if fs.isEmpty then d
    else if d.planActive && fs.any (fun f => f.acc == .rw) then d.putFields fs id (8 * a) v
    else if masterHost m then d.accessError (masterClient m) a
    else d

/-- A write of an SAD word but for SAD_SNAP (SAD.3). SA12-SA15 have a fixed configuration. -/
def Dev.sadReg (d : Dev) (m : Master) (a v : Nat) : Dev :=
  let n := (a - 0x140100) / 0x20
  let r := a % 0x20
  if a = 0x140004 then sadSyncWrite m v d
  else if a = 0x140008 then sadUrgWrite m v d
  else if a < 0x140100 ∨ 12 ≤ n then d
  else if r = 0 then sadCfgWrite m n v d
  else if r = 4 ∨ r = 8 then d.sadTrim m (decide (r = 8)) n v
  else d

/-- A write of SNAP in the block of an offset (R15); bit 1 of CAD_SNAP clears the counters after the capture. -/
def Dev.snapWord (d : Dev) (a v : Nat) : Dev :=
  let d := if bitAt v 0 then d.snapBlock (a / 0x10000) else d
  if a = 0x60040 ∧ bitAt v 1 then cadCounters.foldl (fun x f => x.wr f 0) d else d

/-- A word of client `c`'s set-up page is written (RNG.1, HIF.4). -/
def Dev.pageWrite (d : Dev) (c o v : Nat) : Dev :=
  let s := (o - 0x200) / 0x20
  let q := (o - 0x300) / 0x20
  let plain (d : Dev) : Dev := d.putFields (fieldsAt pageFieldsAll o) (fun f => f.page c) (8 * o) v
  if !d.pageOk c then d
  else if o = 0x100 ∨ o = 0x104 then (if d.pset c R.RNG_CTL_EN then d else plain d)
  else if o = 0x10C then (if bits v 0 8 = 0 then d else plain d)
  else if o = 0x110 then rngCtl c v d
  else if o = 0x118 then (if bitAt v 0 then d.snapPage c else d)
  else if 0x200 ≤ o ∧ o < 0x300 then
    (if o % 0x20 = 0xC then ringCtl c s v d
     else if o % 0x20 < 0xC ∧ !d.pset c R.RING_CTL_EN s then plain d else d)
  else if 0x300 ≤ o ∧ o < 0x400 then
    (if o % 0x20 = 8 then cplCfg c q v d
     else if o % 0x20 < 8 then (if d.pset c R.CPL_CFG_EN q then d else plain d)
     else if o % 0x20 = 0xC then
       (if bits v 0 8 = 0 then d.pwr c R.CPL_MOD_TIME_US (bits v 16 16) q else plain d)
     else d)
  else if 0x1000 ≤ o ∧ o < 0x1010 then (if d.pset c R.HIF_USE_CTL_EN then d else plain d)
  else if o = 0x1010 then useCtl c v d
  else plain d

/-- An aligned word of PF BAR0 is written and the write reaches it. -/
def Dev.writeWord (d : Dev) (m : Master) (a v : Nat) : Dev :=
  let blk := a / 0x10000
  if 0x200000 ≤ a then d.accessError (masterClient m) a
  else if inPage0 a then d.pageWrite 0 (a - 0xD8000) v
  else if snapOffset blk = some (a % 0x10000) ∧ a < 0x170000 then d.snapWord a v
  else if a = 0x10000 then d.causeClear v
  else if a = 0x10010 then d.hostCmd v
  else if a = 0x10020 then d.wr R.RST_BLK_MODE (putBit v 6 true)
  else if a = 0x10024 then d.blkGo v
  else if a = 0x1002C then (if bits v 0 10 = 0 then d else d.wr R.RST_BLK_IDLE_TO (bits v 0 10))
  else if a = 0x20020 then pwrLegRelease v d
  else if a = 0x20030 then pwrCapWrite v d
  else if a = 0x5002C then (if bitAt v 0 then recoveryGo d else d)
  else if blk = 6 then d.cadWord m a v
  else if a = 0xF0000 then d.lauCtl v
  else if blk = 0x12 then d.lpeWord m a v
  else if blk = 0x14 then d.sadReg m a v
  else if a = 0x150000 then d.rasClear v
  else if a = 0x160004 then d.setAlertMask v
  else d.plainWord m a v

/-- The block of an offset answers: in WAIT_HOST only GLB, RST and BTP do (BOT.1). -/
def Dev.blkAnswers (d : Dev) (a : Nat) : Bool := decide (d.rd R.BTP_STATUS_STEP ≠ 4) || [0, 1, 5].contains (a / 0x10000)

/-- One aligned word written by a master: a VF's page, or PF BAR0 past the checks on the way (Gate.lean). -/
def Dev.write32 (d : Dev) (m : Master) (a v : Nat) : Dev :=
  match m with
  | .vf n => if n ≤ 256 then d.pageWrite n a v else d
  | m => if d.blkAnswers a then d.gated m a (fun d => d.writeWord m a v) else d

/-! ### Requests -/

/-- An offset of PF BAR0, or of a VF's page, that the tables of HIF.3 name (R600). -/
def pfNamed (a : Nat) : Bool :=
  decide (a < 0x170000) || (decide (0x1E0000 ≤ a) && decide (a < 0x1E0400)) || (decide (0x1F0000 ≤ a) && decide (a < 0x1F0008)) ||
    decide (0x200000 ≤ a)
def pageNamed (o : Nat) : Bool :=
  decide (o < 0x80) || (decide (0x100 ≤ o) && decide (o < 0x1100)) || (decide (0xE000 ≤ o) && decide (o < 0xE080)) ||
    (decide (0xF000 ≤ o) && decide (o < 0xF008))

/-- The offset is named for the master. -/
def masterNamed (m : Master) (a : Nat) : Bool :=
  match m with
  | .vf _ => pageNamed a
  | _ => pfNamed a

/-- A master reaches its BAR: a function by the link, with Memory Space Enable and within its BAR; the debug port and the
cores within PF BAR0 (R603, R995). -/
def Dev.reaches (d : Dev) (m : Master) (a : Nat) : Bool :=
  match m with
  | .pf => (d.fn 0).mse && decide (a < 0x400000)
  | .vf n => decide (1 ≤ n) && d.fnHere n && (d.fn n).mse && decide (a < 0x10000)
  | _ => decide (a < 0x400000)

/-- The function that answers a request that reaches no BAR: the addressed one whose Memory Space Enable is 0, and the PF
for one past its BAR (R603, HIF.6). -/
def urFn (m : Master) (a : Nat) : Nat :=
  match m with
  | .vf n => if a < 0x10000 then n else 0
  | _ => 0

/-- A request comes by the link. -/
def onLink (m : Master) : Bool :=
  match m with
  | .pf => true
  | .vf _ => true
  | _ => false

/-- The request meets the device: the link is up for a function's, no episode for the others. -/
def Dev.hears (d : Dev) (m : Master) : Bool := d.running && (!onLink m || d.isSet R.HIF_LINK_DL_UP)

/-- An access error of a master at an offset it reached (R10). -/
def Dev.sizeError (d : Dev) (m : Master) (a : Nat) : Dev :=
  match m with
  | .vf n => d.pageError n a
  | m => d.accessError (masterClient m) a

/-- The host's 64-bit write loses when either of its words does (R17). -/
def Dev.lost64 (d : Dev) (m : Master) (a : Nat) : Bool := masterHost m && !masterVf m && (d.lostWrite a || d.lostWrite (a + 4))

/-- A size and alignment that R9 supports. -/
def sizeOk (a size : Nat) : Bool := (size == 4 && a % 4 == 0) || (size == 8 && a % 8 == 0)

/-- A register write of 1, 2, 4 or 8 bytes (R9, R10, R600). -/
def Dev.writeReg (d : Dev) (m : Master) (a size v : Nat) : Dev :=
  if !masterNamed m a then d
  else if !sizeOk a size then d.sizeError m a
  else if size = 4 then d.write32 m a v
  else if d.lost64 m a then d.rasEvent 2 (blockOf a) (masterClient m) a
  else (d.write32 m a (bits v 0 32)).write32 m (a + 4) (bits v 32 32)

/-! ### Configuration writes with no command of their own -/

/-- First address that stands for a function's configuration registers: +0 Command, +4 MSI-X Message Control, +8 Device
Control, +12 AER status. -/
def cfgBase : Nat := 2 ^ 40

/-- Errors of AER in the order of their bits in the model's AER status word. -/
def aerBits : List AerErr :=
  [.receiver, .badTlp, .badDllp, .replayTimeout, .replayRollover, .dataLink, .flowControl, .overflow, .malformed, .poisoned,
   .cplTimeout, .unexpectedCpl, .unsupported, .hdrOverflow]

/-- Clear AER status bits (W1C); the header is released with the last error that has one. -/
def Fn.aerClear (x : Fn) (v : Nat) : Fn :=
  let left := x.aer.filter (fun e => !bitAt v (aerBits.idxOf e))
  { x with aer := left, hdr := if left.any (fun e => e.hasHeader) then x.hdr else none }

/-- A write of a configuration register of function `f` (HIF.2, R596, R603, R605). -/
def Dev.cfgWrite (d : Dev) (f o v : Nat) : Dev :=
  let x := d.fn f
  if !d.cfgOk f then d
  else if o = 0 then d.setFn f { x with mse := bitAt v 1, bme := bitAt v 2 }
  else if o = 4 then d.setFn f { x with msixEn := bitAt v 15, fmask := bitAt v 14 }
  else if o = 8 then
    (if f ≠ 0 then d
     else
       let y := if bits v 5 3 ≤ 2 then { x with mps := 128 * 2 ^ bits v 5 3 } else x
       d.setFn f (if bits v 12 3 ≤ 5 then { y with mrrs := 128 * 2 ^ bits v 12 3 } else y))
  else if o = 12 then d.setFn f (x.aerClear v)
  else d

/-- The function a master is. -/
def masterFn (m : Master) : Option Nat :=
  match m with
  | .pf => some 0
  | .vf n => if n ≤ 256 then some n else none
  | _ => none

/-! ### Commands -/

/-- A write of a register with no command of its own (R10, R17, R600, R603). -/
def registerWrite (m : Master) (a size v : Nat) (d : Dev) : Dev :=
  if cfgBase ≤ a then (match masterFn m with
    | some f => d.cfgWrite f (a - cfgBase) v
    | none => d)
  else if !d.hears m then d
  else if d.reaches m a then d.writeReg m a size v
  else if onLink m then d.answerUr (urFn m a) []
  else d

def execRegisterWrite (m : Master) (addr size value : Nat) (s : State) : Host.Outcome State Fault Refusal :=
  onDev (registerWrite m addr size value) s

/-- The value that a read returns, with what it latches (R9-R16, R600). -/
def Dev.readValue (d : Dev) (m : Master) (a size : Nat) : Nat × Dev :=
  if !masterNamed m a then (0, d)
  else if sizeOk a size && !masterVf m && !d.blkAnswers a then (0, d)
  else d.readReg m a size

/-- A register read (R10-R16, R600, R603). -/
def registerRead (m : Master) (a size : Nat) (d : Dev) : Dev :=
  if !d.hears m then d
  else if d.reaches m a then
    let (v, d) := d.readValue m a size
    d.emit (.readData v size)
  else if onLink m then d.answerUr (urFn m a) []
  else d

def execRegisterRead (m : Master) (addr size : Nat) (s : State) : Host.Outcome State Fault Refusal :=
  onDev (registerRead m addr size) s

/-- A write of a block's SNAP register, or of RNG_SNAP (R15, R17). -/
def blockSnap (m : Master) (a v : Nat) (d : Dev) : Dev :=
  if !d.hears m then d
  else match m with
  | .vf n => if n ≤ 256 ∧ a = 0x118 then d.pageWrite n a v else d
  | m => if a < 0x170000 ∧ (snapOffset (a / 0x10000) = some (a % 0x10000) ∨ a = 0xD8118) then d.write32 m a v else d

def execBlockSnap (m : Master) (addr value : Nat) (s : State) : Host.Outcome State Fault Refusal :=
  onDev (blockSnap m addr value) s

/-- A write of a word with W1C bits (SCO.4, R166, R969). -/
def w1cWrite (m : Master) (a v : Nat) (d : Dev) : Dev :=
  if d.hears m && !masterVf m && a % 4 == 0 && (fieldsAt pfFields a).any (fun f => f.acc == .w1c) then d.write32 m a v else d

def execW1cWrite (m : Master) (addr value : Nat) (s : State) : Host.Outcome State Fault Refusal :=
  onDev (w1cWrite m addr value) s

/-- A write of CAD_CTL with HWM_SET (R301, R337). -/
def hwmSetWrite (m : Master) (v : Nat) (d : Dev) : Dev := d.gated m 0x60000 (fun d => d.cadCtl m v)

def execHwmSet (m : Master) (value : Nat) (s : State) : Host.Outcome State Fault Refusal := onDev (hwmSetWrite m value) s

/-- Writes of LAU_CTL (R752): FREEZE 1, FREEZE 0, ROLLBACK, REBASE and CKPT. -/
def lauCtlWrite (m : Master) (v : Nat) (d : Dev) : Dev := d.gated m 0xF0000 (fun d => d.lauCtl v)
def lauFreeze (m : Master) (v : Nat) (d : Dev) : Dev := lauCtlWrite m v d
def lauUnfreeze (m : Master) (v : Nat) (d : Dev) : Dev := lauCtlWrite m v d
def lauRollback (m : Master) (v : Nat) (d : Dev) : Dev := lauCtlWrite m v d
def lauRebase (m : Master) (v : Nat) (d : Dev) : Dev := lauCtlWrite m v d
def lauCkpt (m : Master) (v : Nat) (d : Dev) : Dev := lauCtlWrite m v d
def execLauFreeze (m : Master) (value : Nat) (s : State) : Host.Outcome State Fault Refusal := onDev (lauFreeze m value) s
def execLauUnfreeze (m : Master) (value : Nat) (s : State) : Host.Outcome State Fault Refusal := onDev (lauUnfreeze m value) s
def execLauRollback (m : Master) (value : Nat) (s : State) : Host.Outcome State Fault Refusal := onDev (lauRollback m value) s
def execLauRebase (m : Master) (value : Nat) (s : State) : Host.Outcome State Fault Refusal := onDev (lauRebase m value) s
def execLauCkpt (m : Master) (value : Nat) (s : State) : Host.Outcome State Fault Refusal := onDev (lauCkpt m value) s

/-- Update-DR of DBG_MEM (R995, R996): what the last access read is captured, then the update makes one aligned access
as client 0 through PF BAR0. -/
def dbgMem (u : Nat) (d : Dev) : Dev :=
  let open_ := decide (d.rd R.MGT_DBG_SCOPE ≠ 0)
  let d := d.emit (tdo64 (if open_ then d.dbg.mem else 0))
  let a := 4 * bits u 32 22
  if !open_ || !d.hears .dbg then d
  else if bitAt u 63 then (if d.reaches .dbg a then d.writeReg .dbg a 4 (bits u 0 32) else d)
  else if d.reaches .dbg a then
    let (v, d) := d.readValue .dbg a 4
    d.setDbg (fun x => { x with mem := v })
  else d.setDbg (fun x => { x with mem := 0 })

def execDbgMem (update : Nat) (s : State) : Host.Outcome State Fault Refusal := onDev (dbgMem update) s

end Sys2Proof.Machine
end

