-- ==== Sys2Proof/Machine/Turn.lean ====
section
/-!
DEFINITION. Turns (R399, R670, R950): which ring's command takes the next step of a client in a slot, and the rows that
take steps.
-/

namespace Sys2Proof.Machine

/-- Key of the room that a step of at least `n` beats finds now. -/
def Dev.roomKey (d : Dev) (c : Nat) (k : Cmd) (need : Need) (n : Nat) : Option Nat :=
  match d.room c need k.firstOf with
  | some (key, _, left) => if n ≤ left then some key else none
  | none => none

/-- Key of the room that a step over elements finds now. -/
def Dev.elemKey (d : Dev) (c : Nat) (k : Cmd) (rate total : Nat) : Option Nat :=
  match d.room c vuNeed k.firstOf with
  | some (key, _, left) => (elemStep rate left (total - k.pos)).map (fun _ => key)
  | none => none

/-- A TRAIN_STEP past its image: its next step, but for the commit. -/
def Dev.trainKey (d : Dev) (c : Nat) (k : Cmd) : Option Nat :=
  if k.stage = 1 then d.roomKey c k {} 64
  else if k.stage = 2 then d.elemKey c k 256 (d.elemSum k.reinits)
  else if k.stage = 3 then
    if !d.runReady c k (tiSec k.data) || (2 ≤ k.runNeed.units && !d.busOk c) then none
    else d.roomKey c k k.runNeed (csSpan (tiSec k.data) + d.accBeats k)
  else if k.stage = 4 then d.elemKey c k 128 (d.elemSum k.groups)
  else none

/-- A SOLVE_QP that has the solver. -/
def Dev.qpKey (d : Dev) (c : Nat) (k : Cmd) : Option Nat :=
  match d.qps.run with
  | some r =>
    if r.owner ≠ some (c, k.seqNo) ∨ k.stage ≠ 1 ∨ r.overflow ∨ qpK r.sec ≤ r.it ∨ !d.busOk c ∨ !d.works 12 then none
    else d.roomKey c k qpNeed (max 1 (min 1000 (qpFormBeats r.sec + (r.it + 1) * qpIterBeats r.sec - k.pos)))
  | none => none

/-- A PLAN_STAGE: a copy step, or an admission step when every byte has come. -/
def Dev.stageKey (d : Dev) (k : Cmd) : Option Nat :=
  if d.sq.staging.all (fun st => st.seqNo != k.seqNo) || (if k.pos < k.total then !d.busOk 0 else k.awaiting != 0) then none
  else d.roomKey 0 k hkpNeed 1000

/-- An update command's job has a step to take. -/
def UpdJob.hasStep (j : UpdJob) (k : Cmd) : Bool :=
  if j.phase = .otpBurn then j.data != []
  else if j.op = opChunk ∧ j.phase = .program then decide (min k.total (j.pos + 4096) ≤ k.data.length)
  else true

/-- An update command. -/
def Dev.jobKey (d : Dev) (k : Cmd) : Option Nat :=
  match d.boot.job, d.hkpRoom with
  | some j, some (_, _, left) => if j.ring = k.ring ∧ j.op = k.op ∧ j.hasStep k ∧ 1000 ≤ left then some 0 else none
  | _, _ => none

/-- The key under which the command of a ring has a step ready now; none where it has none. -/
def Dev.readyKey (d : Dev) (c s : Nat) : Option Nat :=
  match d.head c s with
  | some k =>
    if k.phase ≠ .running ∨ !d.running ∨ d.inReset 6 then none
    else if k.movesIn.isSome ∧ k.pos < k.total then (if d.busOk c then d.roomKey c k k.moveNeed 16 else none)
    else if k.op = opSection then
      if k.stage ≠ 1 ∨ !d.runReady c k k.data ∨ (2 ≤ (csNeed k.data).units ∧ !d.busOk c) then none
      else d.roomKey c k (csNeed k.data) (csSpan k.data)
    else if k.op = opTrain then d.trainKey c k
    else if k.op = opQp then d.qpKey c k
    else if k.op = opStats then (if d.busOk c then d.roomKey c k {} 16 else none)
    else if c ≠ 0 then none
    else if k.op = opStage then d.stageKey k
    else if k.op = opArm then
      if d.sq.arm.any (fun a => a.seqNo == k.seqNo) then d.roomKey c k hkpNeed 1000 else none
    else d.jobKey k
  | none => none

/-- A commit step comes first in the HOUSEKEEPING slot of now (R950). -/
def Dev.commitDue (d : Dev) : Bool :=
  match d.hkpRoom with
  | some (sl, _, left) => !d.sq.commits.contains sl.start && !d.stepsBegun sl &&
      d.clients.any (fun e => !d.commitBefore e.1 && e.2.cmds.any (fun k =>
        k.op == opTrain && k.phase == .running && k.stage == 5 && decide (16 + cdiv (d.commitLen k) 1024 ≤ left)))
  | none => false

/-- A slot of the kind that a key stands for has begun after beat `b`. -/
def Dev.slotSince (d : Dev) (c key b : Nat) : Bool :=
  let now := max d.frameBeat (sget 0 d.sq.used key)
  d.slotsNow.any (fun k => (if key = 0 then k.kind == 4 else k.kind == 2 && k.client == c) &&
    decide (b < d.sq.frameAt.getD 0 + k.start ∧ k.start ≤ now))

/-- None of the rings after `l` and before `s` has a step ready under the key. -/
def Dev.noneBetween (d : Dev) (c key l s : Nat) : Bool :=
  (ringsAfter l ((s + 7 - l) % 8)).all (fun t => d.readyKey c t != some key)

/-- It is the turn of a ring: no ring between the last served and it has a step ready; at its first step a slot may also
begin with the lowest ring. No commit step comes first. A ring without a step ready has no turn to wait for. -/
def Dev.myTurn (d : Dev) (c s : Nat) : Bool :=
  match d.readyKey c s with
  | some key =>
    let last := sget (0, 7) d.sq.turn (turnKey c key)
    !(key == 0 && d.commitDue) &&
      (d.noneBetween c key (last.2 % 8) s || d.slotSince c key last.1 && d.noneBetween c key 7 s)
  | none => true

/-- Do a step when it is the ring's turn. -/
def Dev.inTurn (d : Dev) (c s : Nat) (f : Dev → Dev) : Dev := if d.myTurn c s then f d else d

/-! ### Rows that take steps -/

/-- One transfer step of a ring's running command; a SOLVE_QP that ends with it frees the solver. -/
def execTensorTransferStep (client ring beats : Nat) (s : State) : Host.Outcome State Fault Refusal :=
  unit (decide (client ≤ 256 ∧ ring < 8))
    (onDev (fun d => (d.inTurn client ring (transferStep client ring beats)).qpSettle) s)

/-- READ_STATS: it starts, and its one step runs when it fits. -/
def readStats (c s : Nat) (d : Dev) : Dev := (d.start c s opStats (fun k d => d.startStats c k)).inTurn c s (statsStep c s)

def execReadStats (client ring : Nat) (s : State) : Host.Outcome State Fault Refusal :=
  unit (decide (client ≤ 256 ∧ ring < 8)) (onDev (readStats client ring) s)

def execSectionRun (client ring : Nat) (host : List (List Nat)) (s : State) : Host.Outcome State Fault Refusal :=
  unit (decide (client ≤ 256 ∧ ring < 8)) (onDev (fun d => d.inTurn client ring (sectionRun client ring host)) s)

def execTrainCheckStep (client ring : Nat) (s : State) : Host.Outcome State Fault Refusal :=
  unit (decide (client ≤ 256 ∧ ring < 8)) (onDev (fun d => d.inTurn client ring (trainCheck client ring)) s)

def execTrainInitStep (client ring : Nat) (s : State) : Host.Outcome State Fault Refusal :=
  unit (decide (client ≤ 256 ∧ ring < 8)) (onDev (fun d => d.inTurn client ring (trainInit client ring)) s)

def execTrainRunStep (client ring : Nat) (host : List (List Nat)) (s : State) : Host.Outcome State Fault Refusal :=
  unit (decide (client ≤ 256 ∧ ring < 8)) (onDev (fun d => d.inTurn client ring (trainRun client ring host)) s)

def execTrainUpdateStep (client ring : Nat) (s : State) : Host.Outcome State Fault Refusal :=
  unit (decide (client ≤ 256 ∧ ring < 8)) (onDev (fun d => d.inTurn client ring (trainUpdate client ring)) s)

def execPlanStageStep (ring : Nat) (bytes : List Nat) (s : State) : Host.Outcome State Fault Refusal :=
  unit (decide (ring < 8)) (onDev (fun d => d.inTurn 0 ring (planStageStep ring bytes)) s)

/-- PLAN_ARM: it starts, and takes its steps one after the other. -/
def planArm (s : Nat) (d : Dev) : Dev := (d.start 0 s opArm (fun k d => d.startArm k)).inTurn 0 s (planArmStep s)

def execPlanArm (ring : Nat) (s : State) : Host.Outcome State Fault Refusal :=
  unit (decide (ring < 8)) (onDev (planArm ring) s)

/-- A solver iteration ends (R911); one of a SOLVE_QP is a step of its ring. -/
def qpIterationEnd (d : Dev) : Dev :=
  if !d.works 12 then d
  else match d.qps.run with
    | some r => match r.owner with
      | some (c, n) => match d.cmd? c n with
        | some k => d.inTurn c k.ring (fun d => d.clientIter r c n)
        | none => d
      | none => d.loopIter r
    | none => d

def execQpIterationEnd (s : State) : Host.Outcome State Fault Refusal := onDev qpIterationEnd s

/-- The update job's step has its turn; firmware's own work waits for no ring. -/
def Dev.jobTurn (d : Dev) : Bool :=
  match d.boot.job with
  | some j => (d.jobCmd j).isNone || d.myTurn 0 j.ring
  | none => true

/-- Do a step of the update job in its turn. -/
def jobInTurn (f : Nv → Dev → Nv × Dev) (nv : Nv) (d : Dev) : Nv × Dev := if d.jobTurn then f nv d else (nv, d)

def execFlashOpStep (ok : Bool) (s : State) : Host.Outcome State Fault Refusal := onAll (jobInTurn (flashOpStep ok)) s

def execFuseBurnStep (pulses : Nat) (s : State) : Host.Outcome State Fault Refusal := onAll (jobInTurn (fuseBurn pulses)) s

def execOtpBurnStep (stuck : List Nat) (s : State) : Host.Outcome State Fault Refusal := onAll (jobInTurn (otpBurn stuck)) s

end Sys2Proof.Machine
end

