-- ==== Sys2Proof/Machine/Dispatch.lean ====
section
/-!
DEFINITION. One arm for each command: the meaning it calls.
-/

namespace Sys2Proof.Machine

/-- The effect of a command on everything but the queue. -/
def exec (i : Instr) (s : State) : Host.Outcome State Fault Refusal :=
  match i with
  | .vauxValid => Sys2Proof.Machine.execVauxValid s
  | .vauxLoss => Sys2Proof.Machine.execVauxLoss s
  | .vin12Valid => Sys2Proof.Machine.execVin12Valid s
  | .brownOut => Sys2Proof.Machine.execBrownOut s
  | .inputOc => Sys2Proof.Machine.execInputOc s
  | .railRampDone rail => Sys2Proof.Machine.execRailRampDone rail s
  | .start rail => Sys2Proof.Machine.execStart rail s
  | .railDischargeDone rail => Sys2Proof.Machine.execRailDischargeDone rail s
  | .ov rail => Sys2Proof.Machine.execOv rail s
  | .uv rail => Sys2Proof.Machine.execUv rail s
  | .legComparatorTrip leg cycle hard => Sys2Proof.Machine.execLegComparatorTrip leg cycle hard s
  | .legUnpark rail leg => Sys2Proof.Machine.execLegUnpark rail leg s
  | .capacityFinding rail => Sys2Proof.Machine.execCapacityFinding rail s
  | .pwrLegRelease value => Sys2Proof.Machine.execPwrLegRelease value s
  | .pwrCapWrite m value => Sys2Proof.Machine.execPwrCapWrite m value s
  | .powerTelemetryWindow mv cur power energy rails => Sys2Proof.Machine.execPowerTelemetryWindow mv cur power energy rails s
  | .railRetry req => Sys2Proof.Machine.execRailRetry req s
  | .railRetryUpDone => Sys2Proof.Machine.execRailRetryUpDone s
  | .nrstInRecognised high => Sys2Proof.Machine.execNrstInRecognised high s
  | .perstNRecognised high => Sys2Proof.Machine.execPerstNRecognised high s
  | .hostResetWarm value => Sys2Proof.Machine.execHostResetWarm value s
  | .hostResetDevice value => Sys2Proof.Machine.execHostResetDevice value s
  | .pcieHotReset => Sys2Proof.Machine.execPcieHotReset s
  | .pcieLinkDown => Sys2Proof.Machine.execPcieLinkDown s
  | .bootWatchdogExpiry => Sys2Proof.Machine.execBootWatchdogExpiry s
  | .fwWatchdogExpiry core => Sys2Proof.Machine.execFwWatchdogExpiry core s
  | .episodeHoldEnd => Sys2Proof.Machine.execEpisodeHoldEnd s
  | .otpSelect => Sys2Proof.Machine.execOtpSelect s
  | .strapStep bootSrc clkMode freq => Sys2Proof.Machine.execStrapStep bootSrc clkMode freq s
  | .strapRetry bootSrc clkMode freq => Sys2Proof.Machine.execStrapRetry bootSrc clkMode freq s
  | .refclkLoss => Sys2Proof.Machine.execRefclkLoss s
  | .bootRomStart sfdpOk => Sys2Proof.Machine.execBootRomStart sfdpOk s
  | .episodeEnd => Sys2Proof.Machine.execEpisodeEnd s
  | .bootStageRun burnOk => Sys2Proof.Machine.execBootStageRun burnOk s
  | .fwReady ms => Sys2Proof.Machine.execFwReady ms s
  | .fallbackRecordWrite readBack => Sys2Proof.Machine.execFallbackRecordWrite readBack s
  | .autoConfirm readBack => Sys2Proof.Machine.execAutoConfirm readBack s
  | .recoveryGo => Sys2Proof.Machine.execRecoveryGo s
  | .recoveryBundleChecked bundle => Sys2Proof.Machine.execRecoveryBundleChecked bundle s
  | .functionReach vf => Sys2Proof.Machine.execFunctionReach vf s
  | .functionReachEnd vf => Sys2Proof.Machine.execFunctionReachEnd vf s
  | .blockResetGo m value => Sys2Proof.Machine.execBlockResetGo m value s
  | .blockIdleReached hot => Sys2Proof.Machine.execBlockIdleReached hot s
  | .blockIdleTimeout hot inFlight => Sys2Proof.Machine.execBlockIdleTimeout hot inFlight s
  | .blockResetEnd hot => Sys2Proof.Machine.execBlockResetEnd hot s
  | .opticalLaserRampEnd missing engineDead => Sys2Proof.Machine.execOpticalLaserRampEnd missing engineDead s
  | .ringLockEnd unlocked => Sys2Proof.Machine.execRingLockEnd unlocked s
  | .quickCalPass sweeps => Sys2Proof.Machine.execQuickCalPass sweeps s
  | .readySet ms => Sys2Proof.Machine.execReadySet ms s
  | .tier1Trained failed => Sys2Proof.Machine.execTier1Trained failed s
  | .tier2Trained sizes => Sys2Proof.Machine.execTier2Trained sizes s
  | .cadAcquireStart => Sys2Proof.Machine.execCadAcquireStart s
  | .encoderEdge pinB forward stamp => Sys2Proof.Machine.execEncoderEdge pinB forward stamp s
  | .encoderIndex => Sys2Proof.Machine.execEncoderIndex s
  | .rateWindowEnd => Sys2Proof.Machine.execRateWindowEnd s
  | .tframeReceived codeOk chars => Sys2Proof.Machine.execTframeReceived codeOk chars s
  | .tframeTimeout => Sys2Proof.Machine.execTframeTimeout s
  | .pulseEdge => Sys2Proof.Machine.execPulseEdge s
  | .setpEdge stamp => Sys2Proof.Machine.execSetpEdge stamp s
  | .syncInEdge rising => Sys2Proof.Machine.execSyncInEdge rising s
  | .phaseBeat => Sys2Proof.Machine.execPhaseBeat s
  | .motionStall => Sys2Proof.Machine.execMotionStall s
  | .hwmSet m value => Sys2Proof.Machine.execHwmSet m value s
  | .frameStartRow row => Sys2Proof.Machine.execFrameStartRow row s
  | .winOpen row => Sys2Proof.Machine.execWinOpen row s
  | .winClose row => Sys2Proof.Machine.execWinClose row s
  | .loopSample row => Sys2Proof.Machine.execLoopSample row s
  | .decStrobe row => Sys2Proof.Machine.execDecStrobe row s
  | .planArmRow row => Sys2Proof.Machine.execPlanArmRow row s
  | .sadSync row => Sys2Proof.Machine.execSadSync row s
  | .heldLoopSample => Sys2Proof.Machine.execHeldLoopSample s
  | .unanchoredFrameStart => Sys2Proof.Machine.execUnanchoredFrameStart s
  | .frameBoundary => Sys2Proof.Machine.execFrameBoundary s
  | .frameEnd => Sys2Proof.Machine.execFrameEnd s
  | .seamDrain bad => Sys2Proof.Machine.execSeamDrain bad s
  | .weightSwap => Sys2Proof.Machine.execWeightSwap s
  | .remapBeat => Sys2Proof.Machine.execRemapBeat s
  | .fetchItem item => Sys2Proof.Machine.execFetchItem item s
  | .fetchDataArrived item ecc => Sys2Proof.Machine.execFetchDataArrived item ecc s
  | .storeItem item => Sys2Proof.Machine.execStoreItem item s
  | .tileItem item => Sys2Proof.Machine.execTileItem item s
  | .dmuItem item => Sys2Proof.Machine.execDmuItem item s
  | .vuItem item => Sys2Proof.Machine.execVuItem item s
  | .scanItem item => Sys2Proof.Machine.execScanItem item s
  | .quantItem item => Sys2Proof.Machine.execQuantItem item s
  | .decideItem item => Sys2Proof.Machine.execDecideItem item s
  | .buildItem item => Sys2Proof.Machine.execBuildItem item s
  | .decisionBeat => Sys2Proof.Machine.execDecisionBeat s
  | .decPulseEnd line => Sys2Proof.Machine.execDecPulseEnd line s
  | .housekeepingSlot => Sys2Proof.Machine.execHousekeepingSlot s
  | .doorbellRecordArrived client bytes => Sys2Proof.Machine.execDoorbellRecordArrived client bytes s
  | .descriptorArrived client ring bytes => Sys2Proof.Machine.execDescriptorArrived client ring bytes s
  | .hostCompletionArrived client ring kind bytes => Sys2Proof.Machine.execHostCompletionArrived client ring kind bytes s
  | .completionTimeout client ring => Sys2Proof.Machine.execCompletionTimeout client ring s
  | .nop client ring => Sys2Proof.Machine.execNop client ring s
  | .fence client ring => Sys2Proof.Machine.execFence client ring s
  | .loadTensor client ring => Sys2Proof.Machine.execLoadTensor client ring s
  | .storeTensor client ring => Sys2Proof.Machine.execStoreTensor client ring s
  | .tensorTransferStep client ring beats => Sys2Proof.Machine.execTensorTransferStep client ring beats s
  | .runSection client ring => Sys2Proof.Machine.execRunSection client ring s
  | .sectionRun client ring host => Sys2Proof.Machine.execSectionRun client ring host s
  | .trainStep client ring => Sys2Proof.Machine.execTrainStep client ring s
  | .trainCheckStep client ring => Sys2Proof.Machine.execTrainCheckStep client ring s
  | .trainInitStep client ring => Sys2Proof.Machine.execTrainInitStep client ring s
  | .trainRunStep client ring host => Sys2Proof.Machine.execTrainRunStep client ring host s
  | .trainUpdateStep client ring => Sys2Proof.Machine.execTrainUpdateStep client ring s
  | .trainCommitStep client ring => Sys2Proof.Machine.execTrainCommitStep client ring s
  | .solveQp client ring => Sys2Proof.Machine.execSolveQp client ring s
  | .readTrace client ring => Sys2Proof.Machine.execReadTrace client ring s
  | .readStats client ring => Sys2Proof.Machine.execReadStats client ring s
  | .readCurves client ring => Sys2Proof.Machine.execReadCurves client ring s
  | .readMonitors client ring => Sys2Proof.Machine.execReadMonitors client ring s
  | .recalRow client ring => Sys2Proof.Machine.execRecalRow client ring s
  | .tableWrite client ring => Sys2Proof.Machine.execTableWrite client ring s
  | .planStage ring => Sys2Proof.Machine.execPlanStage ring s
  | .planStageStep ring bytes => Sys2Proof.Machine.execPlanStageStep ring bytes s
  | .planArm ring => Sys2Proof.Machine.execPlanArm ring s
  | .fwChunk ring => Sys2Proof.Machine.execFwChunk ring s
  | .fwVerify ring => Sys2Proof.Machine.execFwVerify ring s
  | .fwActivate ring => Sys2Proof.Machine.execFwActivate ring s
  | .fwConfirm ring => Sys2Proof.Machine.execFwConfirm ring s
  | .flashOpStep ok => Sys2Proof.Machine.execFlashOpStep ok s
  | .fuseBurnStep pulses => Sys2Proof.Machine.execFuseBurnStep pulses s
  | .otpOptionWrite ring => Sys2Proof.Machine.execOtpOptionWrite ring s
  | .otpBurnStep stuck => Sys2Proof.Machine.execOtpBurnStep stuck s
  | .rngCtlEnable client value => Sys2Proof.Machine.execRngCtlEnable client value s
  | .cplRingEnable client q value => Sys2Proof.Machine.execCplRingEnable client q value s
  | .ringEnable client sl value => Sys2Proof.Machine.execRingEnable client sl value s
  | .ringDisable client sl value => Sys2Proof.Machine.execRingDisable client sl value s
  | .ringResume client sl value => Sys2Proof.Machine.execRingResume client sl value s
  | .ringStop client sl value => Sys2Proof.Machine.execRingStop client sl value s
  | .useRangeEnable client value => Sys2Proof.Machine.execUseRangeEnable client value s
  | .vfEnableSet numVfs => Sys2Proof.Machine.execVfEnableSet numVfs s
  | .vfReady => Sys2Proof.Machine.execVfReady s
  | .vfEnableClear => Sys2Proof.Machine.execVfEnableClear s
  | .busMasterEnableChange fn on => Sys2Proof.Machine.execBusMasterEnableChange fn on s
  | .pfPowerStateChange d3hot => Sys2Proof.Machine.execPfPowerStateChange d3hot s
  | .pcieLinkUp speed width => Sys2Proof.Machine.execPcieLinkUp speed width s
  | .unsupportedRequest fn hdr => Sys2Proof.Machine.execUnsupportedRequest fn hdr s
  | .tlpErrorReceived err hdr => Sys2Proof.Machine.execTlpErrorReceived err hdr s
  | .msixUnmask fn vec => Sys2Proof.Machine.execMsixUnmask fn vec s
  | .streamPortLinkUp aet port => Sys2Proof.Machine.execStreamPortLinkUp aet port s
  | .streamPortLinkDown aet port => Sys2Proof.Machine.execStreamPortLinkDown aet port s
  | .streamFrameArrived port linkOk first fill frame => Sys2Proof.Machine.execStreamFrameArrived port linkOk first fill frame s
  | .hitExtraction die count => Sys2Proof.Machine.execHitExtraction die count s
  | .hitExtractTimeout die => Sys2Proof.Machine.execHitExtractTimeout die s
  | .streamWindowTimeout stream => Sys2Proof.Machine.execStreamWindowTimeout stream s
  | .windowFinal stream => Sys2Proof.Machine.execWindowFinal stream s
  | .featureSetComplete => Sys2Proof.Machine.execFeatureSetComplete s
  | .lauFreeze m value => Sys2Proof.Machine.execLauFreeze m value s
  | .lauUnfreeze m value => Sys2Proof.Machine.execLauUnfreeze m value s
  | .lauRollback m value => Sys2Proof.Machine.execLauRollback m value s
  | .lauRebase m value => Sys2Proof.Machine.execLauRebase m value s
  | .lauCkpt m value => Sys2Proof.Machine.execLauCkpt m value s
  | .lockinVisitEnd tile index inWindow atEnd => Sys2Proof.Machine.execLockinVisitEnd tile index inWindow atEnd s
  | .sweepEnd sweep => Sys2Proof.Machine.execSweepEnd sweep s
  | .m0Sample engine powers => Sys2Proof.Machine.execM0Sample engine powers s
  | .monitorSample tile readings => Sys2Proof.Machine.execMonitorSample tile readings s
  | .engineBiasLimit engine => Sys2Proof.Machine.execEngineBiasLimit engine s
  | .tier1Refresh stack beats => Sys2Proof.Machine.execTier1Refresh stack beats s
  | .tier2Refresh channel beats => Sys2Proof.Machine.execTier2Refresh channel beats s
  | .tier2MaintenanceWindow channel => Sys2Proof.Machine.execTier2MaintenanceWindow channel s
  | .dimmAlert channel => Sys2Proof.Machine.execDimmAlert channel s
  | .retentionCopyDone path => Sys2Proof.Machine.execRetentionCopyDone path s
  | .pathTxOpportunity path => Sys2Proof.Machine.execPathTxOpportunity path s
  | .ackReceived port frame => Sys2Proof.Machine.execAckReceived port frame s
  | .helloAckReceived port frame => Sys2Proof.Machine.execHelloAckReceived port frame s
  | .decisionReceived port frame => Sys2Proof.Machine.execDecisionReceived port frame s
  | .aetFrameDiscard port frame => Sys2Proof.Machine.execAetFrameDiscard port frame s
  | .rtoExpiry path => Sys2Proof.Machine.execRtoExpiry path s
  | .giveupExpiry path => Sys2Proof.Machine.execGiveupExpiry path s
  | .pfcReceived port frame => Sys2Proof.Machine.execPfcReceived port frame s
  | .aetRxBufferLevel port high => Sys2Proof.Machine.execAetRxBufferLevel port high s
  | .sadWordDelivery ch raw ovr => Sys2Proof.Machine.execSadWordDelivery ch raw ovr s
  | .sadSyncWrite m value => Sys2Proof.Machine.execSadSyncWrite m value s
  | .sadCfgWrite m ch value => Sys2Proof.Machine.execSadCfgWrite m ch value s
  | .sadUrgWrite m value => Sys2Proof.Machine.execSadUrgWrite m value s
  | .urgentRequestAct ch => Sys2Proof.Machine.execUrgentRequestAct ch s
  | .loopTimerSample => Sys2Proof.Machine.execLoopTimerSample s
  | .loopOutputBeat => Sys2Proof.Machine.execLoopOutputBeat s
  | .driveFault => Sys2Proof.Machine.execDriveFault s
  | .swap m value => Sys2Proof.Machine.execSwap m value s
  | .clearTrip m value faultHigh => Sys2Proof.Machine.execClearTrip m value faultHigh s
  | .lpeBankWrite m bank word value => Sys2Proof.Machine.execLpeBankWrite m bank word value s
  | .traceArm m value => Sys2Proof.Machine.execTraceArm m value s
  | .qpSolveStart => Sys2Proof.Machine.execQpSolveStart s
  | .qpIterationEnd => Sys2Proof.Machine.execQpIterationEnd s
  | .qpDelivery => Sys2Proof.Machine.execQpDelivery s
  | .thermalSample readings ref14 ref15 => Sys2Proof.Machine.execThermalSample readings ref14 ref15 s
  | .heartbeatTimeout core => Sys2Proof.Machine.execHeartbeatTimeout core s
  | .status req => Sys2Proof.Machine.execStatus req s
  | .telemetry req => Sys2Proof.Machine.execTelemetry req s
  | .sensors req => Sys2Proof.Machine.execSensors req s
  | .errlog req => Sys2Proof.Machine.execErrlog req s
  | .errclr req => Sys2Proof.Machine.execErrclr req s
  | .identity req => Sys2Proof.Machine.execIdentity req s
  | .alertMask req => Sys2Proof.Machine.execAlertMask req s
  | .resetDevice req => Sys2Proof.Machine.execResetDevice req s
  | .mgmtResetAssert => Sys2Proof.Machine.execMgmtResetAssert s
  | .reply => Sys2Proof.Machine.execReply s
  | .alertResponse => Sys2Proof.Machine.execAlertResponse s
  | .smbusTimeout => Sys2Proof.Machine.execSmbusTimeout s
  | .tapReset => Sys2Proof.Machine.execTapReset s
  | .boundaryScanInstruction code cells => Sys2Proof.Machine.execBoundaryScanInstruction code cells s
  | .dbgChal => Sys2Proof.Machine.execDbgChal s
  | .dbgResp bytes => Sys2Proof.Machine.execDbgResp bytes s
  | .dbgMem update => Sys2Proof.Machine.execDbgMem update s
  | .dbgCoreHalt update => Sys2Proof.Machine.execDbgCoreHalt update s
  | .dbgCoreResume update => Sys2Proof.Machine.execDbgCoreResume update s
  | .blockSnap m addr value => Sys2Proof.Machine.execBlockSnap m addr value s
  | .w1cWrite m addr value => Sys2Proof.Machine.execW1cWrite m addr value s
  | .registerWrite m addr size value => Sys2Proof.Machine.execRegisterWrite m addr size value s
  | .registerRead m addr size => Sys2Proof.Machine.execRegisterRead m addr size s
  | .lvdsRegulatorInRegulation => Sys2Proof.Machine.execLvdsRegulatorInRegulation s
  | .ioDieStartChecks passed => Sys2Proof.Machine.execIoDieStartChecks passed s
  | .planStoreUncorrectableError standby => Sys2Proof.Machine.execPlanStoreUncorrectableError standby s
  | .controlCoreMemoryUe core => Sys2Proof.Machine.execControlCoreMemoryUe core s
  | .updateIr code => Sys2Proof.Machine.execUpdateIr code s

end Sys2Proof.Machine
end

