-- ==== Sys2Proof/WellFormed.lean ====
section
/-!
DEFINITION. Which commands are well formed: the units they name exist, and their operands lie in the ranges that the
registers, frames and readings of the spec can hold.
-/

namespace Sys2Proof

/-- Every element is a byte. -/
def bytesOk (l : List Nat) : Bool := l.all (fun b => decide (b < 256))

/-- A master is one the spec knows: VFs are numbered 1 to 256. -/
def Master.ok (m : Master) : Bool :=
  match m with
  | .vf n => decide (1 ≤ n) && decide (n ≤ 256)
  | _ => true

/-- A sweep reports a row of a tile and the 256 points of its curve. -/
def RowSweep.ok (w : RowSweep) : Bool :=
  decide (w.row < 257) && decide (w.curve.length = 256) && w.curve.all (fun v => decide (v < 2 ^ 16))

/-- Interrupt vectors of function `f`: 64 of the PF, 8 of each VF (R604). -/
def vectorsOf (f : Nat) : Nat := if f = 0 then 64 else 8

/-- The unit that a command names exists on the block: a rail, a leg, a client, a ring, a tile, a stream, a path, ... -/
def Instr.unitOk (i : Instr) : Bool :=
  match i with
  | .vauxValid => true
  | .vauxLoss => true
  | .vin12Valid => true
  | .brownOut => true
  | .inputOc => true
  | .railRampDone rail => decide (rail < 4)
  | .start rail => decide (rail < 4)
  | .railDischargeDone rail => decide (rail < 4)
  | .ov rail => decide (rail < 4)
  | .uv rail => decide (rail < 4)
  | .legComparatorTrip leg _ _ => decide (leg < 34)
  | .legUnpark rail leg => decide (rail < 4) && decide (leg < 34)
  | .capacityFinding rail => decide (rail < 4)
  | .pwrLegRelease _ => true
  | .pwrCapWrite _ _ => true
  | .powerTelemetryWindow _ _ _ _ _ => true
  | .railRetry _ => true
  | .railRetryUpDone => true
  | .nrstInRecognised _ => true
  | .perstNRecognised _ => true
  | .hostResetWarm _ => true
  | .hostResetDevice _ => true
  | .pcieHotReset => true
  | .pcieLinkDown => true
  | .bootWatchdogExpiry => true
  | .fwWatchdogExpiry core => decide (core < 4)
  | .episodeHoldEnd => true
  | .otpSelect => true
  | .strapStep _ _ _ => true
  | .strapRetry _ _ _ => true
  | .refclkLoss => true
  | .bootRomStart _ => true
  | .episodeEnd => true
  | .bootStageRun _ => true
  | .fwReady _ => true
  | .fallbackRecordWrite _ => true
  | .autoConfirm _ => true
  | .recoveryGo => true
  | .recoveryBundleChecked _ => true
  | .functionReach vf => decide (1 ≤ vf ∧ vf ≤ 256)
  | .functionReachEnd vf => decide (1 ≤ vf ∧ vf ≤ 256)
  | .blockResetGo _ _ => true
  | .blockIdleReached _ => true
  | .blockIdleTimeout _ _ => true
  | .blockResetEnd _ => true
  | .opticalLaserRampEnd _ _ => true
  | .ringLockEnd _ => true
  | .quickCalPass _ => true
  | .readySet _ => true
  | .tier1Trained _ => true
  | .tier2Trained _ => true
  | .cadAcquireStart => true
  | .encoderEdge _ _ _ => true
  | .encoderIndex => true
  | .rateWindowEnd => true
  | .tframeReceived _ _ => true
  | .tframeTimeout => true
  | .pulseEdge => true
  | .setpEdge _ => true
  | .syncInEdge _ => true
  | .phaseBeat => true
  | .motionStall => true
  | .hwmSet _ _ => true
  | .frameStartRow row => decide (row < 1024)
  | .winOpen row => decide (row < 1024)
  | .winClose row => decide (row < 1024)
  | .loopSample row => decide (row < 1024)
  | .decStrobe row => decide (row < 1024)
  | .planArmRow row => decide (row < 1024)
  | .sadSync row => decide (row < 1024)
  | .heldLoopSample => true
  | .unanchoredFrameStart => true
  | .frameBoundary => true
  | .frameEnd => true
  | .seamDrain _ => true
  | .weightSwap => true
  | .remapBeat => true
  | .fetchItem _ => true
  | .fetchDataArrived _ _ => true
  | .storeItem _ => true
  | .tileItem _ => true
  | .dmuItem _ => true
  | .vuItem _ => true
  | .scanItem _ => true
  | .quantItem _ => true
  | .decideItem _ => true
  | .buildItem _ => true
  | .decisionBeat => true
  | .decPulseEnd line => decide (line < 8)
  | .housekeepingSlot => true
  | .doorbellRecordArrived client _ => decide (client ≤ 256)
  | .descriptorArrived client ring _ => decide (client ≤ 256 ∧ ring < 8)
  | .hostCompletionArrived client ring _ _ => decide (client ≤ 256 ∧ ring ≤ 8)
  | .completionTimeout client ring => decide (client ≤ 256 ∧ ring ≤ 8)
  | .nop client ring => decide (client ≤ 256 ∧ ring < 8)
  | .fence client ring => decide (client ≤ 256 ∧ ring < 8)
  | .loadTensor client ring => decide (client ≤ 256 ∧ ring < 8)
  | .storeTensor client ring => decide (client ≤ 256 ∧ ring < 8)
  | .tensorTransferStep client ring _ => decide (client ≤ 256 ∧ ring < 8)
  | .runSection client ring => decide (client ≤ 256 ∧ ring < 8)
  | .sectionRun client ring _ => decide (client ≤ 256 ∧ ring < 8)
  | .trainStep client ring => decide (client ≤ 256 ∧ ring < 8)
  | .trainCheckStep client ring => decide (client ≤ 256 ∧ ring < 8)
  | .trainInitStep client ring => decide (client ≤ 256 ∧ ring < 8)
  | .trainRunStep client ring _ => decide (client ≤ 256 ∧ ring < 8)
  | .trainUpdateStep client ring => decide (client ≤ 256 ∧ ring < 8)
  | .trainCommitStep client ring => decide (client ≤ 256 ∧ ring < 8)
  | .solveQp client ring => decide (client ≤ 256 ∧ ring < 8)
  | .readTrace client ring => decide (client ≤ 256 ∧ ring < 8)
  | .readStats client ring => decide (client ≤ 256 ∧ ring < 8)
  | .readCurves client ring => decide (client ≤ 256 ∧ ring < 8)
  | .readMonitors client ring => decide (client ≤ 256 ∧ ring < 8)
  | .recalRow client ring => decide (client ≤ 256 ∧ ring < 8)
  | .tableWrite client ring => decide (client ≤ 256 ∧ ring < 8)
  | .planStage ring => decide (ring < 8)
  | .planStageStep ring _ => decide (ring < 8)
  | .planArm ring => decide (ring < 8)
  | .fwChunk ring => decide (ring < 8)
  | .fwVerify ring => decide (ring < 8)
  | .fwActivate ring => decide (ring < 8)
  | .fwConfirm ring => decide (ring < 8)
  | .flashOpStep _ => true
  | .fuseBurnStep _ => true
  | .otpOptionWrite ring => decide (ring < 8)
  | .otpBurnStep _ => true
  | .rngCtlEnable client _ => decide (client ≤ 256)
  | .cplRingEnable client q _ => decide (client ≤ 256 ∧ q < 8)
  | .ringEnable client s _ => decide (client ≤ 256 ∧ s < 8)
  | .ringDisable client s _ => decide (client ≤ 256 ∧ s < 8)
  | .ringResume client s _ => decide (client ≤ 256 ∧ s < 8)
  | .ringStop client s _ => decide (client ≤ 256 ∧ s < 8)
  | .useRangeEnable client _ => decide (client ≤ 256)
  | .vfEnableSet _ => true
  | .vfReady => true
  | .vfEnableClear => true
  | .busMasterEnableChange fn _ => decide (fn ≤ 256)
  | .pfPowerStateChange _ => true
  | .pcieLinkUp _ _ => true
  | .unsupportedRequest fn _ => decide (fn ≤ 256)
  | .tlpErrorReceived _ _ => true
  | .msixUnmask fn vec => decide (fn ≤ 256) && decide (vec < vectorsOf fn)
  | .streamPortLinkUp _ port => decide (port < 16)
  | .streamPortLinkDown _ port => decide (port < 16)
  | .streamFrameArrived port _ _ _ _ => decide (port < 16)
  | .hitExtraction die _ => decide (die < 2)
  | .hitExtractTimeout die => decide (die < 2)
  | .streamWindowTimeout stream => decide (stream < 16)
  | .windowFinal stream => decide (stream < 16)
  | .featureSetComplete => true
  | .lauFreeze _ _ => true
  | .lauUnfreeze _ _ => true
  | .lauRollback _ _ => true
  | .lauRebase _ _ => true
  | .lauCkpt _ _ => true
  | .lockinVisitEnd tile index _ _ => decide (tile < 16) && decide (index < 16512)
  | .sweepEnd sweep => decide (sweep.tile < 16)
  | .m0Sample engine _ => decide (engine < 2)
  | .monitorSample tile _ => decide (tile < 16)
  | .engineBiasLimit engine => decide (engine < 2)
  | .tier1Refresh stack _ => decide (stack < 6)
  | .tier2Refresh channel _ => decide (channel < 8)
  | .tier2MaintenanceWindow channel => decide (channel < 8)
  | .dimmAlert channel => decide (channel < 8)
  | .retentionCopyDone path => decide (path < 32)
  | .pathTxOpportunity path => decide (path < 32)
  | .ackReceived port _ => decide (port < 16)
  | .helloAckReceived port _ => decide (port < 16)
  | .decisionReceived port _ => decide (port < 16)
  | .aetFrameDiscard port _ => decide (port < 16)
  | .rtoExpiry path => decide (path < 32)
  | .giveupExpiry path => decide (path < 32)
  | .pfcReceived port _ => decide (port < 16)
  | .aetRxBufferLevel port _ => decide (port < 16)
  | .sadWordDelivery ch _ _ => decide (ch < 16)
  | .sadSyncWrite _ _ => true
  | .sadCfgWrite _ ch _ => decide (ch < 16)
  | .sadUrgWrite _ _ => true
  | .urgentRequestAct ch => decide (ch < 12)
  | .loopTimerSample => true
  | .loopOutputBeat => true
  | .driveFault => true
  | .swap _ _ => true
  | .clearTrip _ _ _ => true
  | .lpeBankWrite _ bank word _ => decide (bank < 2 ∧ word < 96)
  | .traceArm _ _ => true
  | .qpSolveStart => true
  | .qpIterationEnd => true
  | .qpDelivery => true
  | .thermalSample _ _ _ => true
  | .heartbeatTimeout core => decide (core < 4)
  | .status _ => true
  | .telemetry _ => true
  | .sensors _ => true
  | .errlog _ => true
  | .errclr _ => true
  | .identity _ => true
  | .alertMask _ => true
  | .resetDevice _ => true
  | .mgmtResetAssert => true
  | .reply => true
  | .alertResponse => true
  | .smbusTimeout => true
  | .tapReset => true
  | .boundaryScanInstruction code _ => decide (0x03 ≤ code ∧ code ≤ 0x05)
  | .dbgChal => true
  | .dbgResp _ => true
  | .dbgMem _ => true
  | .dbgCoreHalt _ => true
  | .dbgCoreResume _ => true
  | .blockSnap _ _ _ => true
  | .w1cWrite _ _ _ => true
  | .registerWrite _ _ _ _ => true
  | .registerRead _ _ _ => true
  | .lvdsRegulatorInRegulation => true
  | .ioDieStartChecks _ => true
  | .planStoreUncorrectableError _ => true
  | .controlCoreMemoryUe core => decide (core < 5)
  | .updateIr _ => true

/-- The operands of a command lie in the ranges that the spec gives them. -/
def Instr.operandsOk (i : Instr) : Bool :=
  match i with
  | .vauxValid => true
  | .vauxLoss => true
  | .vin12Valid => true
  | .brownOut => true
  | .inputOc => true
  | .railRampDone _ => true
  | .start _ => true
  | .railDischargeDone _ => true
  | .ov _ => true
  | .uv _ => true
  | .legComparatorTrip _ _ _ => true
  | .legUnpark _ _ => true
  | .capacityFinding _ => true
  | .pwrLegRelease value => decide (value < 2 ^ 32)
  | .pwrCapWrite m value => m.ok && decide (value < 2 ^ 32)
  | .powerTelemetryWindow _ _ _ _ _ => true
  | .railRetry req => bytesOk req.payload
  | .railRetryUpDone => true
  | .nrstInRecognised _ => true
  | .perstNRecognised _ => true
  | .hostResetWarm value => decide (value < 2 ^ 32)
  | .hostResetDevice value => decide (value < 2 ^ 32)
  | .pcieHotReset => true
  | .pcieLinkDown => true
  | .bootWatchdogExpiry => true
  | .fwWatchdogExpiry _ => true
  | .episodeHoldEnd => true
  | .otpSelect => true
  | .strapStep bootSrc clkMode _ => decide (bootSrc < 4) && decide (clkMode < 4)
  | .strapRetry bootSrc clkMode _ => decide (bootSrc < 4) && decide (clkMode < 4)
  | .refclkLoss => true
  | .bootRomStart _ => true
  | .episodeEnd => true
  | .bootStageRun _ => true
  | .fwReady _ => true
  | .fallbackRecordWrite _ => true
  | .autoConfirm _ => true
  | .recoveryGo => true
  | .recoveryBundleChecked bundle => bytesOk bundle
  | .functionReach _ => true
  | .functionReachEnd _ => true
  | .blockResetGo m value => m.ok && decide (value < 2 ^ 32)
  | .blockIdleReached _ => true
  | .blockIdleTimeout _ _ => true
  | .blockResetEnd _ => true
  | .opticalLaserRampEnd _ _ => true
  | .ringLockEnd _ => true
  | .quickCalPass _ => true
  | .readySet _ => true
  | .tier1Trained failed => decide (failed < 2 ^ 6)
  | .tier2Trained _ => true
  | .cadAcquireStart => true
  | .encoderEdge _ _ _ => true
  | .encoderIndex => true
  | .rateWindowEnd => true
  | .tframeReceived _ chars => bytesOk chars
  | .tframeTimeout => true
  | .pulseEdge => true
  | .setpEdge _ => true
  | .syncInEdge _ => true
  | .phaseBeat => true
  | .motionStall => true
  | .hwmSet m value => m.ok && decide (value < 2 ^ 32)
  | .frameStartRow _ => true
  | .winOpen _ => true
  | .winClose _ => true
  | .loopSample _ => true
  | .decStrobe _ => true
  | .planArmRow _ => true
  | .sadSync _ => true
  | .heldLoopSample => true
  | .unanchoredFrameStart => true
  | .frameBoundary => true
  | .frameEnd => true
  | .seamDrain bad => decide (bad < 2 ^ 16)
  | .weightSwap => true
  | .remapBeat => true
  | .fetchItem _ => true
  | .fetchDataArrived _ _ => true
  | .storeItem _ => true
  | .tileItem _ => true
  | .dmuItem _ => true
  | .vuItem _ => true
  | .scanItem _ => true
  | .quantItem _ => true
  | .decideItem _ => true
  | .buildItem _ => true
  | .decisionBeat => true
  | .decPulseEnd _ => true
  | .housekeepingSlot => true
  | .doorbellRecordArrived _ bytes => bytesOk bytes && bytes.length == 64
  | .descriptorArrived _ _ bytes => bytesOk bytes && bytes.length == 64
  | .hostCompletionArrived _ _ _ bytes => bytesOk bytes
  | .completionTimeout _ _ => true
  | .nop _ _ => true
  | .fence _ _ => true
  | .loadTensor _ _ => true
  | .storeTensor _ _ => true
  | .tensorTransferStep _ _ _ => true
  | .runSection _ _ => true
  | .sectionRun _ _ host => host.all bytesOk
  | .trainStep _ _ => true
  | .trainCheckStep _ _ => true
  | .trainInitStep _ _ => true
  | .trainRunStep _ _ host => host.all bytesOk
  | .trainUpdateStep _ _ => true
  | .trainCommitStep _ _ => true
  | .solveQp _ _ => true
  | .readTrace _ _ => true
  | .readStats _ _ => true
  | .readCurves _ _ => true
  | .readMonitors _ _ => true
  | .recalRow _ _ => true
  | .tableWrite _ _ => true
  | .planStage _ => true
  | .planStageStep _ bytes => bytesOk bytes
  | .planArm _ => true
  | .fwChunk _ => true
  | .fwVerify _ => true
  | .fwActivate _ => true
  | .fwConfirm _ => true
  | .flashOpStep _ => true
  | .fuseBurnStep _ => true
  | .otpOptionWrite _ => true
  | .otpBurnStep _ => true
  | .rngCtlEnable _ value => decide (value < 2 ^ 32)
  | .cplRingEnable _ _ value => decide (value < 2 ^ 32)
  | .ringEnable _ _ value => decide (value < 2 ^ 32)
  | .ringDisable _ _ value => decide (value < 2 ^ 32)
  | .ringResume _ _ value => decide (value < 2 ^ 32)
  | .ringStop _ _ value => decide (value < 2 ^ 32)
  | .useRangeEnable _ value => decide (value < 2 ^ 32)
  | .vfEnableSet numVfs => decide (numVfs < 2 ^ 16)
  | .vfReady => true
  | .vfEnableClear => true
  | .busMasterEnableChange _ _ => true
  | .pfPowerStateChange _ => true
  | .pcieLinkUp _ _ => true
  | .unsupportedRequest _ hdr => bytesOk hdr
  | .tlpErrorReceived _ hdr => bytesOk hdr
  | .msixUnmask _ _ => true
  | .streamPortLinkUp _ _ => true
  | .streamPortLinkDown _ _ => true
  | .streamFrameArrived _ _ _ _ frame => bytesOk frame
  | .hitExtraction _ _ => true
  | .hitExtractTimeout _ => true
  | .streamWindowTimeout _ => true
  | .windowFinal _ => true
  | .featureSetComplete => true
  | .lauFreeze m value => m.ok && decide (value < 2 ^ 32)
  | .lauUnfreeze m value => m.ok && decide (value < 2 ^ 32)
  | .lauRollback m value => m.ok && decide (value < 2 ^ 32)
  | .lauRebase m value => m.ok && decide (value < 2 ^ 32)
  | .lauCkpt m value => m.ok && decide (value < 2 ^ 32)
  | .lockinVisitEnd _ _ _ _ => true
  | .sweepEnd sweep => sweep.ok
  | .m0Sample _ _ => true
  | .monitorSample _ _ => true
  | .engineBiasLimit _ => true
  | .tier1Refresh _ _ => true
  | .tier2Refresh _ _ => true
  | .tier2MaintenanceWindow _ => true
  | .dimmAlert _ => true
  | .retentionCopyDone _ => true
  | .pathTxOpportunity _ => true
  | .ackReceived _ frame => bytesOk frame
  | .helloAckReceived _ frame => bytesOk frame
  | .decisionReceived _ frame => bytesOk frame
  | .aetFrameDiscard _ frame => bytesOk frame
  | .rtoExpiry _ => true
  | .giveupExpiry _ => true
  | .pfcReceived _ frame => bytesOk frame
  | .aetRxBufferLevel _ _ => true
  | .sadWordDelivery _ _ _ => true
  | .sadSyncWrite m value => m.ok && decide (value < 2 ^ 32)
  | .sadCfgWrite m _ value => m.ok && decide (value < 2 ^ 32)
  | .sadUrgWrite m value => m.ok && decide (value < 2 ^ 32)
  | .urgentRequestAct _ => true
  | .loopTimerSample => true
  | .loopOutputBeat => true
  | .driveFault => true
  | .swap m value => m.ok && decide (value < 2 ^ 32)
  | .clearTrip m value _ => m.ok && decide (value < 2 ^ 32)
  | .lpeBankWrite m _ _ value => m.ok && decide (value < 2 ^ 32)
  | .traceArm m value => m.ok && decide (value < 2 ^ 32)
  | .qpSolveStart => true
  | .qpIterationEnd => true
  | .qpDelivery => true
  | .thermalSample _ _ _ => true
  | .heartbeatTimeout _ => true
  | .status req => bytesOk req.payload
  | .telemetry req => bytesOk req.payload
  | .sensors req => bytesOk req.payload
  | .errlog req => bytesOk req.payload
  | .errclr req => bytesOk req.payload
  | .identity req => bytesOk req.payload
  | .alertMask req => bytesOk req.payload
  | .resetDevice req => bytesOk req.payload
  | .mgmtResetAssert => true
  | .reply => true
  | .alertResponse => true
  | .smbusTimeout => true
  | .tapReset => true
  | .boundaryScanInstruction code cells => decide (code < 2 ^ 8) && decide (cells < 2 ^ 84)
  | .dbgChal => true
  | .dbgResp bytes => bytesOk bytes && bytes.length == 195
  | .dbgMem update => decide (update < 2 ^ 64)
  | .dbgCoreHalt update => decide (update < 2 ^ 64)
  | .dbgCoreResume update => decide (update < 2 ^ 64)
  | .blockSnap m _ value => m.ok && decide (value < 2 ^ 32)
  | .w1cWrite m _ value => m.ok && decide (value < 2 ^ 32)
  | .registerWrite m _ size value => m.ok && (size == 1 || size == 2 || size == 4 || size == 8) && decide (value < 2 ^ 64)
  | .registerRead m _ size => m.ok && (size == 1 || size == 2 || size == 4 || size == 8)
  | .lvdsRegulatorInRegulation => true
  | .ioDieStartChecks _ => true
  | .planStoreUncorrectableError _ => true
  | .controlCoreMemoryUe _ => true
  | .updateIr code => decide (code < 2 ^ 8)

/-- A command is well formed. -/
def Instr.wf (i : Instr) : Bool := i.unitOk && i.operandsOk

end Sys2Proof
end

