-- ==== Sys2Proof/Safety.lean ====
section
/-!
DEFINITION. The terms in which the statements speak: what a command gives, which components it may change, what a
reset reach does to the register fields, and the invariant of the non-volatile memories.
-/

namespace Sys2Proof.Machine

/-- A command answers a next state in which only the device has changed, and the device is as `P` says: the
non-volatile memories and the waiting commands are untouched. -/
def Gives (c : Instr) (s : State) (P : Dev → Prop) : Prop := ∃ e, exec c s = .next { s with dev := e } ∧ P e

/-- The same for a command that may change the non-volatile memories too. -/
def GivesNv (c : Instr) (s : State) (P : Nv → Dev → Prop) : Prop :=
  ∃ n e, exec c s = .next { s with nv := n, dev := e } ∧ P n e

/-- Every register field whose bit address is not in `ks` holds what it held. -/
def RegsKept (d e : Dev) (ks : List Nat) : Prop := ∀ k, k ∉ ks → sfind e.regs k = sfind d.regs k

/-- Bit addresses that an event of the error summary may write: the summary, its log, the PF event flags and the
alert bit (R966-R968, R607, R985). -/
def rasKeys (k : Nat) : Bool :=
  decide (0x6800c0 ≤ k ∧ k < 0x6800c8) || decide (0xa80000 ≤ k ∧ k < 0xa80060) || decide (0xa88000 ≤ k ∧ k < 0xa90000) ||
    k == 0xb00000

/-- The same, for a command that raises an event of the error summary: those registers may change too. -/
def RegsKeptRas (d e : Dev) (ks : List Nat) : Prop :=
  ∀ k, k ∉ ks → rasKeys k = false → sfind e.regs k = sfind d.regs k

/-- Bit addresses that an entry of the Cadence log may write: the log, its pointers and the PF event flags
(R338, R339, R607). -/
def cadKeys (k : Nat) : Bool :=
  decide (0x6800c0 ≤ k ∧ k < 0x6800c8) || decide (0x300500 ≤ k ∧ k < 0x300560) || decide (0x308000 ≤ k ∧ k < 0x310000)

/-- The same, for a command that may write the Cadence log. -/
def RegsKeptCad (d e : Dev) (ks : List Nat) : Prop :=
  ∀ k, k ∉ ks → cadKeys k = false → sfind e.regs k = sfind d.regs k

/-- Bit addresses that every FULL, DEVICE or WARM reach writes apart from the Cleared by columns: the cause, the parked
legs and the alert bit (R165, R107, R985). -/
def reachKeys (k : Nat) : Bool :=
  k == R.RST_CAUSE.key 0 || k == R.MGT_STATUS_ALERT.key 0 ||
    (List.range 34).any (fun i => k == R.PWR_LEG_PARK.key i)

/-- From `d` to `e` a source starts an episode of a reach (R138, R153, R165): E0 is this beat, its bit is set in
RST_CAUSE, every register field takes the value that its Cleared by column gives, and the state of the blocks and of
the clients is as after reset. -/
structure EpisodeBegins (d e : Dev) (src : Src) (r : Reach) : Prop where
  ep : e.rst.ep = some { start := d.beat, reach := r, joined := 2 ^ src.bit, phase := .hold }
  cause : e.rd R.RST_CAUSE = putBit (d.rd R.RST_CAUSE) src.bit true
  parked : ∀ i, i < 34 → e.rdi R.PWR_LEG_PARK i = 0
  cleared : ∀ k f, fldAt k = some f → reachKeys k = false → f.cls.clearedBy r = true → sfind e.regs k = none
  kept : ∀ k f, fldAt k = some f → reachKeys k = false → f.cls.clearedBy r = false → sfind e.regs k = sfind d.regs k
  blocks : e.boot = {} ∧ e.cad = {} ∧ e.sq = {} ∧ e.hif = {} ∧ e.clients = [] ∧ e.ing = {} ∧ e.lau = {} ∧
    e.aet = {} ∧ e.trg = {} ∧ e.qps = {}
  flash : e.flashUndef = d.flashTorn
  time : e.beat = d.beat ∧ e.free = d.free ∧ e.out = d.out

/-- From `d` to `e` a source has joined or started an episode at its hold (R153-R155, R159): its cause bit is set
there and in RST_CAUSE, and the episode's reach is at least `r`. -/
structure SourceJoined (d e : Dev) (src : Src) (r : Reach) : Prop where
  cause : e.rd R.RST_CAUSE = putBit (d.rd R.RST_CAUSE) src.bit true
  episode : ∃ p, e.rst.ep = some p ∧ p.phase = .hold ∧ bitAt p.joined src.bit = true ∧ r.wider p.reach = false ∧
    p.start = (match d.rst.ep with
               | some q => q.start
               | none => d.beat)
  time : e.beat = d.beat ∧ e.free = d.free ∧ e.out = d.out

/-- From `d` to `e` a rail fault of a kind is taken (R123, R124, R125): the information register, the rail's fault bit
and its legs off, nFAULT, the laser bias off, and the REG_FAULT source of a DEVICE reach, which stays asserted. -/
structure RailFaultTaken (d e : Dev) (kind rail legA legB : Nat) : Prop where
  infoKind : e.rd R.PWR_RAIL_FAULT_INFO_KIND = kind
  infoRail : e.rd R.PWR_RAIL_FAULT_INFO_RAIL = rail
  infoLegs : e.rd R.PWR_RAIL_FAULT_INFO_LEG_A = legA ∧ e.rd R.PWR_RAIL_FAULT_INFO_LEG_B = legB
  infoCount : e.rd R.PWR_RAIL_FAULT_INFO_COUNT = satAdd 8 (d.rd R.PWR_RAIL_FAULT_INFO_COUNT) 1
  status : e.rdi R.PWR_STATUS_RAIL_FAULT rail = 1
  off : e.rail rail = .off ∧ (kind = 7 → ∀ r, r < 4 → e.rail r = .off)
  nfault : e.pw.nFault = true ∧ e.pw.retry = none
  source : SourceJoined d e .regFault .device
  level : Src.regFault ∈ e.rst.asserted

/-- Command `k`, the next of a ring, starts its own work with opcode `op`: its tag is new, and its client may give the
opcode and has its right (R652, R668, R674). -/
def Dev.mayStart (d : Dev) (c s op : Nat) (k : Cmd) : Bool :=
  d.starting c s op == some k && d.tagMatch c k == none && (c == 0 || !clientZeroOnly op) &&
    (match rightBit op with
     | some b => d.rightOk c b
     | none => true)

/-- No SOLVE_QP holds or waits for the solver, which is free. -/
def Dev.noSolve (d : Dev) : Bool := d.qps.run.isNone && d.clients.all (fun e => e.2.cmds.all (fun k => k.op != opQp))

/-- The phase word that the internal timer gives at the next beat (R287). -/
def Dev.timerNext (d : Dev) : Nat :=
  let p := max 1 (d.rd R.CAD_TMR_PERIOD)
  let b := d.cad.tmBeat + 1
  (d.cad.tmCycle + b / p) % 2 ^ 40 * 2 ^ 24 + min (2 ^ 24 * (b % p) / p) (2 ^ 24 - 1)

/-- The non-volatile memories are in their canonical form: rising addresses, no OTP byte of 0, no erased flash byte
listed. -/
def Nv.canonical (n : Nv) : Bool := Memory.wf 0 n.otp && Memory.wf 0xFF n.flash

/-- Bit `b` of OTP byte `a` is burned. -/
def Nv.burned (n : Nv) (a b : Nat) : Bool := (mget 0 n.otp a).getLsbD b

end Sys2Proof.Machine
end

