-- ==== Sys2Proof/Certificates/Slice0/Obligations.lean ====
section
/-!
DEFINITION. The statements. In each, `Gives c s P` says that the command answers a next state and what it is; a clause
without `Gives` gives the whole next state.
-/

open Sys2Proof Sys2Proof.Machine

/-- For every command c, every state s and every list rest, one step of s with c in front of rest answers exactly what
exec c answers on s with rest as its queue. On an empty queue a step answers the same state: no register, memory,
pin or time changes without a command. The queue of waiting commands (log entry 1) and that the block idles on an
empty one (log entry 2) are the model's own. -/
def Obligations.StepRunsFrontCommand : Prop :=
  (∀ (c : Instr) (s : State) (rest : List Instr), step { s with pending := c :: rest } = exec c { s with pending := rest }) ∧
  (∀ s : State, s.pending = [] → step s = .next s)

/-- At State.reset every field of PF BAR0 reads the value its Reset column gives, time is 0, VAUX is not valid, no
command waits and nothing has left the block. -/
def Obligations.ResetState : Prop :=
  (∀ (f : Fld) (i : Nat), f ∈ pfFields → State.reset.dev.rdi f i = f.rst % 2 ^ f.w) ∧
  (∀ (f : Fld) (c i : Nat), f ∈ pageFieldsAll → State.reset.dev.rdi (f.page c) i = f.rst % 2 ^ f.w) ∧
  State.reset.dev.rst.ep = none ∧ State.reset.dev.pw.vaux = false ∧ State.reset.dev.beat = 0 ∧
  State.reset.dev.out = [] ∧ State.reset.pending = []

/-- For every device in no episode, every source and every reach: after the source asserts, the episode has E0 at this
beat and this reach, the source's RST_CAUSE bit is set and the others stay, every leg is unparked, every register
field whose Cleared by column covers the reach is at its reset value and every other keeps its value, the blocks'
and clients' state is as after reset, and time has not moved. A level source is asserted. -/
def Obligations.SourceStartsEpisode : Prop :=
  ∀ (d : Dev) (src : Src) (r : Reach) (level : Bool), d.rst.ep = none →
    EpisodeBegins d (d.assertSrc src r level) src r ∧
    (level = true → src ≠ .regFault → src ≠ .therm → src ∈ (d.assertSrc src r level).rst.asserted)

/-- For every device in an episode: after a source of a reach asserts, the episode keeps its start, has the source among
the joined ones and every cause that had joined before, is at its hold again, and its reach is the wider of the two
reaches. -/
def Obligations.EpisodeWidens : Prop :=
  ∀ (d : Dev) (src : Src) (r : Reach) (level : Bool) (p : Episode), d.rst.ep = some p →
    (d.assertSrc src r level).rst.ep =
      some { start := p.start, reach := if r.wider p.reach then r else p.reach, joined := putBit p.joined src.bit true,
             phase := .hold } ∧
    (d.assertSrc src r level).rd R.RST_CAUSE = putBit (d.rd R.RST_CAUSE) src.bit true

/-- VAUX becoming valid begins the FULL episode of power-on: POR (and PIN with nRST_IN low) is set, and POR stays
asserted until VIN12 is valid. Losing VAUX puts every component but time and the outputs at its power-on value.
VIN12 becoming valid releases the power-on and brown-out sources and changes nothing else. A brown-out after VIN12
has been valid turns the laser bias off and asserts BOR of FULL reach. LVDS regulation is noted while VAUX is valid. -/
def Obligations.SupplyEvents : Prop :=
  ∀ s : State,
  (s.dev.pw.vaux = false → Gives .vauxValid s (fun e =>
    e.pw.vaux = true ∧ e.pw.vin12 = s.dev.pw.vin12 ∧ e.pw.vin12Seen = s.dev.pw.vin12 ∧
    e.rst.ep = some { start := s.dev.beat, reach := .full, joined := if s.dev.rst.nrstHigh then 1 else 5, phase := .hold } ∧
    e.rd R.RST_CAUSE = (if s.dev.rst.nrstHigh then 1 else 5) ∧
    (Src.por ∈ e.rst.asserted ↔ s.dev.pw.vin12 = false) ∧ (Src.pin ∈ e.rst.asserted ↔ s.dev.rst.nrstHigh = false) ∧
    e.beat = s.dev.beat ∧ e.free = s.dev.free ∧ e.out = s.dev.out)) ∧
  (s.dev.pw.vaux = true → exec .vauxValid s = .next s) ∧
  Gives .vauxLoss s (fun e =>
    e = { beat := s.dev.beat, free := s.dev.free, out := s.dev.out, regs := e.regs, pw := { vin12 := s.dev.pw.vin12 },
          rst := { perstHigh := s.dev.rst.perstHigh, nrstHigh := s.dev.rst.nrstHigh } } ∧
    RegsKept {} e ([R.GLB_ID_VARIANT.key 0, R.GLB_ID_STEPPING.key 0, R.GLB_ID_STACKS.key 0, R.GLB_ID_IODIES.key 0,
      R.BTP_SVN_FUSES.key 0] ++ (List.range 4).map R.GLB_SERIAL.key)) ∧
  Gives .vin12Valid s (fun e =>
    e = { s.dev with
      pw := { s.dev.pw with vin12 := true, vin12Seen := s.dev.pw.vin12Seen || s.dev.pw.vaux }
      rst := { s.dev.rst with asserted := e.rst.asserted } } ∧
    ∀ src, src ∈ e.rst.asserted ↔ (src ∈ s.dev.rst.asserted ∧ (s.dev.pw.vaux = true → src ≠ .por ∧ src ≠ .bor))) ∧
  (s.dev.pw.vin12 = true → s.dev.pw.vaux = true → s.dev.pw.vin12Seen = true → Gives .brownOut s (fun e =>
    e.pw.vin12 = false ∧ SourceJoined s.dev e .bor .full ∧ Src.bor ∈ e.rst.asserted ∧
    e.rdi R.OPT_ENG_ON 0 = 0 ∧ e.rdi R.OPT_ENG_ON 1 = 0 ∧
    ∀ r, downOrder.find? (fun r => decide (s.dev.rail r = .up ∨ s.dev.rail r = .ramping)) = some r → r < s.dev.pw.rails.length →
      e.rail r = .discharging)) ∧
  (s.dev.pw.vaux = true → exec .lvdsRegulatorInRegulation s =
    .next { s with dev := { s.dev with pw := { s.dev.pw with lvds := true } } })

/-- A ramp that ends brings its rail up; in an up sequence the next rail of the order that is not up begins to ramp, and
once every rail is up in the soft-start step the OTP step follows. A rail discharged by the down sequence is off and
the next one of the order is turned off; once all are off a soft-start that waits begins with VCORE. The end of the
up sequence of RAIL_RETRY releases the REG_FAULT source. Nothing else changes. -/
def Obligations.RailSequence : Prop :=
  ∀ (s : State) (rail : Nat), rail < 4 → s.dev.pw.rails.length = 4 →
  (s.dev.rail rail = .ramping → Gives (.railRampDone rail) s (fun e =>
    e = { s.dev with regs := e.regs, pw := { s.dev.pw with rails := e.pw.rails, seq := e.pw.seq },
                     rst := { s.dev.rst with ep := e.rst.ep } } ∧
    RegsKept s.dev e [R.PWR_STATUS_RAILS_UP.key 0] ∧ e.rd R.PWR_STATUS_RAILS_UP = b2n e.railsUp ∧
    e.rail rail = .up ∧ (∀ r, s.dev.rail r = .up → e.rail r = .up) ∧
    (∀ b, s.dev.pw.seq = .rising b → ∀ r, upOrder.find? (fun r => decide (r ≠ rail ∧ s.dev.rail r ≠ .up)) = some r →
      s.dev.rail r = .off → e.rail r = .ramping) ∧
    (∀ b, s.dev.pw.seq = .rising b → s.dev.epPhase = some .softStart → e.railsUp = true →
      e.epPhase = some .otp ∧ e.pw.seq = .idle))) ∧
  (s.dev.rail rail = .discharging → Gives (.railDischargeDone rail) s (fun e =>
    e.pw.rails.length = 4 ∧
    (∀ r, downOrder.find? (fun r => decide (r ≠ rail ∧ (s.dev.rail r = .up ∨ s.dev.rail r = .ramping))) = some r →
      e.rail rail = .off ∧ e.rail r = .discharging ∧ e.pw.seq = s.dev.pw.seq ∧
      e = { s.dev with regs := e.regs, pw := { s.dev.pw with rails := e.pw.rails } } ∧
      RegsKept s.dev e [R.PWR_STATUS_RAILS_UP.key 0]) ∧
    ((∀ r, r < 4 → r ≠ rail → s.dev.rail r = .off) → s.dev.epPhase = some .softStart →
      e.rail 0 = .ramping ∧ e.pw.seq = .rising false))) ∧
  (s.dev.railsUp = true → s.dev.pw.retry.isSome = true → exec .railRetryUpDone s =
    .next { s with dev := { s.dev with pw := { s.dev.pw with retry := none, seq := .idle },
                                       rst := { s.dev.rst with asserted := s.dev.rst.asserted.filter (· ≠ .regFault) } } })

/-- A rail that is still ramping at START, one that is up or ramping at OV and one that is up at UV takes a rail fault
of kind START, OV or UV; INPUT_OC with any rail not off takes one of kind INPUT_OC recorded for rail 0 with every
rail off. Each records itself, turns its rail off, asserts nFAULT and joins or starts an episode of at least DEVICE
reach whose REG_FAULT source stays asserted. A rail that is off ignores them. That INPUT_OC is recorded under rail 0
is the model's choice (log entry 20). -/
def Obligations.RailFaults : Prop :=
  ∀ (s : State) (rail : Nat), rail < 4 →
  (s.dev.rail rail = .ramping → Gives (.start rail) s (fun e => RailFaultTaken s.dev e 4 rail 0x3F 0x3F)) ∧
  (s.dev.rail rail = .up ∨ s.dev.rail rail = .ramping →
    Gives (.ov rail) s (fun e => RailFaultTaken s.dev e 2 rail 0x3F 0x3F)) ∧
  (s.dev.rail rail = .up → Gives (.uv rail) s (fun e => RailFaultTaken s.dev e 3 rail 0x3F 0x3F)) ∧
  (s.dev.allDown = false → Gives .inputOc s (fun e => RailFaultTaken s.dev e 7 0 0x3F 0x3F)) ∧
  (s.dev.rail rail = .off → exec (.start rail) s = .next s ∧ exec (.ov rail) s = .next s ∧ exec (.uv rail) s = .next s) ∧
  (s.dev.allDown = true → exec .inputOc s = .next s)

/-- A trip of a leg that is neither latched nor parked on a rail that is on counts a faulted cycle (and a hard trip)
once a cycle; at the third faulted cycle in a row with no second faulted leg on the rail and another leg in service
the leg latches off, is unparked, its latch count rises and its rail waits for the capacity finding. A parked leg of
a rail that re-balances comes into service. A capacity finding with no plan active only ends the wait. A release of
a latched leg that is not retired waits for the next seam. -/
def Obligations.LegFaults : Prop :=
  ∀ (s : State) (leg cycle rail value : Nat) (hard : Bool), leg < 34 → rail < 4 →
  (s.dev.isSeti R.PWR_LEG_LATCH leg = false → s.dev.isSeti R.PWR_LEG_PARK leg = false →
    s.dev.rail (railOf leg) ≠ .off → s.dev.shortPartner leg = none → nth 0 s.dev.pw.lastCycle leg + 2 ≤ cycle →
    Gives (.legComparatorTrip leg cycle hard) s (fun e =>
      e = { s.dev with regs := e.regs, pw := e.pw } ∧
      e.pw = { s.dev.pw with consec := s.dev.pw.consec.set leg 1, lastCycle := s.dev.pw.lastCycle.set leg cycle,
                             faultAt := s.dev.pw.faultAt.set leg (some s.dev.beat) } ∧
      e.rdi R.PWR_LEG_CNT_FAULT_CYC leg = satAdd 16 (s.dev.rdi R.PWR_LEG_CNT_FAULT_CYC leg) 1 ∧
      e.rdi R.PWR_LEG_CNT_HARD_TRIPS leg = satAdd 8 (s.dev.rdi R.PWR_LEG_CNT_HARD_TRIPS leg) (b2n hard) ∧
      RegsKept s.dev e [R.PWR_LEG_CNT_FAULT_CYC.key leg, R.PWR_LEG_CNT_HARD_TRIPS.key leg])) ∧
  (s.dev.isSeti R.PWR_LEG_LATCH leg = false → s.dev.isSeti R.PWR_LEG_PARK leg = false →
    s.dev.rail (railOf leg) ≠ .off → s.dev.shortPartner leg = none → 1 < s.dev.inService (railOf leg) →
    nth 0 s.dev.pw.lastCycle leg + 1 = cycle → nth 0 s.dev.pw.lastCycle leg ≠ 0 → nth 0 s.dev.pw.consec leg = 2 →
    Gives (.legComparatorTrip leg cycle hard) s (fun e =>
      e.rdi R.PWR_LEG_LATCH leg = 1 ∧ e.rdi R.PWR_LEG_PARK leg = 0 ∧ e.rd R.PWR_STATUS_LEG_LATCHED = 1 ∧
      e.rdi R.PWR_LEG_CNT_LATCHES leg = satAdd 3 (s.dev.rdi R.PWR_LEG_CNT_LATCHES leg) 1 ∧
      (3 ≤ s.dev.rdi R.PWR_LEG_CNT_LATCHES leg → e.rdi R.PWR_LEG_CNT_RETIRED leg = 1) ∧
      railOf leg ∈ e.pw.rebalancing ∧ nth 1 e.pw.consec leg = (if leg < s.dev.pw.consec.length then 0 else 1) ∧
      e.rst = s.dev.rst ∧
      RegsKeptRas s.dev e [R.PWR_LEG_LATCH.key leg, R.PWR_LEG_PARK.key leg, R.PWR_LEG_CNT_LATCHES.key leg,
        R.PWR_LEG_CNT_RETIRED.key leg, R.PWR_STATUS_LEG_LATCHED.key 0, R.PWR_LEG_CNT_FAULT_CYC.key leg,
        R.PWR_LEG_CNT_HARD_TRIPS.key leg])) ∧
  (railOf leg ∈ s.dev.pw.rebalancing → s.dev.isSeti R.PWR_LEG_PARK leg = true →
    Gives (.legUnpark (railOf leg) leg) s (fun e => e = { s.dev with regs := e.regs } ∧
      e.rdi R.PWR_LEG_PARK leg = 0 ∧ RegsKept s.dev e [R.PWR_LEG_PARK.key leg])) ∧
  (rail ∈ s.dev.pw.rebalancing → s.dev.planActive = false → exec (.capacityFinding rail) s =
    .next { s with dev := { s.dev with pw :=
      { s.dev.pw with rebalancing := s.dev.pw.rebalancing.filter (· ≠ rail) } } }) ∧
  (s.dev.running = true → s.dev.lostWrite 0x20020 = false → bitAt value 31 = true → bits value 0 6 = leg →
    s.dev.isSeti R.PWR_LEG_LATCH leg = true → s.dev.retired leg = false → exec (.pwrLegRelease value) s =
    .next { s with dev := { s.dev with pw :=
      { s.dev.pw with returning := leg :: s.dev.pw.returning.filter (· ≠ leg) } } })

/-- A capacity finding of a re-balanced rail whose capacity is below the running plan's peak, while another plan than
the safe plan runs, no safe move is pending and the safe plan fits every rail, sets PWR_STATUS.SHORTFALL, makes the
move to the safe plan pending for a shortfall and records the event; it starts no episode. A finding that the
capacity suffices, with no safe move pending, only ends the wait of that rail. -/
def Obligations.CapacityShortfall : Prop :=
  ∀ (s : State) (rail : Nat), rail < 4 → rail ∈ s.dev.pw.rebalancing → s.dev.planActive = true →
    s.dev.safeRuns = false → s.dev.isSet R.SEQ_STATUS_SAFE_PENDING = false →
  (s.dev.overCapacity (planBudget s.dev.sq.active s.dev.sq.plan) rail = true → s.dev.safeShortRail = none →
    Gives (.capacityFinding rail) s (fun e =>
      e.rd R.PWR_STATUS_SHORTFALL = 1 ∧ e.rd R.SEQ_STATUS_SAFE_PENDING = 1 ∧ e.sq = { s.dev.sq with shortfallMove := true } ∧
      e.rst = s.dev.rst ∧ e.pw = { s.dev.pw with rebalancing := s.dev.pw.rebalancing.filter (· ≠ rail) } ∧
      RegsKeptRas s.dev e [R.PWR_STATUS_SHORTFALL.key 0, R.SEQ_STATUS_SAFE_PENDING.key 0])) ∧
  (s.dev.overCapacity (planBudget s.dev.sq.active s.dev.sq.plan) rail = false → exec (.capacityFinding rail) s =
    .next { s with dev := { s.dev with pw :=
      { s.dev.pw with rebalancing := s.dev.pw.rebalancing.filter (· ≠ rail) } } })

/-- A write of PWR_CAP that reaches the register while LOCK is 0 stores CAP_W when it is 100 to 720 and sets LOCK with
bit 31; a locked register keeps its value. The end of a telemetry window stores the input and rail averages and adds
the energy; with no plan active it does nothing else, and a window more than 10 % above the plan's energy counts in
PWR_OVERRUN_CNT and sets OVERRUN. -/
def Obligations.PowerRegisters : Prop :=
  ∀ (s : State) (value mv cur power energy : Nat) (rails : List (Nat × Nat)) (m : Master),
  (masterVf m = false → s.dev.running = true → (masterHost m = true → s.dev.lostWrite 0x20030 = false) →
    s.dev.rd R.PWR_CAP_LOCK = 0 →
    Gives (.pwrCapWrite m value) s (fun e =>
      e = { s.dev with regs := e.regs, armWrite := e.armWrite } ∧
      e.rd R.PWR_CAP_CAP_W = (if 100 ≤ bits value 0 10 ∧ bits value 0 10 ≤ 720 then bits value 0 10
                              else s.dev.rd R.PWR_CAP_CAP_W) ∧
      e.rd R.PWR_CAP_LOCK = b2n (bitAt value 31) ∧
      RegsKept s.dev e [R.PWR_CAP_CAP_W.key 0, R.PWR_CAP_LOCK.key 0, R.PWR_STATUS_SHORTFALL.key 0,
        R.PWR_STATUS_CAP_ABOVE.key 0])) ∧
  (masterVf m = false → masterHost m = true → s.dev.lostWrite 0x20030 = false → s.dev.rd R.PWR_CAP_LOCK = 1 →
    exec (.pwrCapWrite m value) s = .next s) ∧
  (s.dev.planActive = false → Gives (.powerTelemetryWindow mv cur power energy rails) s (fun e =>
    e = { s.dev with regs := e.regs } ∧
    e.rd R.PWR_IN_VI_MV = mv % 2 ^ 16 ∧ e.rd R.PWR_IN_VI_CUR = cur % 2 ^ 16 ∧ e.rd R.PWR_IN_P = power % 2 ^ 16 ∧
    e.rd R.PWR_ENERGY = (s.dev.rd R.PWR_ENERGY + energy) % 2 ^ 64 ∧
    (∀ r, r < 4 → e.rdi R.PWR_RAIL_VI_MV r = (nth (0, 0) rails r).1 % 2 ^ 16 ∧
      e.rdi R.PWR_RAIL_VI_CUR r = (nth (0, 0) rails r).2 % 2 ^ 16) ∧
    RegsKept s.dev e ([R.PWR_IN_VI_MV.key 0, R.PWR_IN_VI_CUR.key 0, R.PWR_IN_P.key 0, R.PWR_ENERGY.key 0] ++
      (List.range 4).map R.PWR_RAIL_VI_MV.key ++ (List.range 4).map R.PWR_RAIL_VI_CUR.key))) ∧
  (s.dev.planActive = true →
    11 * budEIn (planBudget s.dev.sq.active s.dev.sq.plan) * 250000 <
      10 * energy * 1000 * planLen s.dev.sq.active s.dev.sq.plan →
    Gives (.powerTelemetryWindow mv cur power energy rails) s (fun e =>
      e.rd R.PWR_OVERRUN_CNT = satAdd 32 (s.dev.rd R.PWR_OVERRUN_CNT) 1 ∧ e.rd R.PWR_STATUS_OVERRUN = 1))

/-- A low level on nRST_IN asserts PIN of DEVICE reach, and one on PERST_N that has been seen high asserts PERST of WARM
or, by the option bit, DEVICE reach and takes the PCIe link down; the levels stay asserted until recognised high,
which changes nothing else. A valid host reset command of client 0 asserts HOST of the reach it names; in sealed
mode, or with a wrong key or reach, it only records an event. The watchdogs' expiries and an accepted RESET_DEVICE
assert their sources. -/
def Obligations.ResetSources : Prop :=
  ∀ (s : State) (value core : Nat),
  (s.dev.pw.vaux = true → Src.pin ∉ s.dev.rst.asserted → Gives (.nrstInRecognised false) s (fun e =>
    SourceJoined s.dev e .pin .device ∧ Src.pin ∈ e.rst.asserted ∧ e.rst.nrstHigh = false)) ∧
  (s.dev.pw.vaux = true → exec (.nrstInRecognised true) s = .next { s with dev := { s.dev with rst :=
    { s.dev.rst with nrstHigh := true, asserted := s.dev.rst.asserted.filter (· ≠ .pin) } } }) ∧
  (s.dev.pw.vaux = true → Src.perst ∉ s.dev.rst.asserted → s.dev.rst.perstSeen = true →
    Gives (.perstNRecognised false) s (fun e =>
      SourceJoined s.dev e .perst (if s.dev.optBit 8 0 then .device else .warm) ∧ Src.perst ∈ e.rst.asserted ∧
      e.rst.perstHigh = false ∧ e.rd R.HIF_LINK_DL_UP = 0 ∧ e.hif.fns = [])) ∧
  (s.dev.pw.vaux = true → Src.perst ∉ s.dev.rst.asserted → s.dev.rst.perstSeen = false →
    Gives (.perstNRecognised false) s (fun e =>
      e.rst = { s.dev.rst with perstHigh := false } ∧ e.rd R.HIF_LINK_DL_UP = 0 ∧
      RegsKept s.dev e [R.HIF_LINK_SPEED.key 0, R.HIF_LINK_WIDTH.key 0, R.HIF_LINK_DL_UP.key 0, R.HIF_LINK_D3HOT.key 0,
        R.HIF_LINK_NUMVFS.key 0])) ∧
  (s.dev.pw.vaux = true → exec (.perstNRecognised true) s = .next { s with dev := { s.dev with rst :=
    { s.dev.rst with perstHigh := true, perstSeen := true, asserted := s.dev.rst.asserted.filter (· ≠ .perst) } } }) ∧
  (s.dev.running = true → s.dev.lostWrite 0x10010 = false → bitAt value 31 = true → s.dev.optBit 8 3 = false →
    bits value 0 8 = 0xA5 →
    (bits value 8 2 = 1 → Gives (.hostResetWarm value) s (fun e => EpisodeBegins s.dev e .host .warm)) ∧
    (bits value 8 2 = 2 → Gives (.hostResetDevice value) s (fun e => EpisodeBegins s.dev e .host .device))) ∧
  (s.dev.running = true → s.dev.lostWrite 0x10010 = false → bitAt value 31 = true →
    (s.dev.optBit 8 3 = true ∨ bits value 0 8 ≠ 0xA5 ∨ bits value 8 2 = 0 ∨ bits value 8 2 = 3) →
    Gives (.hostResetWarm value) s (fun e => e.rst = s.dev.rst ∧ RegsKeptRas s.dev e [] ∧
      bitAt (e.rd R.RAS_SUM) (if s.dev.optBit 8 3 then 3 else 1) = true)) ∧
  (s.dev.boot.wdog = .running → Gives .bootWatchdogExpiry s (fun e => SourceJoined s.dev e .wdogBoot .device)) ∧
  (core < 4 → s.dev.isSet R.BTP_SEAL = true → s.dev.boot.cores = true → bitAt (s.dev.rd R.MGT_DBG_HALTED) core = false →
    Gives (.fwWatchdogExpiry core) s (fun e => SourceJoined s.dev e .wdogFw .warm)) ∧
  (s.dev.mgt.resetDue = true → Gives .mgmtResetAssert s (fun e =>
    SourceJoined s.dev e .mgmt .device ∧ e.mgt.resetDue = false)) ∧
  (s.dev.mgt.resetDue = false → exec .mgmtResetAssert s = .next s)

/-- A PCIe hot reset clears every function's configuration registers and is the HOT source of WARM reach with HOT_WARM
1; with 0 it sets the HOT cause bit and, outside an episode, starts a BLOCK reach of HIF at this beat. A link that
leaves DL_Active after having been up since the reset exit does the same by LDN_WARM, and HIF_LINK reads down. With
the link not up PCIE_LINK_DOWN does nothing. -/
def Obligations.LinkResets : Prop :=
  ∀ s : State,
  (s.dev.pw.vaux = true → s.dev.optBit 8 1 = true → Gives .pcieHotReset s (fun e =>
    SourceJoined s.dev e .hot .warm ∧ e.hif.fns = [] ∧ e.rst.hot = (if s.dev.rst.ep = none then none else e.rst.hot))) ∧
  (s.dev.pw.vaux = true → s.dev.optBit 8 1 = false → s.dev.rst.ep = none → Gives .pcieHotReset s (fun e =>
    e.rst = { s.dev.rst with hot := some (s.dev.rst.hot.getD .requested), hotAt := s.dev.beat } ∧
    e.rd R.RST_CAUSE = putBit (s.dev.rd R.RST_CAUSE) 10 true ∧ e.hif.fns = [] ∧ e.hif.vfEnable = false ∧
    RegsKept s.dev e [R.RST_CAUSE.key 0, R.HIF_LINK_NUMVFS.key 0, R.HIF_LINK_CRS.key 0])) ∧
  (s.dev.isSet R.HIF_LINK_DL_UP = true → s.dev.hif.dlSeen = true → s.dev.optBit 8 2 = true →
    Gives .pcieLinkDown s (fun e => SourceJoined s.dev e .ldn .warm ∧ e.rd R.HIF_LINK_DL_UP = 0)) ∧
  (s.dev.isSet R.HIF_LINK_DL_UP = true → s.dev.hif.dlSeen = true → s.dev.optBit 8 2 = false → s.dev.rst.ep = none →
    Gives .pcieLinkDown s (fun e =>
      e.rst = { s.dev.rst with hot := some (s.dev.rst.hot.getD .requested), hotAt := s.dev.beat } ∧
      e.rd R.RST_CAUSE = putBit (s.dev.rd R.RST_CAUSE) 11 true ∧ e.rd R.HIF_LINK_DL_UP = 0 ∧ e.hif.fns = [])) ∧
  (s.dev.isSet R.HIF_LINK_DL_UP = false → exec .pcieLinkDown s = .next s)

/-- The hold of an episode ends at the later of now and E0 plus 20 ms for DEVICE and WARM reach, and the exit sequence
of the reach starts. The OTP step takes the highest valid option generation, or the built-in defaults when no slot
is valid. The strap step samples the straps and measures REFCLK: within 1.5 % the boot ROM follows, otherwise the
sequence halts there and a repeat comes 10 ms later and counts. A loss of REFCLK during the exit sequence of a
DEVICE or FULL episode returns it to the strap step; outside an episode REFCLK stays lost. The start-up checks of
I/O die 1 are noted. -/
def Obligations.ExitSequence : Prop :=
  ∀ (s : State) (p : Episode) (bootSrc clk freq : Nat) (passed : Bool),
  (s.dev.rst.ep = some p → p.phase = .hold → s.dev.rst.asserted = [] → p.reach ≠ .full →
    Gives .episodeHoldEnd s (fun e =>
      e.beat = max s.dev.beat (p.start + 5000000) ∧
      e.rst = { s.dev.rst with ep := some { p with phase := if p.reach = .warm then .romWait else .otp, h := e.beat } } ∧
      RegsKept s.dev e [R.RST_STRAP_RETRIES.key 0])) ∧
  (s.dev.rst.ep = some p → p.phase = .hold → s.dev.rst.asserted ≠ [] → exec .episodeHoldEnd s = .next s) ∧
  (s.dev.rst.ep = some p → p.phase = .otp → (∀ i, i < 8 → optValid (optSlot s.nv i) = false) → Gives .otpSelect s (fun e =>
    e.rst = { s.dev.rst with opt := [], ep := some { p with phase := .strap } } ∧ e.rd R.OTP_OPT_STATUS_DEFAULTS = 1 ∧
    ∀ b i, b < 2 → i < 8 → e.optBit (8 + b) i = false)) ∧
  (∀ i, s.dev.rst.ep = some p → p.phase = .otp → i < 8 → optValid (optSlot s.nv i) = true →
    (∀ j, j < 8 → optValid (optSlot s.nv j) = true → optGen (optSlot s.nv j) ≤ optGen (optSlot s.nv i) ∧
      (optGen (optSlot s.nv j) = optGen (optSlot s.nv i) → i ≤ j)) → Gives .otpSelect s (fun e =>
      e.rst = { s.dev.rst with opt := optSlot s.nv i, ep := some { p with phase := .strap } } ∧
      e.rd R.OTP_OPT_STATUS_DEFAULTS = 0 ∧ e.rd R.OTP_OPT_STATUS_SLOT = i ∧
      e.rd R.OTP_OPT_STATUS_GEN = optGen (optSlot s.nv i))) ∧
  (s.dev.rst.ep = some p → p.phase = .strap → Gives (.strapStep bootSrc clk freq) s (fun e =>
    e.rd R.RST_STRAP_CLK_MODE = clk % 4 ∧ e.rd R.RST_STRAP_REFCLK_OK = b2n (refclkOk (clk % 4) freq) ∧
    e.rst.refWatch = refclkOk (clk % 4) freq ∧ e.beat = s.dev.beat ∧
    e.rst.ep = some { p with phase := if refclkOk (clk % 4) freq then .romWait else .strapHalted })) ∧
  (s.dev.rst.ep = some p → p.phase = .strapHalted → Gives (.strapRetry bootSrc clk freq) s (fun e =>
    e.beat = s.dev.beat + 2500000 ∧ e.rd R.RST_STRAP_RETRIES = satAdd 8 (s.dev.rd R.RST_STRAP_RETRIES) 1 ∧
    e.rst.ep = some { p with phase := if refclkOk (clk % 4) freq then .romWait else .strapHalted })) ∧
  (s.dev.rst.ep = some p → p.reach ≠ .warm → p.phase ≠ .hold → s.dev.rst.refWatch = true → Gives .refclkLoss s (fun e =>
    e.rst = { s.dev.rst with refWatch := false, refclkFail := true, ep := some { p with phase := .strapHalted } } ∧
    e.rd R.RST_STRAP_REFCLK_OK = 0 ∧ e.boot = {})) ∧
  (s.dev.rst.ep = none → s.dev.rst.refWatch = true → Gives .refclkLoss s (fun e =>
    e.rst = { s.dev.rst with refWatch := false, refLost := true } ∧ e.rd R.LPE_STATUS_DRV_EN = 0 ∧
    e.rd R.TRG_STATUS_LINES = 0 ∧ e.rd R.HIF_LINK_DL_UP = 0)) ∧
  (s.dev.rst.refWatch = false → exec .refclkLoss s = .next s) ∧
  (ioDiesOf s.dev.variant = 2 → exec (.ioDieStartChecks passed) s =
    .next { s with dev := { s.dev with rst := { s.dev.rst with ioDie1Failed := !passed } } }) ∧
  (ioDiesOf s.dev.variant = 1 → exec (.ioDieStartChecks passed) s = .next s)

/-- With a working flash and a BOOT_SRC other than RECOVERY, the boot ROM uses a trial mark of an unconfirmed record
that has one left and boots the first bootable slot of the record's order; with none it is FAILED, or WAIT_HOST for
FLASH_RECOVER. BOOT_SRC RECOVERY, and FLASH_RECOVER with no flash, wait for the host. The episode ends at H plus the
reach's time at the earliest, once the ROM hands over or waits and no source is asserted: RST_EPISODE takes the
reach and the causes, its COUNT rises unless POR joined, and the boot stage runs. GO and the check of a recovery
bundle work in WAIT_HOST only. -/
def Obligations.BootRomAndHandOver : Prop :=
  ∀ (s : State) (sfdp : Bool) (bundle : List Nat) (p : Episode),
  (s.dev.epPhase = some .romWait → sfdp = true → s.dev.rd R.RST_STRAP_BOOT_SRC ≠ 2 →
    GivesNv (.bootRomStart sfdp) s (fun n e =>
      let r := currentRec s.nv
      n = (if r.confirmed = false ∧ r.marks < 3 then programMark s.nv else s.nv) ∧
      e.epPhase = some .rom ∧ e.boot.wdog = (match (bootOrder r).1.find? (s.dev.slotBootable n) with
        | some _ => .running
        | none => if s.dev.rd R.RST_STRAP_BOOT_SRC = 1 then .suspended else .running) ∧
      e.boot.sel = (bootOrder r).1.find? (s.dev.slotBootable n) ∧
      e.rd R.BTP_STATUS_BOOTED = ((bootOrder r).1.find? (s.dev.slotBootable n)).getD 3 ∧
      e.rd R.BTP_STATUS_STEP = (match (bootOrder r).1.find? (s.dev.slotBootable n) with
        | some _ => 0
        | none => if s.dev.rd R.RST_STRAP_BOOT_SRC = 1 then 4 else 5) ∧
      e.rd R.BTP_STATUS_TRIALS_USED = (bootOrder r).2.2 % 4)) ∧
  (s.dev.epPhase = some .romWait → (s.dev.rd R.RST_STRAP_BOOT_SRC = 2 ∨ (sfdp = false ∧ s.dev.rd R.RST_STRAP_BOOT_SRC = 1)) →
    GivesNv (.bootRomStart sfdp) s (fun n e => n = s.nv ∧ e.rd R.BTP_STATUS_STEP = 4 ∧ e.boot.wdog = .suspended ∧
      e.rd R.HIF_LINK_CRS = 0 ∧ e.rd R.BTP_STATUS_BOOTED = 3)) ∧
  (s.dev.rst.ep = some p → p.phase = .rom → s.dev.rst.asserted = [] → s.dev.rst.refLost = false →
    s.dev.rd R.BTP_STATUS_STEP = 0 → s.dev.boot.sel.isSome = true →
    Gives .episodeEnd s (fun e =>
      e.rst = { s.dev.rst with ep := none, endAt := max s.dev.beat (p.h + p.reach.exitBeats) } ∧
      e.beat = max s.dev.beat (p.h + p.reach.exitBeats) ∧
      e.rd R.RST_EPISODE_REACH = p.reach.code ∧ e.rd R.RST_EPISODE_CAUSES = p.joined % 2 ^ 12 ∧
      e.rd R.RST_EPISODE_COUNT = satAdd 8 (s.dev.rd R.RST_EPISODE_COUNT) (if bitAt p.joined 0 then 0 else 1) ∧
      e.rd R.BTP_STATUS_STEP = 1 ∧ e.boot = s.dev.boot)) ∧
  (s.dev.rst.ep = some p → s.dev.rst.asserted ≠ [] → exec .episodeEnd s = .next s) ∧
  (s.dev.rd R.BTP_STATUS_STEP = 4 → s.dev.boot.rcvBusy = false → Gives .recoveryGo s (fun e =>
    e = { s.dev with regs := e.regs, boot := { s.dev.boot with rcvBusy := true } } ∧ e.rd R.BTP_RCV_CTL_ERR = 0 ∧
    RegsKept s.dev e [R.BTP_RCV_CTL_ERR.key 0])) ∧
  (s.dev.rd R.BTP_STATUS_STEP ≠ 4 → exec .recoveryGo s = .next s ∧ exec (.recoveryBundleChecked bundle) s = .next s) ∧
  (s.dev.rd R.BTP_STATUS_STEP = 4 → s.dev.boot.rcvBusy = true → Gives (.recoveryBundleChecked bundle) s (fun e =>
    e.boot.rcvBusy = false ∧
    (if s.dev.bundlePlaced bundle && stageBootable s.nv s.dev.rst.opt (bundleRead bundle) 0 then
       e.rd R.BTP_RCV_CTL_DONE = 1 ∧ e.rd R.BTP_STATUS_BOOTED = 2 ∧ e.boot.sel = some 2 ∧ e.boot.bundle = bundle ∧
       e.boot.wdog = .running ∧ e.rd R.BTP_STATUS_STEP = (if s.dev.rst.ep.isSome then 0 else 1)
     else e.rd R.BTP_RCV_CTL_ERR = 1 ∧ e.boot = { s.dev.boot with rcvBusy := false })))

/-- The boot stage writes the manifest in force, or the built-in one, into the protection set-up, burns at most as many
fuses as the pulses given, and then either starts the cores, stops the boot watchdog and seals the protection set-
up, or is FAILED with the slot's BOOT_FAIL bit. Firmware ready sets FW_READY, ends CRS, starts the start-up timeline
and, with the optics not kept, the optical start. -/
def Obligations.BootStageAndFirmware : Prop :=
  ∀ (s : State) (burnOk ms : Nat),
  (s.dev.rd R.BTP_STATUS_STEP = 1 → s.dev.rst.ep = none → s.dev.boot.wdog = .running →
    GivesNv (.bootStageRun burnOk) s (fun n e =>
      (∃ k, k ≤ burnOk ∧ n = s.nv.burnFuses k) ∧ e.rd R.BTP_SVN_FUSES = n.fuseCount % 2 ^ 7 ∧
      (∀ m, s.dev.manifestChoice s.nv (currentRec s.nv).man = some m →
        e.rd R.BTP_STATUS_MAN_SRC = m % 4) ∧
      (s.dev.manifestChoice s.nv (currentRec s.nv).man = none →
        e.rd R.BTP_STATUS_MAN_SRC = 2 ∧ e.rdi R.ENT_HOST_SIZE 0 = 0xFFFFFFFFFFFFF000) ∧
      (if fwPasses n s.dev.rst.opt (s.dev.fwSource n).1 (s.dev.fwSource n).2 then
         e.rd R.BTP_SEAL = 1 ∧ e.rd R.BTP_STATUS_STEP = 3 ∧ e.boot = { s.dev.boot with cores := true, wdog := .off }
       else e.rd R.BTP_STATUS_STEP = 5 ∧ e.boot = s.dev.boot ∧
         (s.dev.boot.fromHost = false → e.rdi R.BTP_BOOT_FAIL (s.dev.boot.sel.getD 0) = 1)))) ∧
  (s.dev.rd R.BTP_STATUS_STEP ≠ 1 → exec (.bootStageRun burnOk) s = .next s) ∧
  (s.dev.rd R.BTP_STATUS_STEP = 3 → s.dev.fwReady = false → s.dev.boot.fallbackDue = false →
    s.dev.rd R.GLB_START_OPT_STAGE ≠ 4 → Gives (.fwReady ms) s (fun e =>
      e.fwReady = true ∧ e.rd R.GLB_START_FW_READY = 1 ∧ e.rd R.GLB_START_TIME_FW_READY_MS = min ms 65535 ∧
      e.rd R.GLB_START_STARTUP_TL = 1 ∧ e.rd R.HIF_LINK_CRS = 0 ∧ e.rd R.GLB_START_OPT_STAGE = 1 ∧
      e.sq = { s.dev.sq with frameAt := none, frameEnd := s.dev.beat } ∧
      (s.dev.optBit 10 0 = true → 1 ≤ e.rd R.MGT_DBG_SCOPE ∧ e.rd R.MGT_DBG_BY_OPTION = 1))) ∧
  (s.dev.rd R.BTP_STATUS_STEP ≠ 3 ∨ s.dev.fwReady = true ∨ s.dev.boot.fallbackDue = true →
    exec (.fwReady ms) s = .next s)

/-- A fallback boot whose cores run writes, once, a CONFIRMED record of the slot that booted; an automatic confirmation
in a trial boot that is READY writes one for the record's slot, and the trial ends when it reads back. Either record
goes to the copy that does not hold the current record, leaves the rest of flash and all of OTP as they are, and OTP
never changes. Without the condition nothing happens. -/
def Obligations.BootRecords : Prop :=
  ∀ (s : State) (ok : Bool),
  (s.dev.boot.fallbackDue = true → s.dev.boot.cores = true → GivesNv (.fallbackRecordWrite ok) s (fun n e =>
    n = writeRecord s.nv (s.dev.boot.sel.getD 0) 2 (currentRec s.nv).man (s.dev.slotSvn s.nv (s.dev.boot.sel.getD 0))
      (s.dev.slotFwHash s.nv (s.dev.boot.sel.getD 0)) ok ∧
    n.otp = s.nv.otp ∧
    (∀ a, a < 0x10000 * newCopy s.nv ∨ 0x10000 * newCopy s.nv + 0x1000 ≤ a →
      mget 0xFF n.flash a = mget 0xFF s.nv.flash a) ∧
    e = { s.dev with regs := e.regs, boot := { s.dev.boot with fallbackDue := false } } ∧
    RegsKept s.dev e [R.BTP_SVN_FUSES.key 0, R.BTP_SVN_BURN_PENDING.key 0])) ∧
  (s.dev.boot.fallbackDue = false → exec (.fallbackRecordWrite ok) s = .next s) ∧
  (s.dev.optBit 9 0 = true → s.dev.isSet R.BTP_STATUS_TRIAL = true → s.dev.isSet R.GLB_START_READY = true →
    s.dev.boot.job = none → GivesNv (.autoConfirm ok) s (fun n e =>
      n.otp = s.nv.otp ∧ e.rd R.BTP_STATUS_TRIAL = (if ok then 0 else 1) ∧
      (∀ a, a < 0x10000 * newCopy s.nv ∨ 0x10000 * newCopy s.nv + 0x1000 ≤ a →
        mget 0xFF n.flash a = mget 0xFF s.nv.flash a) ∧
      RegsKept s.dev e [R.BTP_STATUS_TRIAL.key 0, R.BTP_SVN_FUSES.key 0, R.BTP_SVN_BURN_PENDING.key 0])) ∧
  (s.dev.optBit 9 0 = false → exec (.autoConfirm ok) s = .next s)

/-- For every command and state: if exec answers a next state and the command is not BOOT_ROM_START, BOOT_STAGE_RUN,
FALLBACK_RECORD_WRITE, AUTO_CONFIRM, FLASH_OP_STEP, FUSE_BURN_STEP or OTP_BURN_STEP, the flash and the OTP are as
before; of the seven, only BOOT_STAGE_RUN, FUSE_BURN_STEP and OTP_BURN_STEP can change the OTP. -/
def Obligations.NvChangedBySevenCommands : Prop :=
  ∀ (c : Instr) (s t : State), exec c s = .next t →
  (t.nv ≠ s.nv → (∃ b, c = .bootRomStart b) ∨ (∃ n, c = .bootStageRun n) ∨ (∃ b, c = .fallbackRecordWrite b) ∨
    (∃ b, c = .autoConfirm b) ∨ (∃ b, c = .flashOpStep b) ∨ (∃ n, c = .fuseBurnStep n) ∨ ∃ l, c = .otpBurnStep l) ∧
  (t.nv.otp ≠ s.nv.otp → (∃ n, c = .bootStageRun n) ∨ (∃ n, c = .fuseBurnStep n) ∨ ∃ l, c = .otpBurnStep l)

/-- For every state, byte address and bit: if the bit is burned before a step that answers a next state, it is burned
after it, whatever command was in front. -/
def Obligations.OtpNeverUnburns : Prop :=
  ∀ (s t : State) (a b : Nat), step s = .next t → s.nv.burned a b = true → t.nv.burned a b = true

/-- For every state whose flash and OTP lists have strictly rising addresses and no entry equal to what an unlisted byte
reads as, a step that answers a next state keeps that form, so that equal contents stay equal data. -/
def Obligations.NvCanonicalKept : Prop :=
  ∀ s t : State, s.nv.canonical = true → step s = .next t → t.nv.canonical = true

/-- At State.reset the flash lists nothing (erased) and the OTP lists its two identity bytes in canonical form. The two
identity bytes are the model's choice (log entry 5). -/
def Obligations.NvCanonicalAtReset : Prop :=
  State.reset.nv.canonical = true ∧ State.reset.nv.flash = []

/-- At the end of the laser ramp the engines named dead and those without a spare line for a missing line fail, the
others are on, and ring lock follows; unlocked rings count as ring faults and quick calibration follows. A quick
calibration pass writes the curves that pass the acceptance test for its 16 rows of each tile; the 17th ends the
optical start. READY sets once firmware is ready, Tier 1 is trained and the optics are done, and the rotation takes
the healthy tiles. None acts out of its stage. -/
def Obligations.OpticalStart : Prop :=
  ∀ (s : State) (ms t r : Nat) (w : RowSweep),
  (s.dev.rd R.GLB_START_OPT_STAGE = 1 → exec (.opticalLaserRampEnd [] []) s = .next { s with dev :=
    (((s.dev.wri R.OPT_ENG_ON 0 1).wri R.OPT_ENG_ON 1 1).wr R.GLB_START_OPT_STAGE 2) }) ∧
  (s.dev.rd R.GLB_START_OPT_STAGE = 1 → r < 2 → s.dev.isSeti R.OPT_ENG_FAIL r = false → s.dev.planActive = false →
    Gives (.opticalLaserRampEnd [] [r]) s (fun e => e.rdi R.OPT_ENG_ON r = 0 ∧ e.rdi R.OPT_ENG_FAIL r = 1 ∧
      e.rdi R.OPT_ENG_ON (1 - r) = 1 ∧ (∀ u, u ∈ tilesOf r → e.rdi R.CAL_TILE_STATE u = 2) ∧
      e.rd R.GLB_START_OPT_STAGE = 2)) ∧
  (s.dev.rd R.GLB_START_OPT_STAGE = 1 → s.dev.spareCh false 0 64 = 0x7F →
    Gives (.opticalLaserRampEnd [(0, 5)] []) s (fun e => e.spareCh false 0 64 = 5 ∧
      (0 < s.dev.opt.chanMap.length → 5 < (nth [] s.dev.opt.chanMap 0).length → nth 0 (nth [] e.opt.chanMap 0) 5 = 64) ∧
      e.rdi R.CAL_ENG_MAP_LAST_LOST 0 = 5 ∧ e.rdi R.OPT_ENG_ON 0 = 1)) ∧
  (s.dev.rd R.GLB_START_OPT_STAGE = 2 → Gives (.ringLockEnd []) s (fun e =>
    e.rd R.GLB_START_OPT_STAGE = 3 ∧ e.cal.rowDue = s.dev.cal.rowDue ∧ e.st = s.dev.st ∧ e.opt = s.dev.opt)) ∧
  (s.dev.rd R.GLB_START_OPT_STAGE = 2 → t < 16 → r < 16448 → s.dev.rdi R.CAL_TILE_STATE t = 0 →
    Gives (.ringLockEnd [(t, r)]) s (fun e => e.rdi R.CAL_TILE_STATE t = 1 ∧
      e.rdi R.CAL_TILE_FAIL_ROW t = r / 64 ∧ e.rdi R.CAL_TILE_REASON t = 1 ∧ e.rdi R.CAL_TILE_ROTATING t = 0 ∧
      e.rd R.GLB_START_OPT_STAGE = 3)) ∧
  (s.dev.rd R.GLB_START_OPT_STAGE = 3 → w.tile < 16 → w.row / 16 = s.dev.st.passes → sweepOk w = true → s.dev.st.passes < 16 →
    Gives (.quickCalPass [w]) s (fun e =>
      e = { s.dev with cal := e.cal, st := { s.dev.st with passes := s.dev.st.passes + 1 } } ∧
      sget [] e.cal.curves (257 * w.tile + w.row) = w.curve.map (· % 65536) ∧
      sget 0 e.cal.gains (257 * w.tile + w.row) = w.gain)) ∧
  (s.dev.rd R.GLB_START_OPT_STAGE = 3 → s.dev.st.passes = 16 → Gives (.quickCalPass []) s (fun e =>
    e.rd R.GLB_START_OPT_STAGE = 4 ∧ e.st = { s.dev.st with passes := 17, qcalDone := true } ∧
    RegsKept s.dev e [R.GLB_START_OPT_STAGE.key 0])) ∧
  (s.dev.isSet R.GLB_START_READY = false → s.dev.fwReady = true → s.dev.isSet R.GLB_START_T1_TRAINED = true →
    s.dev.rd R.GLB_START_OPT_STAGE = 4 → Gives (.readySet ms) s (fun e =>
      e.rd R.GLB_START_READY = 1 ∧ e.rd R.GLB_START_TIME_READY_MS = min ms 65535 ∧
      (∀ u, u < 16 → e.rdi R.CAL_TILE_ROTATING u = b2n (decide (s.dev.rdi R.CAL_TILE_STATE u = 0))) ∧
      e.rd R.GLB_START_EVENTS_ON = b2n (s.dev.isSet R.GLB_START_PHASE_VALID) ∧
      bitAt e.hif.evtDue 7 = true)) ∧
  (s.dev.fwReady = false ∨ s.dev.isSet R.GLB_START_T1_TRAINED = false ∨ s.dev.rd R.GLB_START_OPT_STAGE ≠ 4 →
    exec (.readySet ms) s = .next s) ∧
  (s.dev.rd R.GLB_START_OPT_STAGE = 0 → exec (.opticalLaserRampEnd [] []) s = .next s ∧ exec (.ringLockEnd []) s = .next s ∧
    exec (.quickCalPass [w]) s = .next s)

/-- Tier 1 training of every stack sets T1_TRAINED; a stack that fails keeps it 0. Tier 2 training gives each channel of
the working I/O dies its state and capacity. A refresh stalls its stack or channel for at most 88 or 103 beats, a
maintenance window stalls its channel for 250 beats and drops its first 32 pending write-backs, and an alert marks
an active channel failed with size 0 and an event of class MEM_UE. Memory contents never change. -/
def Obligations.MemoryEvents : Prop :=
  ∀ (s : State) (failed st ch n : Nat) (sizes : List (Option Nat)),
  (s.dev.fwReady = true → s.dev.isSet R.GLB_START_T1_TRAINED = false → s.dev.word R.MEM_T1_STATUS_FAILED = 0 →
    Gives (.tier1Trained failed) s (fun e => e = { s.dev with regs := e.regs } ∧
      (∀ i, i < stacksOf s.dev.variant → (bitAt failed i = true → e.rdi R.MEM_T1_STATUS_FAILED i = 1) ∧
        (bitAt failed i = false → e.rdi R.MEM_T1_STATUS_TRAINED i = 1)) ∧
      e.rd R.GLB_START_T1_TRAINED = b2n (!(List.range (stacksOf s.dev.variant)).any (bitAt failed)))) ∧
  (s.dev.fwReady = true → s.dev.isSet R.GLB_START_T2_DONE = false → Gives (.tier2Trained sizes) s (fun e =>
    e = { s.dev with regs := e.regs, mem := { s.dev.mem with t2Trained := e.mem.t2Trained } } ∧ e.rd R.GLB_START_T2_DONE = 1 ∧
    (∀ c, c < 8 → (s.dev.channels ≤ c → e.rdi R.MEM_T2_STATUS_ABSENT c = 1) ∧
      (c < s.dev.channels → nth (some 0) sizes c = some 0 → e.rdi R.MEM_T2_STATUS_ABSENT c = 1) ∧
      (c < s.dev.channels → nth (some 0) sizes c = some 64 →
        e.rdi R.MEM_T2_STATUS_ACTIVE c = 1 ∧ e.rdi R.MEM_T2_SIZE c = 64) ∧
      (c < s.dev.channels → nth (some 0) sizes c = none → e.rdi R.MEM_T2_STATUS_FAILED c = 1)))) ∧
  (st < 6 → s.dev.isSeti R.MEM_T1_STATUS_TRAINED st = true → exec (.tier1Refresh st n) s = .next { s with dev :=
    { s.dev with mem := { s.dev.mem with t1Stall := s.dev.mem.t1Stall.set st (s.dev.beat + min n 88) } } }) ∧
  (ch < 8 → s.dev.isSeti R.MEM_T2_STATUS_ACTIVE ch = true → exec (.tier2Refresh ch n) s = .next { s with dev :=
    { s.dev with mem := { s.dev.mem with t2Stall := s.dev.mem.t2Stall.set ch (s.dev.beat + min n 103) } } }) ∧
  (ch < 8 → s.dev.isSeti R.MEM_T2_STATUS_ACTIVE ch = true → Gives (.tier2MaintenanceWindow ch) s (fun e =>
    e = { s.dev with mem := { s.dev.mem with t2Stall := s.dev.mem.t2Stall.set ch (s.dev.beat + 250),
                                             writeBacks := e.mem.writeBacks } } ∧
    e.mem.writeBacks.length = s.dev.mem.writeBacks.length -
      min 32 (s.dev.mem.writeBacks.filter (fun o => channelAt o == ch)).length ∧
    e.mem.writeBacks.filter (fun o => channelAt o != ch) = s.dev.mem.writeBacks.filter (fun o => channelAt o != ch) ∧
    e.mem.writeBacks.filter (fun o => channelAt o == ch) =
      (s.dev.mem.writeBacks.filter (fun o => channelAt o == ch)).drop 32)) ∧
  (ch < 8 → s.dev.isSeti R.MEM_T2_STATUS_ACTIVE ch = true → s.dev.isSeti R.MEM_T2_STATUS_FAILED ch = false →
    Gives (.dimmAlert ch) s (fun e =>
      e = { s.dev with regs := e.regs, hif := e.hif, ras := e.ras } ∧ e.rdi R.MEM_T2_STATUS_FAILED ch = 1 ∧
      e.rdi R.MEM_T2_STATUS_ACTIVE ch = 0 ∧ e.rdi R.MEM_T2_SIZE ch = 0 ∧ bitAt (e.rd R.RAS_SUM) 4 = true ∧
      RegsKeptRas s.dev e [R.MEM_T2_STATUS_FAILED.key ch, R.MEM_T2_STATUS_ACTIVE.key ch, R.MEM_T2_SIZE.key ch])) ∧
  (ch < 8 → s.dev.isSeti R.MEM_T2_STATUS_ACTIVE ch = false → exec (.dimmAlert ch) s = .next s ∧
    exec (.tier2Refresh ch n) s = .next s ∧ exec (.tier2MaintenanceWindow ch) s = .next s)

/-- A GO names its refusal in RST_BLK_STATUS in the order invalid code, busy, plan active. An accepted GO in
IDLE_REQUESTED mode sets BUSY and LAST and asks the block to idle. When the block is idle, or TO_US after the
request, which sets FORCED, it enters reset: its fields with BLOCK in their Cleared by column take their reset
values. After 256 beats BUSY is cleared and DONE set. Code 6 is HIF, 7 STP, 9 TRG, 10 AET. -/
def Obligations.BlockResets : Prop :=
  ∀ (s : State) (m : Master) (value c n : Nat),
  (masterVf m = false → masterHost m = false → s.dev.running = true → bitAt value 31 = true →
    (13 < bits value 0 4 → Gives (.blockResetGo m value) s (fun e => e.rd R.RST_BLK_STATUS_REFUSED = 1 ∧
      e.rd R.RST_BLK_STATUS_REASON = 3 ∧ e.rst = s.dev.rst ∧
      RegsKept s.dev e [R.RST_BLK_STATUS_REFUSED.key 0, R.RST_BLK_STATUS_REASON.key 0])) ∧
    (bits value 0 4 ≤ 13 → s.dev.isSet R.RST_BLK_STATUS_BUSY = true → Gives (.blockResetGo m value) s (fun e =>
      e.rd R.RST_BLK_STATUS_REFUSED = 1 ∧ e.rd R.RST_BLK_STATUS_REASON = 2 ∧ e.rst = s.dev.rst)) ∧
    (bits value 0 4 < 6 → s.dev.isSet R.RST_BLK_STATUS_BUSY = false → s.dev.planActive = true →
      Gives (.blockResetGo m value) s (fun e => e.rd R.RST_BLK_STATUS_REFUSED = 1 ∧ e.rd R.RST_BLK_STATUS_REASON = 1 ∧
        e.rst = s.dev.rst)) ∧
    (bits value 0 4 ≤ 13 → s.dev.isSet R.RST_BLK_STATUS_BUSY = false → s.dev.planActive = false →
      bitAt (s.dev.rd R.RST_BLK_MODE) (bits value 0 4) = true → Gives (.blockResetGo m value) s (fun e =>
        e.rd R.RST_BLK_STATUS_BUSY = 1 ∧ e.rd R.RST_BLK_STATUS_LAST = bits value 0 4 ∧
        e.rst = { s.dev.rst with blk := some (bits value 0 4, .requested), blkAt := s.dev.beat } ∧
        RegsKept s.dev e [R.RST_BLK_STATUS_BUSY.key 0, R.RST_BLK_STATUS_LAST.key 0]))) ∧
  (s.dev.rst.blk = some (c, .requested) → (c = 2 ∨ c = 7 ∨ c = 9 ∨ c = 10) →
    Gives (.blockIdleReached false) s (fun e =>
      e.rst.blk = some (c, .inReset) ∧ e.rst.blkAt = s.dev.beat ∧ (c = 9 → e.trg = {}) ∧ (c = 10 → e.aet = {}) ∧
      ∀ k f, fldAt k = some f → k < firstPageBit → blockOf (k / 8) = blkOfCode c → f.cls.clearedByBlock = true →
        sfind e.regs k = none)) ∧
  (s.dev.rst.blk = some (c, .requested) → (c = 2 ∨ c = 7 ∨ c = 9 ∨ c = 10) →
    s.dev.rst.blkAt + 250 * s.dev.rd R.RST_BLK_IDLE_TO ≤ s.dev.beat → Gives (.blockIdleTimeout false n) s (fun e =>
      e.rst.blk = some (c, .inReset) ∧ e.rd R.RST_BLK_STATUS_FORCED = 1 ∧ (0 < n → bitAt (e.rd R.RAS_SUM) 9 = true))) ∧
  (s.dev.rst.blk = some (c, .requested) → s.dev.beat < s.dev.rst.blkAt + 250 * s.dev.rd R.RST_BLK_IDLE_TO →
    exec (.blockIdleTimeout false n) s = .next s) ∧
  (s.dev.rst.blk = some (c, .inReset) → (c = 2 ∨ c = 9 ∨ c = 12) → s.dev.rst.blkAt + 256 ≤ s.dev.beat →
    Gives (.blockResetEnd false) s (fun e =>
      e = { s.dev with regs := e.regs, rst := { s.dev.rst with blk := none } } ∧ e.rd R.RST_BLK_STATUS_BUSY = 0 ∧
      e.rd R.RST_BLK_STATUS_DONE = 1 ∧ RegsKept s.dev e [R.RST_BLK_STATUS_BUSY.key 0, R.RST_BLK_STATUS_DONE.key 0])) ∧
  (s.dev.rst.blk = some (c, .inReset) → s.dev.beat < s.dev.rst.blkAt + 256 → exec (.blockResetEnd false) s = .next s)

/-- A Function Level Reset of an enabled VF outside a reset of HIF puts the client's set-up page, rings and
configuration registers at their reset values, counts in HIF_CNT, and begins a FUNCTION reach; the client's
protection windows stay, and so do all memory contents when no TRAIN_STEP of the client is cut. During a reset of
HIF it waits for the end. Its end takes the client out of the reach, during a reset of HIF only with HIF. -/
def Obligations.FunctionReaches : Prop :=
  ∀ (s : State) (vf : Nat), 1 ≤ vf → vf ≤ 256 →
  (s.dev.running = true → s.dev.hif.vfEnable = true → vf ≤ s.dev.hif.numVfs → s.dev.hif.vfReady = true →
    s.dev.inReset 6 = false → Gives (.functionReach vf) s (fun e =>
      e.client vf = {} ∧ e.fn vf = {} ∧ vf ∈ e.rst.flr ∧ e.rd R.HIF_CNT_FLR = satAdd 16 (s.dev.rd R.HIF_CNT_FLR) 1 ∧
      (∀ f, f ∈ pageFieldsAll → f.cls = .func → e.rd (f.page vf) = f.rst % 2 ^ f.w) ∧
      sfind e.regs (R.ENT_T1_BASE.key vf) = sfind s.dev.regs (R.ENT_T1_BASE.key vf) ∧
      sfind e.regs (R.ENT_T1_SIZE.key vf) = sfind s.dev.regs (R.ENT_T1_SIZE.key vf) ∧
      ((∀ k ∈ s.dev.cmds vf, k.op ≠ opTrain) → e.mem.t1 = s.dev.mem.t1 ∧ e.mem.t2 = s.dev.mem.t2) ∧ e.beat = s.dev.beat)) ∧
  (s.dev.running = true → s.dev.hif.vfEnable = true → vf ≤ s.dev.hif.numVfs → s.dev.hif.vfReady = true →
    s.dev.inReset 6 = true → exec (.functionReach vf) s = .next { s with dev := { s.dev with rst := { s.dev.rst with
      flrDue := if s.dev.rst.flrDue.contains vf then s.dev.rst.flrDue else s.dev.rst.flrDue ++ [vf] } } }) ∧
  (s.dev.rst.flr.contains vf = true → s.dev.inReset 6 = false → exec (.functionReachEnd vf) s =
    .next { s with dev := { s.dev with rst := { s.dev.rst with flr := s.dev.rst.flr.filter (· ≠ vf) } } }) ∧
  (s.dev.rst.flr.contains vf = false → exec (.functionReachEnd vf) s = .next s)

/-- Acquisition begins at the later of now and 10 ms after the end of the episode, with the timer valid. An accepted
encoder edge takes effect two beats after the beat of its filter's end; one within 10 ns of an edge of the other pin
counts QUAD_ERR, and neither edge takes effect or counts to the rate. Edges of the index, pulse and SYNC_IN inputs
take effect two beats later. SETP_P gives its period in 1/16 beat. Without the Cadence unit at work, edges do
nothing. -/
def Obligations.CadenceInputs : Prop :=
  ∀ (s : State) (b up : Bool) (n t : Nat) (pin : Bool),
  (s.dev.works 0 = true → s.dev.cad.acq = false → s.dev.cad.src = 0 → Gives .cadAcquireStart s (fun e =>
    e.beat = max s.dev.beat (s.dev.rst.endAt + 2500000) ∧ e.cad.acq = true ∧ e.cad.noFire = true ∧ e.cad.tmBeat = 0 ∧
    e.cad.tmCycle = 0 ∧ e.rd R.CAD_PHASE = 0 ∧ e.rd R.CAD_STATUS_VALID = 1 ∧ e.rd R.GLB_START_PHASE_VALID = 1 ∧
    RegsKeptCad s.dev e [R.CAD_PHASE.key 0, R.CAD_STATUS_MOTION.key 0, R.CAD_STATUS_VALID.key 0,
      R.GLB_START_PHASE_VALID.key 0, R.GLB_START_EVENTS_ON.key 0, R.CAD_HWM.key 0])) ∧
  (s.dev.cad.acq = true → exec .cadAcquireStart s = .next s) ∧
  (s.dev.cadOn = true → s.dev.cad.encEdge = none → exec (.encoderEdge b up n) s =
    .next { s with dev := { s.dev with
      cad := { s.dev.cad with
                     encEdge := some (b, n), encRate := s.dev.cad.encRate + 1,
                     edges := s.dev.cad.edges ++ [{ eff := (n + s.dev.rd R.CAD_FILT + 10) / 4 + 2,
                                                    kind := .count (up != s.dev.isSet R.CAD_CTL_ENC_INV) b n }] } } }) ∧
  (s.dev.cadOn = true → s.dev.cad.encEdge = some (pin, t) → pin ≠ b → n < t + 10 → t < n + 10 →
    Gives (.encoderEdge b up n) s (fun e =>
      e = { s.dev with
        regs := e.regs,
        cad := { s.dev.cad with
          encEdge := none, encRate := s.dev.cad.encRate - 1,
          edges := s.dev.cad.edges.filter (fun x => !x.isCount pin t) } } ∧
      e.rd R.CAD_CNT_QUAD_ERR = satAdd 16 (s.dev.rd R.CAD_CNT_QUAD_ERR) 1 ∧ RegsKept s.dev e [R.CAD_CNT_QUAD_ERR.key 0])) ∧
  (s.dev.cadOn = true → exec .encoderIndex s = .next { s with dev := { s.dev with cad := { s.dev.cad with
    edges := s.dev.cad.edges ++ [{ eff := s.dev.beat + 2, kind := .index }] } } }) ∧
  (s.dev.cadOn = true → exec .pulseEdge s = .next { s with dev := { s.dev with cad := { s.dev.cad with
    edges := s.dev.cad.edges ++ [{ eff := s.dev.beat + 2, kind := .pulse }] } } }) ∧
  (s.dev.cadOn = true → exec (.syncInEdge up) s = .next { s with dev := { s.dev with cad := { s.dev.cad with
    edges := s.dev.cad.edges ++ [{ eff := s.dev.beat + 2, kind := .sync up }] } } }) ∧
  (s.dev.cadOn = true → Gives (.setpEdge n) s (fun e =>
    e = { s.dev with regs := e.regs, cad := { s.dev.cad with setpEdge := some n, setpAt := some s.dev.beat } } ∧
    (∀ t, s.dev.cad.setpEdge = some t → e.rd R.CAD_SETP_PERIOD = min 0xFFFFFFFF (4 * (n - t))) ∧
    (s.dev.cad.setpEdge = none → e = { s.dev with cad := e.cad }) ∧ RegsKept s.dev e [R.CAD_SETP_PERIOD.key 0])) ∧
  (s.dev.cadOn = false → exec (.encoderEdge b up n) s = .next s ∧ exec .encoderIndex s = .next s ∧
    exec .pulseEdge s = .next s ∧ exec (.syncInEdge up) s = .next s ∧ exec (.setpEdge n) s = .next s)

/-- A timing frame with a code error counts TF_DEC, one that fails its check counts TF_CRC, and both end the run of good
frames; a good frame waits for the next update with its phase and its time less the latency. No good frame for TO_US
counts TF_MISS and ends the timing frame's validity. A rate window of more counts than MAXRATE counts RATE_ERR and
ends the encoder's validity. No step of the selected source for its stall time makes it STALLED. -/
def Obligations.TimingFrames : Prop :=
  ∀ (s : State) (chars : List Nat),
  (s.dev.cadOn = true → Gives (.tframeReceived false chars) s (fun e =>
    e = { s.dev with regs := e.regs, cad := { s.dev.cad with tfRun := 0 } } ∧
    e.rd R.CAD_CNT_TF_DEC = satAdd 16 (s.dev.rd R.CAD_CNT_TF_DEC) 1 ∧ RegsKept s.dev e [R.CAD_CNT_TF_DEC.key 0])) ∧
  (s.dev.cadOn = true → tframeGood chars = false → Gives (.tframeReceived true chars) s (fun e =>
    e = { s.dev with regs := e.regs, cad := { s.dev.cad with tfRun := 0 } } ∧
    e.rd R.CAD_CNT_TF_CRC = satAdd 16 (s.dev.rd R.CAD_CNT_TF_CRC) 1 ∧ RegsKept s.dev e [R.CAD_CNT_TF_CRC.key 0])) ∧
  (s.dev.cadOn = true → tframeGood chars = true → exec (.tframeReceived true chars) s =
    .next { s with dev := { s.dev with
      cad := { s.dev.cad with
        edges := s.dev.cad.edges ++
          [⟨s.dev.beat + 1, .frame ⟨leVal (bytesAt chars 2 5) * 2 ^ 24 + u24 chars 7,
            4 * s.dev.beat - s.dev.rd R.CAD_TF_CFG_LAT_NS⟩⟩] } } }) ∧
  (s.dev.cadOn = true → s.dev.cad.tfBeat + 250 * s.dev.rd R.CAD_TF_CFG_TO_US ≤ s.dev.beat → Gives .tframeTimeout s (fun e =>
    e.rd R.CAD_CNT_TF_MISS = satAdd 16 (s.dev.rd R.CAD_CNT_TF_MISS) 1 ∧ e.rd R.CAD_STATUS_TF_VALID = 0 ∧
    e.cad.tfRun = 0 ∧ e.cad.tfBeat = s.dev.beat ∧ e.beat = s.dev.beat ∧ e.rst = s.dev.rst)) ∧
  (s.dev.beat < s.dev.cad.tfBeat + 250 * s.dev.rd R.CAD_TF_CFG_TO_US → exec .tframeTimeout s = .next s) ∧
  (s.dev.cadOn = true → s.dev.cad.encRateEnd ≤ s.dev.rd R.CAD_ENC_CFG_MAXRATE → exec .rateWindowEnd s =
    .next { s with dev := { s.dev with cad := { s.dev.cad with encRateEnd := 0 } } }) ∧
  (s.dev.cadOn = true → s.dev.rd R.CAD_ENC_CFG_MAXRATE < s.dev.cad.encRateEnd → Gives .rateWindowEnd s (fun e =>
    e.rd R.CAD_CNT_RATE_ERR = satAdd 16 (s.dev.rd R.CAD_CNT_RATE_ERR) 1 ∧ e.rd R.CAD_STATUS_ENC_VALID = 0 ∧
    e.cad.encRateEnd = 0 ∧ e.beat = s.dev.beat ∧ e.rst = s.dev.rst)) ∧
  (s.dev.cadOn = true → s.dev.stallDue s.dev.cad.src = true → Gives .motionStall s (fun e =>
    (e.psrc s.dev.cad.src).motion = 1 ∧ e.rd R.CAD_STATUS_MOTION = 1 ∧ e.beat = s.dev.beat ∧ e.rst = s.dev.rst)) ∧
  (s.dev.stallDue s.dev.cad.src = false → exec .motionStall s = .next s)

/-- A beat moves time on by one and keeps the phase stamp of the beat, whatever else it does. With no Cadence unit at
work and no plan active the phase word keeps its value. With the internal timer selected and no edge waiting, the
phase word takes the timer's next value where that is beyond it or the next change fires no row. With events on, a
row of the table whose position is crossed fires once for the change and waits with its beat. A write of CAD_CTL
with HWM_SET lets the high-water mark take the next phase word. -/
def Obligations.PhaseBeat : Prop :=
  ∀ (s : State) (m : Master) (row value : Nat) (bytes : List Nat),
  (s.dev.cadOn = false → s.dev.planActive = false → Gives .phaseBeat s (fun e =>
    e = { s.dev with beat := s.dev.beat + 1, regs := e.regs, sad := e.sad,
                     cad := { s.dev.cad with encRate := e.cad.encRate, encRateEnd := e.cad.encRateEnd } } ∧
    e.sad.stamps = (s.dev.beat + 1, s.dev.stamp) :: s.dev.sad.stamps.take 15 ∧
    RegsKept s.dev e ([R.CAL_STATUS_HEARTBEAT.key 0] ++ (List.range 4).map R.RAS_HB.key))) ∧
  (s.dev.cadOn = true → s.dev.cad.src = 0 → s.dev.cad.edges = [] → s.dev.planActive = false →
    Gives .phaseBeat s (fun e =>
      e.beat = s.dev.beat + 1 ∧
      e.rd R.CAD_PHASE = (if s.dev.cad.noFire = true ∨ beyond (s.dev.rd R.CAD_PHASE) s.dev.timerNext = false
                          then s.dev.timerNext else s.dev.rd R.CAD_PHASE) ∧
      e.cad.noFire = false ∧ e.cad.hwmSet = false ∧ e.rst = s.dev.rst ∧ e.mem = s.dev.mem)) ∧
  (s.dev.cadOn = true → s.dev.cad.src = 0 → s.dev.cad.edges = [] → s.dev.planActive = false → s.dev.cad.noFire = false →
    s.dev.isSet R.GLB_START_EVENTS_ON = true → s.dev.cad.table = [(row, bytes)] → s.dev.cad.fired = [] →
    s.dev.sq.arm = none → beyond s.dev.timerNext (s.dev.rd R.CAD_PHASE) = true → rowAction bytes ≠ 8 →
    0 < (s.dev.rowCross bytes (s.dev.rd R.CAD_PHASE) s.dev.timerNext).1 → rowAction bytes ≠ 2 → rowAction bytes ≠ 3 →
    Gives .phaseBeat s (fun e => e.cad.fired.map (fun f => (f.row, f.beat, f.bytes)) = [(row, s.dev.beat + 1, bytes)] ∧
      e.rd R.CAD_PHASE = s.dev.timerNext)) ∧
  (masterVf m = false → masterHost m = false → s.dev.running = true → s.dev.inReset 0 = false → s.dev.planActive = false →
    bitAt value 3 = true → Gives (.hwmSet m value) s (fun e =>
      e.cad.hwmSet = true ∧ e.rd R.CAD_CTL_SRC = bits value 0 2 ∧ e.rd R.CAD_CTL_ENC_INV = bits value 2 1 ∧
      e.rd R.CAD_CTL_SYNC_EDGE = bits value 4 2 ∧ e.rd R.CAD_HWM = s.dev.rd R.CAD_HWM ∧
      RegsKept s.dev e [R.CAD_CTL_SRC.key 0, R.CAD_CTL_ENC_INV.key 0, R.CAD_CTL_SYNC_EDGE.key 0]))

/-- A row acts when it is the first that waits, its action is the command's, and it fired in an earlier beat; then it no
longer waits. FRAME_START makes a frame start due, held while a frame runs. WIN_OPEN and WIN_CLOSE open and close
the windows of the streams they name; WIN_OPEN outside FORWARD counts WIN_SKIP. PLAN_ARM gates a waiting arm.
LOOP_SAMPLE samples a phase-driven loop, as a due held sample does. DEC_STROBE starts the pulse of a held line, and
SAD_SYNC synchronises its channels. A row that may not act changes nothing. -/
def Obligations.RowActions : Prop :=
  ∀ (s : State) (row l : Nat) (f : Fired) (a : Arm), row < 1024 →
  (s.dev.acting row 1 = some f → s.dev.planActive = true → s.dev.isSet R.CAD_FSTART_EN = true → s.dev.cad.due = none →
    s.dev.cad.targetGate = none → Gives (.frameStartRow row) s (fun e =>
      e = { s.dev with regs := e.regs, cad := { s.dev.cad with fired := s.dev.cad.fired.drop 1, due := some f.beat } } ∧
      e.rd R.CAD_STATUS_HELD = b2n s.dev.sq.frameAt.isSome ∧ RegsKept s.dev e [R.CAD_STATUS_HELD.key 0])) ∧
  (s.dev.acting row 6 = some f → s.dev.sq.arm = some a → a.wait = 2 → exec (.planArmRow row) s = .next { s with dev :=
    { s.dev with cad := { s.dev.cad with fired := s.dev.cad.fired.drop 1, armGate := true } } }) ∧
  (s.dev.acting row 2 = some f → s.dev.planActive = true → f.fwd = false → Gives (.winOpen row) s (fun e =>
    e = { s.dev with regs := e.regs, cad := { s.dev.cad with fired := s.dev.cad.fired.drop 1 } } ∧
    e.rd R.CAD_CNT_WIN_SKIP = satAdd 16 (s.dev.rd R.CAD_CNT_WIN_SKIP) 1 ∧ RegsKept s.dev e [R.CAD_CNT_WIN_SKIP.key 0])) ∧
  (s.dev.acting row 2 = some f → s.dev.cad.fired = [f] → s.dev.planActive = true → f.fwd = true → l < 16 →
    s.dev.ing.streams.length = 16 → rowArg f.bytes = 2 ^ l → (s.dev.streamRec l).isEmpty = false →
    (s.dev.stream l).openWin = none → Gives (.winOpen row) s (fun e =>
      e.cad.fired = [] ∧ (e.stream l).openWin.map (fun w => (w.num, w.openAt, w.openPhase)) =
        some ((s.dev.stream l).nextWin, s.dev.beat, s.dev.phase) ∧
      ∀ k, k < 16 → k ≠ l → e.stream k = s.dev.stream k)) ∧
  (s.dev.acting row 3 = some f → s.dev.cad.fired = [f] → s.dev.planActive = true → l < 16 → rowArg f.bytes = 2 ^ l →
    s.dev.ing.streams.length = 16 → Gives (.winClose row) s (fun e => e.cad.fired = [] ∧
      (e.stream l).wins.length = (s.dev.stream l).wins.length ∧
      (∀ w, (s.dev.stream l).openWin = some w → (e.stream l).wins.any
        (fun v => v.num == w.num && decide (v.closeAt = some s.dev.beat)) = true) ∧
      ∀ k, k < 16 → k ≠ l → e.stream k = s.dev.stream k)) ∧
  (s.dev.acting row 4 = some f → (s.dev.acted.loopTiming f).2 = true → exec (.loopSample row) s =
    .next { s with dev := (s.dev.acted.loopTiming f).1.sampleNow }) ∧
  (s.dev.acting row 4 = some f → s.dev.loopPhase = true → s.dev.isSet R.CAD_STATUS_HOLD_TIMING = false →
    s.dev.lpeOn = true → s.dev.lpe.pend = [] → s.dev.lpe.lastS = none → Gives (.loopSample row) s (fun e =>
      e.lpe.lastS = some s.dev.beat ∧ e.rd R.LPE_SAMPLES = satAdd 32 (s.dev.rd R.LPE_SAMPLES) 1 ∧
      e.cad.loopFire = some f.beat ∧ e.cad.loopCount = some f.beat)) ∧
  (s.dev.heldDue = true → exec .heldLoopSample s = .next { s with dev := ({ s.dev with cad :=
    { s.dev.cad with holdLast := some s.dev.beat } }).sampleNow }) ∧
  (s.dev.acting row 5 = some f → s.dev.decOn = true → l < 8 → rowArg f.bytes = 2 ^ l → lnMode (tgLine s.dev.tgSec l) = 2 →
    nth none s.dev.trg.pulses l = none → nth none s.dev.trg.held l = some true → Gives (.decStrobe row) s (fun e =>
      e = { s.dev with
        regs := e.regs, cad := { s.dev.cad with fired := s.dev.cad.fired.drop 1 },
        trg := { s.dev.trg with
          held := s.dev.trg.held.set l none,
          pulses := s.dev.trg.pulses.set l (some (s.dev.beat + lnPulse (tgLine s.dev.tgSec l))) } } ∧
      e.rdi R.TRG_DEC_STROBES l = satAdd 32 (s.dev.rdi R.TRG_DEC_STROBES l) 1 ∧
      RegsKept s.dev e [R.TRG_DEC_STROBES.key l])) ∧
  (s.dev.acting row 7 = some f → exec (.sadSync row) s =
    .next { s with dev := (s.dev.acted.sadSyncs s.dev.beat (rowArg f.bytes)) }) ∧
  (s.dev.cad.fired = [] → exec (.frameStartRow row) s = .next s ∧ exec (.winOpen row) s = .next s ∧
    exec (.winClose row) s = .next s ∧ exec (.loopSample row) s = .next s ∧ exec (.decStrobe row) s = .next s ∧
    exec (.planArmRow row) s = .next s ∧ exec (.sadSync row) s = .next s)

/-- No frame begins without the sequencer at work, while a frame runs or before the frame before has ended, and then
nothing changes. With no plan active and nothing waiting for the boundary, the start-up frame begins there:
SEQ_FRAME goes up by one and VARIANT is 0. With a plan active, no arm and no move pending, a free-running plan's
frame begins at once and an anchored one's when a frame start fired in an earlier beat is due; with none due TOL
beats after the last end, UNANCHORED_FRAME_START begins it and counts FS_UNANCH. A halt that waits enters HALTED:
STATE is 4, no plan is active and the start-up timeline runs. -/
def Obligations.FrameBoundaries : Prop :=
  ∀ s : State,
  ((s.dev.sqOn = false ∨ s.dev.sq.frameAt.isSome = true ∨ s.dev.beat < s.dev.sq.frameEnd) → exec .frameBoundary s = .next s) ∧
  (s.dev.sqOn = true → s.dev.sq.frameAt = none → s.dev.sq.frameEnd ≤ s.dev.beat → s.dev.planActive = false →
    s.dev.sq.moving = false → s.dev.sq.arm = none → s.dev.sq.coolPending = false → s.dev.sq.changes = [] →
    s.dev.cad.srcPending = false → Gives .frameBoundary s (fun e =>
      e.sq.frameAt = some s.dev.beat ∧ e.sq.frameNo = s.dev.sq.frameNo ∧ e.sq.tokens = [] ∧ e.sq.status = 0 ∧
      e.rd R.SEQ_FRAME = (s.dev.rd R.SEQ_FRAME + 1) % 2 ^ 64 ∧ e.rd R.SEQ_STATUS_VARIANT = 0 ∧ e.cad.due = none ∧
      e.beat = s.dev.beat ∧ e.clients = s.dev.clients ∧ e.rst = s.dev.rst ∧ e.pw = s.dev.pw ∧ e.opt = s.dev.opt)) ∧
  (s.dev.sqOn = true → s.dev.sq.frameAt = none → s.dev.sq.frameEnd ≤ s.dev.beat → s.dev.planActive = true →
    s.dev.sq.moving = false → s.dev.sq.haltPending = false → s.dev.sq.arm = none → s.dev.sq.coolPending = false →
    s.dev.frameDue = true → Gives .frameBoundary s (fun e =>
      e = s.dev.noteHeld.beginFrame false false ∧
      e.sq.frameAt = some s.dev.beat ∧ e.sq.frameNo = s.dev.sq.frameNo + 1 ∧ e.sq.tokens = [] ∧ e.sq.slots = [] ∧
      e.sq.status = 8 * b2n (s.dev.sq.frameNo == 0) ∧ e.sq.plan = s.dev.sq.plan ∧ e.sq.active = s.dev.sq.active ∧
      e.beat = s.dev.beat ∧ e.rst = s.dev.rst ∧ e.pw = s.dev.pw)) ∧
  (s.dev.sqOn = true → s.dev.sq.frameAt = none → s.dev.planActive = true → s.dev.sq.moving = false →
    s.dev.sq.haltPending = false → s.dev.sq.arm = none → s.dev.sq.coolPending = false →
    planStart s.dev.sq.active s.dev.sq.plan = 1 → s.dev.cad.due = none → s.dev.cad.targetGate = none →
    s.dev.sq.frameEnd + s.dev.rd R.CAD_FSTART_TOL ≤ s.dev.beat → Gives .unanchoredFrameStart s (fun e =>
      e = (s.dev.inc R.CAD_CNT_FS_UNANCH).beginFrame false true ∧
      e.sq.frameAt = some s.dev.beat ∧ e.sq.status = 2 + 8 * b2n (s.dev.sq.frameNo == 0) ∧ e.beat = s.dev.beat)) ∧
  (s.dev.beat < s.dev.sq.frameEnd + s.dev.rd R.CAD_FSTART_TOL → exec .unanchoredFrameStart s = .next s) ∧
  (s.dev.sqOn = true → s.dev.sq.frameAt = none → s.dev.sq.frameEnd ≤ s.dev.beat → s.dev.planActive = true →
    s.dev.sq.haltPending = true → exec .frameBoundary s = .next { s with dev := s.dev.enterHalt }) ∧
  (s.dev.sqOn = true → s.dev.sq.frameAt = none → s.dev.sq.frameEnd ≤ s.dev.beat → s.dev.planActive = true →
    s.dev.sq.haltPending = true → s.dev.sq.changes = [] → s.dev.clients = [] → Gives .frameBoundary s (fun e =>
      e.rd R.SEQ_STATUS_STATE = 4 ∧ e.rd R.SEQ_STATUS_ACTIVE = 0 ∧ e.rd R.GLB_START_STARTUP_TL = 1 ∧
      e.rd R.LPE_STATUS_STATE = 0 ∧ e.sq.haltPending = false ∧ e.sq.frameAt = some s.dev.beat))

/-- A frame ends at its length, or 24 beats after the start of the seam that cuts it; before that FRAME_END changes
nothing. SEQ_FRAME_STAT then holds the status of the frame: DEGRADED where it was cut or a token is invalid, CUT
where it was cut, and each of DEGRADED, CUT, LATE and ECC counts. A frame of the start-up timeline has status 0 and
counts nothing. -/
def Obligations.FrameEnds : Prop :=
  ∀ s : State,
  ((s.dev.sqOn = false ∨ s.dev.sq.frameAt = none ∨ s.dev.beat < s.dev.frameStop) → exec .frameEnd s = .next s) ∧
  (∀ b, s.dev.sq.moving = false → s.dev.sq.frameAt = some b → s.dev.frameStop = b + s.dev.frameLen) ∧
  (∀ b, s.dev.sq.moving = true → s.dev.sq.seamAt = some b → s.dev.frameStop = b + 24) ∧
  (s.dev.planActive = false → s.dev.frameLen = 2500) ∧
  (s.dev.sqOn = true → s.dev.sq.frameAt.isSome = true → s.dev.frameStop ≤ s.dev.beat → s.dev.planActive = false →
    s.dev.lau.sets = [] → Gives .frameEnd s (fun e =>
      e = { s.dev with
        regs := e.regs,
        sq := { s.dev.sq with frameAt := none, frameEnd := s.dev.frameStop, inflight := [] } } ∧
      e.rd R.SEQ_FRAME_STAT = 0 ∧ RegsKept s.dev e [R.SEQ_FRAME_STAT.key 0])) ∧
  (s.dev.sqOn = true → s.dev.sq.frameAt.isSome = true → s.dev.frameStop ≤ s.dev.beat → s.dev.planActive = true →
    s.dev.lau.sets = [] → s.dev.sq.moving = true → Gives .frameEnd s (fun e =>
      e.sq = { s.dev.sq with frameAt := none, frameEnd := s.dev.frameStop, inflight := [] } ∧
      e.rd R.SEQ_FRAME_STAT = (s.dev.sq.status ||| 5) % 2 ^ R.SEQ_FRAME_STAT.w ∧
      e.rd R.SEQ_CNT_DEGRADED = satAdd 16 (s.dev.rd R.SEQ_CNT_DEGRADED) 1 ∧
      e.rd R.SEQ_CNT_CUT = satAdd 16 (s.dev.rd R.SEQ_CNT_CUT) 1 ∧
      RegsKept s.dev e [R.SEQ_FRAME_STAT.key 0, R.SEQ_CNT_DEGRADED.key 0, R.SEQ_CNT_CUT.key 0, R.SEQ_CNT_LATE.key 0,
        R.SEQ_CNT_ECC.key 0] ∧
      e.beat = s.dev.beat ∧ e.mem = s.dev.mem ∧ e.clients = s.dev.clients)) ∧
  (s.dev.sqOn = true → s.dev.sq.frameAt.isSome = true → s.dev.frameStop ≤ s.dev.beat → s.dev.planActive = true →
    s.dev.lau.sets = [] → s.dev.sq.moving = false → s.dev.sq.status = 0 → Gives .frameEnd s (fun e =>
      e.rd R.SEQ_FRAME_STAT = b2n (s.dev.sq.tokens.any (fun x => x.2 == .invalid)) ∧
      e.rd R.SEQ_CNT_CUT = s.dev.rd R.SEQ_CNT_CUT ∧ e.rd R.SEQ_CNT_LATE = s.dev.rd R.SEQ_CNT_LATE ∧
      e.rd R.SEQ_CNT_ECC = s.dev.rd R.SEQ_CNT_ECC ∧ e.sq.frameAt = none))

/-- A seam begins only at the first beat of a seam slot of the running timeline, and once; elsewhere SEAM_DRAIN changes
nothing. It starts the seam at this beat, and with a plan that waits for its safe plan or a halt it cuts the frame.
At beats 16 to 20 every tile whose shadow registers were filled takes them as its active weights, once; a tile
without shadow content keeps its weights. At beat 21 alone the remap beat does what waits for it. -/
def Obligations.SeamBeats : Prop :=
  ∀ (s : State) (bad t : Nat) (k : Slot),
  (s.dev.seamNow = none → exec (.seamDrain bad) s = .next s) ∧
  (s.dev.sq.seamAt = some s.dev.beat → exec (.seamDrain bad) s = .next s) ∧
  (s.dev.seamNow = some k → k.kind = 3 ∧ k.start = s.dev.frameBeat ∧ k ∈ s.dev.slotsNow) ∧
  (s.dev.seamNow = some k → s.dev.sq.seamAt ≠ some s.dev.beat → s.dev.safeRuns = false → s.dev.pw.returning = [] →
    s.dev.cal.repls = [] → s.dev.cal.recal = [] → s.dev.planActive = false → Gives (.seamDrain bad) s (fun e =>
      e.sq.seamAt = some s.dev.beat ∧ e.sq.moving = s.dev.sq.moving ∧ e.sq.assigned = [] ∧ e.beat = s.dev.beat ∧
      e.opt.act = s.dev.opt.act ∧ e.mem = s.dev.mem)) ∧
  (s.dev.seamNow = some k → s.dev.sq.seamAt ≠ some s.dev.beat → s.dev.safeRuns = false → s.dev.pw.returning = [] →
    s.dev.planActive = true → exec (.seamDrain bad) s = .next (
      let begun := ({ s.dev with sq := { s.dev.sq with seamAt := some s.dev.beat } }).syncPower
      let cut := begun.setSq (fun q => { q with
        moving := q.moving || (s.dev.isSet R.SEQ_STATUS_SAFE_PENDING || s.dev.sq.halting) })
      { s with
        dev := cut.seamBs.drainTiles s.dev.beat (s.dev.variantNow * s.dev.frameLen + k.start) bad })) ∧
  ((∀ b, s.dev.sq.seamAt = some b → s.dev.beat < b + 16 ∨ b + 20 < s.dev.beat) → exec .weightSwap s = .next s) ∧
  (∀ b, s.dev.works 1 = true → s.dev.sq.seamAt = some b → b + 16 ≤ s.dev.beat → s.dev.beat ≤ b + 20 → t < 16 →
    s.dev.opt.shadow.length = 16 → s.dev.opt.act.length = 16 → Gives .weightSwap s (fun e =>
      e = { s.dev with opt := e.opt } ∧ nth none e.opt.shadow t = none ∧
      nth [] e.opt.act t = (nth none s.dev.opt.shadow t).getD (nth [] s.dev.opt.act t))) ∧
  ((∀ b, s.dev.sq.seamAt = some b → s.dev.beat ≠ b + 21) → exec .remapBeat s = .next s) ∧
  (∀ b, s.dev.works 1 = true → s.dev.sq.seamAt = some b → s.dev.beat = b + 21 →
    exec .remapBeat s = .next { s with dev := s.dev.remap b }) ∧
  (∀ b, s.dev.works 1 = true → s.dev.sq.seamAt = some b → s.dev.beat = b + 21 → Gives .remapBeat s (fun e =>
    e.cal.recal = [] ∧ e.beat = s.dev.beat))

/-- An item command whose item is not in the running variant, is of another kind, has not reached its START or has run
in this frame changes nothing. Otherwise the item takes the lowest-numbered free slot of its output's buffer and
does what its kind does on the tokens of the frame. A STORE has no output and takes no slot. A FETCH waits for the
earlier FETCHes of its engine; once issued it is in flight with the head of its window, and nothing else changes. -/
def Obligations.ItemsRunOnce : Prop :=
  ∀ (s : State) (i : Nat) (it : Item) (r : Run),
  (∀ op, s.dev.itemNow i op = some it → it.op = op ∧ it.start ≤ s.dev.frameBeat ∧ i ∉ s.dev.sq.doneItems ∧
    (i, it) ∈ s.dev.variantItems) ∧
  (s.dev.itemNow i 1 = none → exec (.fetchItem i) s = .next s) ∧ (s.dev.itemNow i 2 = none → exec (.storeItem i) s = .next s) ∧
  (s.dev.itemNow i 3 = none → exec (.tileItem i) s = .next s) ∧ (s.dev.itemNow i 4 = none → exec (.dmuItem i) s = .next s) ∧
  (s.dev.itemNow i 5 = none → exec (.vuItem i) s = .next s) ∧ (s.dev.itemNow i 6 = none → exec (.quantItem i) s = .next s) ∧
  (s.dev.itemNow i 7 = none → exec (.scanItem i) s = .next s) ∧
  (s.dev.resCtx.take s.dev.resRun it.out s.dev.frameBeat = some r →
    (s.dev.itemNow i 1 = some it → s.dev.fetchBehind i it = false → exec (.fetchItem i) s = .next { s with dev := { s.dev with
      sq := { s.dev.sq with
        slots := r.slot, doneItems := i :: s.dev.sq.doneItems,
        inflight := s.dev.sq.inflight ++ [(i, s.dev.seqHead it)] } } }) ∧
    (it.out ≠ noTok → s.dev.itemNow i 3 = some it →
      exec (.tileItem i) s = .next { s with dev := ((s.dev.resCtx.tile r it).keep).itemDone i }) ∧
    (it.out ≠ noTok → s.dev.itemNow i 4 = some it →
      exec (.dmuItem i) s = .next { s with dev := ((s.dev.resCtx.dmu r it).keep).itemDone i }) ∧
    (it.out ≠ noTok → s.dev.itemNow i 5 = some it →
      exec (.vuItem i) s = .next { s with dev := ((s.dev.resCtx.vu r it).keep).itemDone i }) ∧
    (it.out ≠ noTok → s.dev.itemNow i 6 = some it →
      exec (.quantItem i) s = .next { s with dev := ((s.dev.resCtx.quant r i it).keep).itemDone i }) ∧
    (it.out ≠ noTok → s.dev.itemNow i 7 = some it →
      exec (.scanItem i) s = .next { s with dev := ((s.dev.resCtx.scan r it).keep).itemDone i })) ∧
  (it.out = noTok → s.dev.itemNow i 2 = some it →
    exec (.storeItem i) s = .next { s with dev := ((s.dev.resCtx.store s.dev.resRun it).keep).itemDone i }) ∧
  (∀ x, s.dev.resCtx.take s.dev.resRun it.out s.dev.frameBeat = some r → sfind r.slot it.out = some x →
    x ≤ bufSlots (s.dev.sec 18) (tokBuf (s.dev.sec 18) it.out) ∧ 0 < x ∧ r.d = s.dev ∧ r.tok = s.dev.sq.tokens ∧
    (∀ t, t ≠ it.out → sfind r.slot t = sfind s.dev.sq.slots t) ∧
    (∀ t, (t, x) ∈ s.dev.sq.slots → tokBuf (s.dev.sec 18) t = tokBuf (s.dev.sec 18) it.out →
      s.dev.resCtx.lastUse t < s.dev.frameBeat))

/-- Where a plan has no feature span, an item that runs gives its output token valid if every input token is valid, and
invalid otherwise; the counters of its kind go up either way. A TILE item counts on the physical tile, and is
invalid and counted INVALID also where that tile is not sound. A SCAN or QUANT item with an invalid input counts
INVALID_IN, a QUANT item with valid inputs counts its elements. -/
def Obligations.TokenValidity : Prop :=
  ∀ (s : State) (i : Nat) (it : Item) (r : Run) (ok : Bool), s.dev.sec 10 = [] → it.out ≠ noTok →
  s.dev.resCtx.take s.dev.resRun it.out s.dev.frameBeat = some r →
  ok = it.ins.all (fun t => decide (sfind s.dev.sq.tokens t = some .valid)) →
  (∀ t, s.dev.itemNow i 3 = some it → t = nth it.unit s.dev.sq.tileMap it.unit → t < 16 → Gives (.tileItem i) s (fun e =>
    (sfind e.sq.tokens it.out = some .valid ↔
      ok = true ∧ s.dev.tileSpoiled t it.tRow it.tRows = false ∧ s.dev.opt.spoiled.contains t = false) ∧
    e.rdi R.OPT_TILE_ITEMS t = satAdd 32 (s.dev.rdi R.OPT_TILE_ITEMS t) 1 ∧
    e.rd R.OPT_VEC = satAdd 64 (s.dev.rd R.OPT_VEC) it.tNv ∧
    (ok = false → sfind e.sq.tokens it.out = some .invalid ∧
      e.rdi R.OPT_TILE_INVALID t = satAdd 16 (s.dev.rdi R.OPT_TILE_INVALID t) 1) ∧
    i ∈ e.sq.doneItems ∧ e.opt = s.dev.opt ∧ e.beat = s.dev.beat)) ∧
  (s.dev.itemNow i 4 = some it → Gives (.dmuItem i) s (fun e =>
    sfind e.sq.tokens it.out = some (if ok then .valid else .invalid) ∧
    e.rd R.DMU_ITEMS = satAdd 32 (s.dev.rd R.DMU_ITEMS) 1 ∧ i ∈ e.sq.doneItems ∧ e.beat = s.dev.beat)) ∧
  (s.dev.itemNow i 5 = some it → it.unit < 8 → Gives (.vuItem i) s (fun e =>
    sfind e.sq.tokens it.out = some (if ok then .valid else .invalid) ∧
    e.rdi R.VU_ITEMS it.unit = satAdd 32 (s.dev.rdi R.VU_ITEMS it.unit) 1 ∧ i ∈ e.sq.doneItems ∧
    RegsKept s.dev e [R.VU_ITEMS.key it.unit, R.VU_NAN.key 0] ∧ e.beat = s.dev.beat)) ∧
  (s.dev.itemNow i 6 = some it → Gives (.quantItem i) s (fun e =>
    sfind e.sq.tokens it.out = some (if ok then .valid else .invalid) ∧
    (ok = true → e.rd R.QNT_ELEM = satAdd 64 (s.dev.rd R.QNT_ELEM) it.qE ∧ e.free = s.dev.free) ∧
    (ok = false → e.rd R.QNT_CNT_INVALID_IN = satAdd 16 (s.dev.rd R.QNT_CNT_INVALID_IN) 1 ∧
      RegsKept s.dev e [R.QNT_CNT_INVALID_IN.key 0]) ∧ i ∈ e.sq.doneItems ∧ e.beat = s.dev.beat)) ∧
  (s.dev.itemNow i 7 = some it → Gives (.scanItem i) s (fun e =>
    sfind e.sq.tokens it.out = some (if ok then .valid else .invalid) ∧
    (ok = true → e.regs = s.dev.regs) ∧
    (ok = false → e.rd R.QNT_CNT_INVALID_IN = satAdd 16 (s.dev.rd R.QNT_CNT_INVALID_IN) 1 ∧
      RegsKept s.dev e [R.QNT_CNT_INVALID_IN.key 0]) ∧ i ∈ e.sq.doneItems ∧ e.beat = s.dev.beat))

/-- FETCH_DATA_ARRIVED of an item that is not in flight changes nothing. Of one in flight, outside a sequence window,
clean data of working and unpoisoned memory become the bytes of the token's slot; the token is valid, but invalid
where a reader has already found it late. Data with an uncorrectable error make it invalid, and the memory's counter
and MEM_LAST_UE note it. A plain STORE to staging or a tier writes the token's bytes to its range where the memory
works and leaves every byte outside the range and every register as they were. -/
def Obligations.FetchAndStore : Prop :=
  ∀ (s : State) (i o : Nat) (it : Item) (h : Nat) (ecc : EccResult), it.mSeq = false → it.mAppend = false → it.mSpace < 3 →
  (s.dev.sq.inflight.all (fun e => e.1 != i) = true → exec (.fetchDataArrived i ecc) s = .next s) ∧
  (s.dev.sq.inflight.find? (fun e => e.1 == i) = some (i, h) → s.dev.variantItems.find? (fun e => e.1 == i) = some (i, it) →
    it.op = 1 → it.out ≠ noTok → s.dev.reachesFailed it.mSpace it.mAddr it.mLen = false →
    s.dev.poisoned it.mSpace it.mAddr it.mLen = false → Gives (.fetchDataArrived i .clean) s (fun e =>
      sfind e.sq.tokens it.out = some (if (sfind s.dev.sq.tokens it.out).isSome then .invalid else .valid) ∧
      e.sq.inflight = s.dev.sq.inflight.filter (fun x => x.1 ≠ i) ∧ e.regs = s.dev.regs ∧ e.beat = s.dev.beat ∧
      ∀ k, k < it.mLen → s.dev.resCtx.addr s.dev.resRun it.out + k < stgSize →
        e.memByte 0 (s.dev.resCtx.addr s.dev.resRun it.out + k) = s.dev.memByte it.mSpace (it.mAddr + k))) ∧
  (s.dev.sq.inflight.find? (fun e => e.1 == i) = some (i, h) → s.dev.variantItems.find? (fun e => e.1 == i) = some (i, it) →
    it.op = 1 → it.out ≠ noTok → it.mAddr + o < 2 ^ 41 → Gives (.fetchDataArrived i (.uncorrectable o)) s (fun e =>
      sfind e.sq.tokens it.out = some .invalid ∧ bitAt e.sq.status 5 = true ∧
      (it.mSpace = 0 → e.rd R.MEM_CNT_SRAM_UE = satAdd 16 (s.dev.rd R.MEM_CNT_SRAM_UE) 1) ∧
      (it.mSpace = 1 → e.rd R.MEM_CNT_T1_UE = satAdd 16 (s.dev.rd R.MEM_CNT_T1_UE) 1) ∧
      (it.mSpace = 2 → e.rd R.MEM_CNT_T2_UE = satAdd 16 (s.dev.rd R.MEM_CNT_T2_UE) 1) ∧
      e.rd R.MEM_LAST_UE_SPACE = it.mSpace ∧ e.rd R.MEM_LAST_UE_OFFSET = (it.mAddr + o) % 2 ^ R.MEM_LAST_UE_OFFSET.w ∧
      e.beat = s.dev.beat)) ∧
  (s.dev.itemNow i 2 = some it → it.out = noTok → s.dev.sec 10 = [] → Gives (.storeItem i) s (fun e =>
    e.regs = s.dev.regs ∧ i ∈ e.sq.doneItems ∧ e.beat = s.dev.beat ∧ e.sq.slots = s.dev.sq.slots ∧
    (∀ k, k < it.mLen → s.dev.byteWorks it.mSpace (it.mAddr + k) = true → e.memByte it.mSpace (it.mAddr + k) =
      nth 0 (s.dev.resCtx.bytes s.dev.resRun it.inA it.mLen) k) ∧
    (∀ sp a, sp < 3 → sp ≠ it.mSpace ∨ a < it.mAddr ∨ it.mAddr + it.mLen ≤ a → e.memByte sp a = s.dev.memByte sp a)))

/-- Where a plan has no feature span, a DECIDE item that runs takes the next set number and gives its record as a token
that is valid exactly where its inputs are. Valid inputs of a frame not before LAG count VALID; others fire no bit,
set no line and count INVALID unless the decision is EARLY. At LAT_DEC, and only then, the decision is acted on; one
that is not valid and not kept touches neither the lines nor the queue. Valid ones set the lines: a FRAME line whose
bits pass starts its pulse if it is idle. A pulse ends once its width has run. A BUILD item of a plan without BUILD
does nothing but clear STALL, with BUILD and an empty queue too. -/
def Obligations.TriggerDecides : Prop :=
  ∀ (s : State) (i : Nat) (it : Item) (r : Run) (x : Decided) (l : Nat) (q : QSet),
  (s.dev.itemNow i 8 = none → exec (.decideItem i) s = .next s) ∧ (s.dev.itemNow i 9 = none → exec (.buildItem i) s = .next s) ∧
  (∀ ok : Bool, s.dev.sec 10 = [] → it.out ≠ noTok → s.dev.resCtx.take s.dev.resRun it.out s.dev.frameBeat = some r →
    ok = it.ins.all (fun t => decide (sfind s.dev.sq.tokens t = some .valid)) → s.dev.itemNow i 8 = some it →
    Gives (.decideItem i) s (fun e =>
      e.rd R.TRG_SET = (s.dev.rd R.TRG_SET + 1) % 2 ^ 64 ∧
      sfind e.sq.tokens it.out = some (if ok then .valid else .invalid) ∧ i ∈ e.sq.doneItems ∧ e.beat = s.dev.beat ∧
      e.trg.decided.map (fun y => (y.valid, y.early)) =
        some (ok && !decide (s.dev.frameIdx < tgLag s.dev.tgSec), decide (s.dev.frameIdx < tgLag s.dev.tgSec)) ∧
      (ok = true → tgLag s.dev.tgSec ≤ s.dev.frameIdx → e.rd R.TRG_VALID = satAdd 32 (s.dev.rd R.TRG_VALID) 1) ∧
      (ok = false ∨ s.dev.frameIdx < tgLag s.dev.tgSec → e.trg.decided.map (fun y => (y.lines, y.accepted)) = some (0, false) ∧
        e.trg.fires = s.dev.trg.fires ∧ e.rd R.TRG_VALID = s.dev.rd R.TRG_VALID) ∧
      (ok = false → tgLag s.dev.tgSec ≤ s.dev.frameIdx → e.rd R.TRG_INVALID = satAdd 32 (s.dev.rd R.TRG_INVALID) 1))) ∧
  (s.dev.frameBeat ≠ planLatDec s.dev.sq.active s.dev.sq.plan ∨ s.dev.trg.decided = none → exec .decisionBeat s = .next s) ∧
  (s.dev.framing = true → s.dev.decOn = true → s.dev.frameBeat = planLatDec s.dev.sq.active s.dev.sq.plan →
    s.dev.trg.decided = some x → x.valid = false → tgKeep s.dev.tgSec = 0 → Gives .decisionBeat s (fun e =>
      e = { s.dev with
        regs := e.regs, trg := { s.dev.trg with decided := none, keep := s.dev.trg.keep + 1 } } ∧
      RegsKept s.dev e ((List.range 16).map R.TRG_LAST.key))) ∧
  (s.dev.framing = true → s.dev.decOn = true → s.dev.frameBeat = planLatDec s.dev.sq.active s.dev.sq.plan →
    s.dev.trg.decided = some x → x.valid = true → tgBuild s.dev.tgSec = false → l < 8 → bitAt x.lines l = true →
    s.dev.trg.pulses.length = 8 → s.dev.trg.held.length = 8 → Gives .decisionBeat s (fun e =>
      (lnMode (tgLine s.dev.tgSec l) = 1 → nth none s.dev.trg.pulses l = none →
        nth none e.trg.pulses l = some (s.dev.beat + lnPulse (tgLine s.dev.tgSec l)) ∧
        e.rdi R.TRG_DEC_STROBES l = satAdd 32 (s.dev.rdi R.TRG_DEC_STROBES l) 1) ∧
      (lnMode (tgLine s.dev.tgSec l) = 2 → nth none e.trg.held l = some true ∧ nth none e.trg.pulses l = nth none s.dev.trg.pulses l) ∧
      e.trg.decided = none ∧ e.trg.queue = s.dev.trg.queue ∧ e.beat = s.dev.beat)) ∧
  (l < 8 → s.dev.trg.pulses.length = 8 →
    (∀ b, nth none s.dev.trg.pulses l = some b → b ≤ s.dev.beat → exec (.decPulseEnd l) s = .next { s with dev := { s.dev with
      trg := { s.dev.trg with pulses := s.dev.trg.pulses.set l none } } }) ∧
    ((∀ b, nth none s.dev.trg.pulses l = some b → s.dev.beat < b) → exec (.decPulseEnd l) s = .next s)) ∧
  (s.dev.itemNow i 9 = some it → it.out = noTok → tgBuild s.dev.tgSec = false ∨ s.dev.trg.queue = [] → Gives (.buildItem i) s (fun e =>
    e.rd R.TRG_STATUS_STALL = 0 ∧ RegsKept s.dev e [R.TRG_STATUS_STALL.key 0] ∧ e.trg.queue = s.dev.trg.queue ∧
    e.trg.bld = s.dev.trg.bld ∧ i ∈ e.sq.doneItems ∧ e.beat = s.dev.beat ∧ e.mem = s.dev.mem)) ∧
  (s.dev.itemNow i 9 = some it → it.out = noTok → tgBuild s.dev.tgSec = true → s.dev.works 9 = true →
    s.dev.trg.queue = [q] → q.streams = 0 → s.dev.trg.bld = {} → 18 ≤ it.dur →
    128 ≤ s.dev.aetSpace (tgDest s.dev.tgSec) → Gives (.buildItem i) s (fun e =>
      e.trg.queue = [] ∧ e.trg.bld = {} ∧ i ∈ e.sq.doneItems ∧ e.beat = s.dev.beat))

/-- The first HOUSEKEEPING slot of a frame runs its fixed items once and takes the beats they need; outside it nothing
happens. A doorbell record that answers the client's outstanding read waits; another is dropped. A well-formed
descriptor makes the ring's oldest fetched command ready and keeps its arrival beat; a malformed one halts the ring
with MALFORMED. Data go to the oldest command of the ring that waits for them; a LOAD_TENSOR with its last byte ends
OK with its length. A failed read ends its command ABORTED and counts; a read without completion ends it TIMEOUT and
counts; data that nothing waits for are dropped. -/
def Obligations.RecordsAndDescriptors : Prop :=
  ∀ (s : State) (c r : Nat) (bytes : List Nat) (k : Cmd), c ≤ 256 → r < 8 →
  ((s.dev.firstHkp = none ∨ s.dev.sqOn = false ∨ s.dev.sq.frameAt = none ∨ s.dev.sq.hkpDone = true) →
    exec .housekeepingSlot s = .next s) ∧
  (∀ h, s.dev.firstHkp = some h → s.dev.sqOn = true → s.dev.sq.frameAt.isSome = true → s.dev.cutOver = false →
    s.dev.sq.hkpDone = false → h.start ≤ s.dev.frameBeat → s.dev.frameBeat < h.start + h.len → Gives .housekeepingSlot s (fun e =>
      e.sq.hkpDone = true ∧ sfind e.sq.used 0 = some (h.start + s.dev.fixedBeats) ∧ e.sq.frameAt = s.dev.sq.frameAt ∧
      e.beat = s.dev.beat)) ∧
  (s.dev.running = true → (s.dev.client c).polling = true → exec (.doorbellRecordArrived c bytes) s = .next { s with
    dev := s.dev.setClient c { s.dev.client c with polling := false, record := some bytes } }) ∧
  ((s.dev.client c).polling = false → exec (.doorbellRecordArrived c bytes) s = .next s) ∧
  (s.dev.onTheWay c r = some k → s.dev.ringState c r ≠ 3 → malformed (s.dev.pset c R.RNG_CTL_CRC_REQ) bytes = false →
    exec (.descriptorArrived c r bytes) s = .next { s with dev := s.dev.upd c k.seqNo (fun x => { x with
      desc := bytes, phase := .ready, readyAt := s.dev.beat }) }) ∧
  (s.dev.onTheWay c r = some k → s.dev.ringState c r ≠ 3 → malformed (s.dev.pset c R.RNG_CTL_CRC_REQ) bytes = true →
    Gives (.descriptorArrived c r bytes) s (fun e =>
      e.ringState c r = 2 ∧ e.prd c R.RNG_STATUS_HALTED r = 1 ∧ e.prd c R.RNG_STATUS_RUN r = 0 ∧
      e.prd c R.RING_HALT r = k.index % 2 ^ 32 ∧
      e.prd c R.RNG_CNT_MALF = satAdd 16 (s.dev.prd c R.RNG_CNT_MALF) 1 ∧
      (∀ x, x ∈ e.cmds c → x.seqNo = k.seqNo → x.phase = .done ∧ x.status = stMalformed) ∧
      (∀ x, x ∈ e.cmds c → x.ring = r → x.seqNo ≤ k.seqNo) ∧ e.beat = s.dev.beat ∧ e.out = s.dev.out)) ∧
  (s.dev.onTheWay c r = none → exec (.descriptorArrived c r bytes) s = .next s) ∧
  (s.dev.running = true → s.dev.waitingRead c r = none → exec (.hostCompletionArrived c r .data bytes) s = .next s) ∧
  (s.dev.running = true → s.dev.waitingRead c r = some k → s.dev.cmds c = [k] → k.op = opLoad → k.phase = .running →
    bytes.length = k.awaiting → k.pos = k.total → s.dev.noSolve = true → Gives (.hostCompletionArrived c r .data bytes) s (fun e =>
      (e.cmds c).map (fun x => (x.phase, x.status, x.result, x.awaiting)) =
        [(.done, if k.degraded then stDegraded else stOk, k.total, 0)] ∧ e.regs = s.dev.regs ∧ e.beat = s.dev.beat)) ∧
  (s.dev.running = true → s.dev.waitingRead c r = some k → s.dev.cmds c = [k] → k.op = opLoad → k.phase = .running →
    s.dev.noSolve = true → Gives (.hostCompletionArrived c r .failed bytes) s (fun e =>
      (e.cmds c).map (fun x => (x.phase, x.status, x.result, x.awaiting)) = [(.done, stAborted, 0, 0)] ∧
      e.rd R.HIF_CNT_CPL_ERR = satAdd 16 (s.dev.rd R.HIF_CNT_CPL_ERR) 1 ∧ e.beat = s.dev.beat)) ∧
  (s.dev.running = true → s.dev.waitingRead c r = some k → s.dev.cmds c = [k] → k.op = opLoad → k.phase = .running →
    s.dev.noSolve = true → Gives (.completionTimeout c r) s (fun e =>
      (e.cmds c).map (fun x => (x.phase, x.status, x.result, x.awaiting)) = [(.done, stTimeout, 0, 0)] ∧
      e.rd R.HIF_CNT_CPL_TO = satAdd 16 (s.dev.rd R.HIF_CNT_CPL_TO) 1 ∧ e.beat = s.dev.beat)) ∧
  (s.dev.running = true → Gives (.completionTimeout c 8) s (fun e => (e.client c).polling = false ∧ e.cmds c = s.dev.cmds c)) ∧
  (s.dev.running = false → exec (.hostCompletionArrived c r .data bytes) s = .next s ∧ exec (.completionTimeout c r) s = .next s)

/-- A command that is not next, not ready, behind a FENCE, or on a ring that does not run does not start, and nothing
changes. One that starts does so for its opcode: NOP and FENCE end OK with RESULT 0; LOAD_TENSOR and STORE_TENSOR
run with their length where their addresses are aligned, in the client's memory and host range, and end RANGE for a
length of 0; RUN_SECTION, TRAIN_STEP, SOLVE_QP and READ_TRACE run with what they are to move. A command whose right
the client does not hold ends FORBIDDEN and is counted; a tag seen before ends DUPLICATE with the earlier result; a
tag of a command that is still at work waits. -/
def Obligations.CommandsStart : Prop :=
  ∀ (s : State) (c r : Nat) (k : Cmd) (b n res st : Nat), c ≤ 256 → r < 8 →
  (s.dev.starting c r opNop = none → exec (.nop c r) s = .next s) ∧
  (s.dev.starting c r opFence = none → exec (.fence c r) s = .next s) ∧
  (s.dev.starting c r opLoad = none → exec (.loadTensor c r) s = .next s) ∧
  (s.dev.starting c r opStore = none → exec (.storeTensor c r) s = .next s) ∧
  (s.dev.starting c r opSection = none → exec (.runSection c r) s = .next s) ∧
  (s.dev.starting c r opTrain = none → exec (.trainStep c r) s = .next s) ∧
  (s.dev.starting c r opTrace = none → exec (.readTrace c r) s = .next s) ∧
  (∀ op, s.dev.starting c r op = some k → s.dev.running = true ∧ k ∈ s.dev.cmds c ∧ k.ring = r ∧ k.phase = .ready ∧ k.op = op ∧
    ∀ x ∈ s.dev.cmds c, x.seqNo < k.seqNo → x.op = opFence → x.phase = .done) ∧
  (s.dev.mayStart c r opNop k = true → exec (.nop c r) s = .next { s with dev := s.dev.finish c k stOk 0 0 }) ∧
  (s.dev.mayStart c r opFence k = true → exec (.fence c r) s = .next { s with dev := s.dev.finish c k stOk 0 0 }) ∧
  (s.dev.mayStart c r opLoad k = true → k.src % 64 = 0 → devOff k.dest % 64 = 0 → k.len % 64 = 0 → 64 ≤ k.len →
    k.len ≤ 2 ^ 36 → devSpace k.dest ≠ 3 → s.dev.clientSpace c (devSpace k.dest) = some (b, n) → devOff k.dest + k.len ≤ n →
    s.dev.inHole (devSpace k.dest) (b + devOff k.dest) k.len = false → s.dev.reqOk c k.src k.len = true →
    s.dev.fitsSome c moveNeed 16 = true → exec (.loadTensor c r) s = .next { s with
      dev := s.dev.upd c k.seqNo (fun x => { x with phase := .running, total := k.len }) }) ∧
  (s.dev.mayStart c r opLoad k = true → k.len = 0 → exec (.loadTensor c r) s =
    .next { s with dev := s.dev.finish c k stRange 0 0 }) ∧
  (s.dev.mayStart c r opStore k = true → k.dest % 64 = 0 → devOff k.src % 64 = 0 → k.len % 64 = 0 → 64 ≤ k.len →
    k.len ≤ 2 ^ 36 → devSpace k.src ≠ 3 → s.dev.clientSpace c (devSpace k.src) = some (b, n) → devOff k.src + k.len ≤ n →
    s.dev.inHole (devSpace k.src) (b + devOff k.src) k.len = false → s.dev.reqOk c k.dest k.len = true →
    s.dev.fitsSome c moveNeed 16 = true → exec (.storeTensor c r) s = .next { s with
      dev := s.dev.upd c k.seqNo (fun x => { x with phase := .running, total := k.len }) }) ∧
  (s.dev.mayStart c r opSection k = true → k.src % 4096 = 0 → 0 < k.len → k.len ≤ 65536 → k.par16 40 ≠ 0 →
    s.dev.reqOk c k.src k.len = true → s.dev.fitsSome c moveNeed 16 = true → exec (.runSection c r) s = .next { s with
      dev := s.dev.upd c k.seqNo (fun x => { x with phase := .running, total := k.len }) }) ∧
  (s.dev.mayStart c r opTrain k = true → k.src % 4096 = 0 → 0 < k.len → k.len ≤ 81920 → 0 < k.batch → k.action ≤ 1 →
    s.dev.reqOk c k.src k.len = true → s.dev.reqOk c k.dest 64 = true → s.dev.fitsSome c moveNeed 16 = true →
    exec (.trainStep c r) s = .next { s with
      dev := s.dev.upd c k.seqNo (fun x => { x with phase := .running, total := k.len }) }) ∧
  (s.dev.mayStart c r opQp k = true → k.src % 4096 = 0 → 0 < k.len → k.len ≤ 2 ^ 21 → s.dev.mpcPlan = false →
    (s.dev.clientSlots c qpNeed).isEmpty = false → s.dev.reqOk c k.src k.len = true → exec (.solveQp c r) s = .next { s with
      dev := (s.dev.upd c k.seqNo (fun x => { x with phase := .running, total := k.len })).qpSettle }) ∧
  (s.dev.mayStart c r opQp k = true → s.dev.mpcPlan = true → k.src % 4096 = 0 → 0 < k.len → k.len ≤ 2 ^ 21 →
    exec (.solveQp c r) s = .next { s with dev := (s.dev.finish c k stUnavailable 0 0).qpSettle }) ∧
  (s.dev.mayStart c r opTrace k = true → 0 < k.par16 44 → k.par16 42 + k.par16 44 ≤ 8192 →
    k.len = ((setBits (k.par8 40) 8).length + 1) * k.par16 44 * 4 → s.dev.rd R.LPE_TRC_STATUS_STATE = 4 →
    s.dev.reqOk c k.dest k.len = true → s.dev.fitsSome c moveNeed 16 = true → exec (.readTrace c r) s = .next { s with
      dev := s.dev.upd c k.seqNo (fun x => { x with
        phase := .running, total := k.len, data := s.dev.traceColumns (k.par8 40) (k.par16 42) (k.par16 44) }) }) ∧
  (s.dev.starting c r opSection = some k → s.dev.tagMatch c k = none → rightBit opSection = some b →
    s.dev.rightOk c b = false → k.src ≠ 0 → Gives (.runSection c r) s (fun e =>
      e.regs = (s.dev.rightDeny c k.src).regs ∧ e.cmds c = ((s.dev.finish c k stForbidden 0 0).cmds c) ∧
      e.rd R.HIF_CNT_RIGHT_DENY = satAdd 16 (s.dev.rd R.HIF_CNT_RIGHT_DENY) 1)) ∧
  (s.dev.starting c r opNop = some k → s.dev.tagMatch c k = some (some (res, st)) → Gives (.nop c r) s (fun e =>
    (∀ x ∈ e.cmds c, x.seqNo = k.seqNo → x.phase = .done ∧ x.status = stDuplicate ∧ x.result = res ∧ x.detail = st ∧
      x.tagged = false) ∧ e.prd c R.RNG_CNT_DUP = satAdd 16 (s.dev.prd c R.RNG_CNT_DUP) 1 ∧
    RegsKept s.dev e [(R.RNG_CNT_DUP.page c).key 0])) ∧
  (s.dev.starting c r opNop = some k → s.dev.tagMatch c k = some none → exec (.nop c r) s = .next s)

/-- READ_STATS ends FORBIDDEN for a block of registers asked by another client than 0 and RANGE for a wrong length; one
that runs and has room for its 16 beats writes its bytes to the host and ends OK. A CAL_REQUEST of kind 1 or 2 runs
with its length, one of kind 3 runs where its tile is ON and ends UNAVAILABLE elsewhere; kind 3 of another client is
FORBIDDEN and an unknown kind is RANGE. A TABLE_WRITE row of at most 16 bytes comes from its parameters and waits
for the next frame boundary, if it is a legal row; a longer one is read first; a wrong length or row is RANGE. -/
def Obligations.ReadsAndTables : Prop :=
  ∀ (s : State) (c r : Nat) (k : Cmd) (key p left size rows : Nat), c ≤ 256 → r < 8 →
  (s.dev.starting c r opCal = none → exec (.readCurves c r) s = .next s ∧ exec (.readMonitors c r) s = .next s ∧
    exec (.recalRow c r) s = .next s) ∧
  (s.dev.mayStart c r opStats k = true → k.par8 8 ≤ 0x16 → c ≠ 0 →
    (s.dev.finish c k stForbidden 0 0).runningCmd c r opStats = none →
    exec (.readStats c r) s = .next { s with dev := s.dev.finish c k stForbidden 0 0 }) ∧
  (s.dev.starting c r opStats = none → s.dev.runningCmd c r opStats = some k → s.dev.busOk c = true →
    s.dev.myTurn c r = true →
    s.dev.room c {} k.firstOf = some (key, p, left) → 16 ≤ left → s.dev.reqOk c k.dest k.total = true →
    Gives (.readStats c r) s (fun e =>
      e = (((s.dev.useBeats c k key p 16).hostWrite c k.dest
        ((s.dev.useBeats c k key p 16).statsBytes c (k.par8 8)))).finishOk c k 0 ∧
      (∀ x ∈ e.cmds c, x.seqNo = k.seqNo → x.phase = .done) ∧ sfind e.sq.used key = some (p + 16) ∧
      e.prd c R.RNG_STEPS = satAdd 32 (s.dev.prd c R.RNG_STEPS) 1 ∧ e.mem = s.dev.mem)) ∧
  (s.dev.mayStart c r opCal k = true → k.calKind = 1 → k.calTile < 16 → k.calRow ≤ 256 → k.len = 133640 →
    s.dev.reqOk c k.dest k.len = true → exec (.readCurves c r) s = .next { s with
      dev := s.dev.upd c k.seqNo (fun x => { x with phase := .running, total := 133640 }) }) ∧
  (s.dev.mayStart c r opCal k = true → k.calKind = 2 → k.calTile < 16 → k.calRow ≤ 256 → k.len = 2736 →
    s.dev.reqOk c k.dest k.len = true → exec (.readMonitors c r) s = .next { s with
      dev := s.dev.upd c k.seqNo (fun x => { x with phase := .running, total := 2736 }) }) ∧
  (s.dev.mayStart 0 r opCal k = true → k.calKind = 3 → k.calTile < 16 → k.calRow ≤ 256 → k.len = 0 → k.dest = 0 →
    exec (.recalRow 0 r) s = .next { s with
      dev := if s.dev.rdi R.CAL_TILE_STATE k.calTile = 0 then s.dev.upd 0 k.seqNo (fun x => { x with phase := .running })
             else s.dev.finish 0 k stUnavailable 0 0 }) ∧
  (s.dev.mayStart c r opCal k = true → k.calKind = 3 → c ≠ 0 →
    exec (.recalRow c r) s = .next { s with dev := s.dev.finish c k stForbidden 0 0 }) ∧
  (s.dev.mayStart c r opCal k = true → 3 < k.calKind →
    exec (.readCurves c r) s = .next { s with dev := s.dev.finish c k stRange 0 0 }) ∧
  (s.dev.mayStart 0 r opTable k = true → tableShape (k.par8 8) = some (size, rows) → k.len = size →
    k.par16 10 < rows →
    (size ≤ 16 → s.dev.rowOk (k.par8 8) (k.par16 10) (bytesAt k.desc 40 16) = true →
      s.dev.sq.changes.all (fun x => x.seqNo != k.seqNo) = true → Gives (.tableWrite 0 r) s (fun e =>
        e.sq = { s.dev.sq with changes := s.dev.sq.changes ++
          [⟨0, k.seqNo, k.par8 8, k.par16 10, bytesAt k.desc 40 16⟩] } ∧
        (∀ x ∈ e.cmds 0, x.seqNo = k.seqNo → x.phase = .waiting) ∧ e.regs = s.dev.regs ∧ e.mem = s.dev.mem)) ∧
    (16 < size → s.dev.reqOk 0 k.src size = true → Gives (.tableWrite 0 r) s (fun e =>
        e.sq = { s.dev.sq with changes := s.dev.sq.changes ++ [⟨0, k.seqNo, k.par8 8, k.par16 10, []⟩] } ∧
        (∀ x ∈ e.cmds 0, x.seqNo = k.seqNo → x.phase = .running) ∧ e.regs = s.dev.regs ∧ e.mem = s.dev.mem))) ∧
  (s.dev.mayStart 0 r opTable k = true → tableShape (k.par8 8) = some (size, rows) →
    k.len ≠ size ∨ rows ≤ k.par16 10 → exec (.tableWrite 0 r) s = .next { s with dev := s.dev.finish 0 k stRange 0 0 }) ∧
  (s.dev.starting c r opTable = none → exec (.tableWrite c r) s = .next s)

/-- A row that would take a step of a ring whose turn it is not changes nothing. When a ring of a client has a step
ready, and in a HOUSEKEEPING slot no commit step is due, some ring with a step ready has the turn; within one slot
it is one only. The ring that was served last waits for every other with a step ready, and a due commit step goes
before the steps of rings. That a slot's first step may also be the lowest ring's is the model's choice (log entry
41). -/
def Obligations.RingTurns : Prop :=
  ∀ (s : State) (c r t beats key b : Nat) (host : List (List Nat)) (bytes : List Nat) (j : UpdJob) (ok : Bool), c ≤ 256 →
  r < 8 → t < 8 →
  (s.dev.myTurn c r = false → exec (.tensorTransferStep c r beats) s = .next { s with dev := s.dev.qpSettle } ∧
    exec (.sectionRun c r host) s = .next s ∧ exec (.trainCheckStep c r) s = .next s ∧
    exec (.trainInitStep c r) s = .next s ∧ exec (.trainRunStep c r host) s = .next s ∧
    exec (.trainUpdateStep c r) s = .next s ∧ (c = 0 → exec (.planStageStep r bytes) s = .next s)) ∧
  (s.dev.boot.job = some j → j.ring = r → (s.dev.jobCmd j).isSome = true → s.dev.myTurn 0 r = false →
    exec (.flashOpStep ok) s = .next s ∧ exec (.fuseBurnStep b) s = .next s ∧ exec (.otpBurnStep bytes) s = .next s) ∧
  (s.dev.readyKey c r = some key → key ≠ 0 ∨ s.dev.commitDue = false →
    ∃ u, u < 8 ∧ s.dev.readyKey c u = some key ∧ s.dev.myTurn c u = true) ∧
  (s.dev.readyKey c r = some key → s.dev.readyKey c t = some key →
    s.dev.slotSince c key (sget (0, 7) s.dev.sq.turn (turnKey c key)).1 = false →
    s.dev.myTurn c r = true → s.dev.myTurn c t = true → r = t) ∧
  (s.dev.readyKey c r = some key → s.dev.readyKey c t = some key → r ≠ t →
    sfind s.dev.sq.turn (turnKey c key) = some (b, r) → s.dev.slotSince c key b = false → s.dev.myTurn c r = false) ∧
  (s.dev.readyKey c r = some 0 → s.dev.commitDue = true → s.dev.myTurn c r = false)

/-- A transfer step takes 16 to 1,000 beats and moves at most 256 bytes for each beat after the first 8. Without a
running command, bytes to move, bus mastering or room in a slot nothing moves. A step of LOAD_TENSOR asks the host
for its bytes and counts them as awaited; one of STORE_TENSOR writes them to the host, and the one that reaches the
length ends the command with OK, or OK_DEGRADED where a byte was poisoned or lost. Each step counts in RNG_STEPS and
uses the beats of its slot. -/
def Obligations.TransferSteps : Prop :=
  ∀ (s : State) (c r beats key p left n m : Nat) (k : Cmd), c ≤ 256 → r < 8 →
  (∀ l b, 16 ≤ (moveStep l b).1 ∧ (moveStep l b).1 ≤ 1000 ∧ (moveStep l b).2 ≤ 256 * ((moveStep l b).1 - 8) ∧
    (moveStep l b).2 ≤ b) ∧
  ((∀ x, s.dev.head c r = some x → x.phase ≠ .running ∨ x.total ≤ x.pos ∨ s.dev.busOk c = false) →
    exec (.tensorTransferStep c r beats) s = .next { s with dev := s.dev.qpSettle }) ∧
  (s.dev.head c r = some k → k.phase = .running → s.dev.running = true → s.dev.inReset 6 = false → s.dev.busOk c = true →
    k.pos < k.total → s.dev.myTurn c r = true → s.dev.room c k.moveNeed k.firstOf = some (key, p, left) →
    moveStep (min left beats) (k.total - k.pos) = (n, m) → n ≤ left →
    (k.op = opLoad → s.dev.reqOk c (k.src + k.pos) m = true → exec (.tensorTransferStep c r beats) s = .next { s with
      dev := (((s.dev.useBeats c k key p n).upd c k.seqNo (fun x => { x with
        pos := x.pos + m, awaiting := x.awaiting + m })).hostRead c (k.src + k.pos) m).qpSettle }) ∧
    (k.op = opStore → s.dev.cmds c = [k] → s.dev.noSolve = true → s.dev.reqOk c (k.dest + k.pos) m = true →
      Gives (.tensorTransferStep c r beats) s (fun e =>
        (k.pos + m < k.total → (e.cmds c).map (fun x => (x.phase, x.pos, x.awaiting)) = [(.running, k.pos + m, k.awaiting)]) ∧
        (k.pos + m = k.total → (e.cmds c).map (fun x => (x.phase, x.result, x.detail)) = [(.done, k.total, 0)] ∧
          ∀ x ∈ e.cmds c, x.status = stOk ∨ x.status = stDegraded) ∧
        sfind e.sq.used key = some (p + n) ∧ sfind e.sq.turn (turnKey c key) = some (s.dev.sq.frameAt.getD 0 + p, k.ring) ∧
        e.prd c R.RNG_STEPS = satAdd 32 (s.dev.prd c R.RNG_STEPS) 1 ∧
        RegsKept s.dev e [(R.RNG_STEPS.page c).key 0] ∧ e.mem = s.dev.mem)) ∧
    (k.op = opStore → s.dev.cmds c = [k] → s.dev.noSolve = true → s.dev.reqOk c (k.dest + k.pos) m = false →
      Gives (.tensorTransferStep c r beats) s (fun e =>
        (e.cmds c).map (fun x => (x.phase, x.status)) = [(.done, stForbidden)] ∧
        e.rd R.HIF_CNT_HOST_DENY = satAdd 16 (s.dev.rd R.HIF_CNT_HOST_DENY) 1 ∧ e.out = s.dev.out)))

/-- Without a running RUN_SECTION whose image has been read, or before its tiles are given at a seam, a run changes
nothing. A run takes SPAN beats and runs each item of the section in its order. A run with an access outside the
client's window ends the command FORBIDDEN. Otherwise the run counts, an invalid token makes the command degraded,
and the run that reaches RUNS ends it with that number as RESULT. -/
def Obligations.SectionRuns : Prop :=
  ∀ (s : State) (c r key p left : Nat) (k : Cmd) (host : List (List Nat)) (x : Run), c ≤ 256 → r < 8 →
  (s.dev.runningCmd c r opSection = none → exec (.sectionRun c r host) s = .next s) ∧
  (s.dev.runningCmd c r opSection = some k → k.stage ≠ 1 → exec (.sectionRun c r host) s = .next s) ∧
  (s.dev.runningCmd c r opSection = some k → s.dev.runReady c k k.data = false → exec (.sectionRun c r host) s = .next s) ∧
  (s.dev.runningCmd c r opSection = some k → k.stage = 1 → s.dev.runReady c k k.data = true → s.dev.busOk c = true →
    s.dev.myTurn c r = true →
    s.dev.room c (csNeed k.data) k.firstOf = some (key, p, left) → csSpan k.data ≤ left →
    x = ((s.dev.useBeats c k key p (csSpan k.data)).csRun c k.data 0 host).2 →
    (x.viol = true → exec (.sectionRun c r host) s = .next { s with
      dev := (x.d.upd c k.seqNo (fun y => { y with
        pos := k.pos + 1, degraded := k.degraded || x.anyInvalid })).finish c k stForbidden 0 0 }) ∧
    (x.viol = false → k.pos + 1 ≠ k.par16 40 → exec (.sectionRun c r host) s = .next { s with
      dev := x.d.upd c k.seqNo (fun y => { y with pos := k.pos + 1, degraded := k.degraded || x.anyInvalid }) }) ∧
    (x.viol = false → k.pos + 1 = k.par16 40 → Gives (.sectionRun c r host) s (fun e =>
      e.regs = x.d.regs ∧ e.mem = x.d.mem ∧ e.out = x.d.out ∧
      ∀ y ∈ e.cmds c, y.seqNo = k.seqNo → y.phase = .done ∧ y.result = k.pos + 1 ∧
        y.status = (if k.degraded || x.anyInvalid then stDegraded else stOk))))

/-- A step of a stage that the ring's TRAIN_STEP is not in changes nothing. A check step takes 64 beats and one group: a
group that may not be trained ends the command with the check's status and word, the others go on. Initialise and
update steps advance by the elements of their beats; with the last element an update is judged. A gradient run whose
tokens are not all valid counts as invalid; with the last run too few valid runs end the command SKIPPED, else it
comes to its update. A commit takes its beats of a HOUSEKEEPING slot, one commit in each slot, and ends the command. -/
def Obligations.TrainSteps : Prop :=
  ∀ (s : State) (c r key p left n m : Nat) (k : Cmd) (host : List (List Nat)) (sl : Slot), c ≤ 256 → r < 8 →
  (s.dev.trainCmd c r 1 = none → exec (.trainCheckStep c r) s = .next s) ∧
  (s.dev.trainCmd c r 2 = none → exec (.trainInitStep c r) s = .next s) ∧
  (s.dev.trainCmd c r 3 = none → exec (.trainRunStep c r host) s = .next s) ∧
  (s.dev.trainCmd c r 4 = none → exec (.trainUpdateStep c r) s = .next s) ∧
  (s.dev.trainCmd c r 5 = none → exec (.trainCommitStep c r) s = .next s) ∧
  (∀ st, s.dev.trainCmd c r st = some k → k.stage = st ∧ k.op = opTrain ∧ k.phase = .running ∧ k.ring = r) ∧
  (s.dev.trainCmd c r 1 = some k → s.dev.myTurn c r = true → s.dev.room c {} k.firstOf = some (key, p, left) → 64 ≤ left →
    Gives (.trainCheckStep c r) s (fun e => sfind e.sq.used key = some (p + 64) ∧ e.prd c R.RNG_STEPS = satAdd 32 (s.dev.prd c R.RNG_STEPS) 1 ∧
      (s.dev.checkGroup c k (tiRec k.data k.pos) ≠ none → ∀ x ∈ e.cmds c, x.seqNo = k.seqNo →
        x.phase = .done ∧ s.dev.checkGroup c k (tiRec k.data k.pos) = some (x.status, x.detail)) ∧
      (s.dev.checkGroup c k (tiRec k.data k.pos) = none → k.pos + 1 < tiGroups k.data → ∀ x ∈ e.cmds c, x.seqNo = k.seqNo →
        x.pos = k.pos + 1 ∧ x.tr.reinit = k.tr.reinit +
          (if s.dev.stateValid c (tiRec k.data k.pos) then 0 else 2 ^ k.pos)))) ∧
  (s.dev.trainCmd c r 2 = some k → s.dev.myTurn c r = true → s.dev.room c vuNeed k.firstOf = some (key, p, left) →
    elemStep 256 left (s.dev.elemSum k.reinits - k.pos) = some (n, m) → Gives (.trainInitStep c r) s (fun e =>
      sfind e.sq.used key = some (p + n) ∧ (k.pos + m < s.dev.elemSum k.reinits →
        ∀ x ∈ e.cmds c, x.seqNo = k.seqNo → x.pos = k.pos + m))) ∧
  (s.dev.trainCmd c r 4 = some k → s.dev.myTurn c r = true → s.dev.room c vuNeed k.firstOf = some (key, p, left) →
    elemStep 128 left (s.dev.elemSum k.groups - k.pos) = some (n, m) →
    (k.pos + m < s.dev.elemSum k.groups → exec (.trainUpdateStep c r) s = .next { s with
      dev := (s.dev.useBeats c k key p n).upd c k.seqNo (fun x => { x with pos := k.pos + m }) }) ∧
    (s.dev.elemSum k.groups ≤ k.pos + m → exec (.trainUpdateStep c r) s = .next { s with
      dev := ((s.dev.useBeats c k key p n).upd c k.seqNo (fun x => { x with pos := k.pos + m })).trainUpdated c k })) ∧
  (s.dev.trainCmd c r 3 = some k → s.dev.runReady c k (tiSec k.data) = true → s.dev.busOk c = true → 0 < k.pos →
    s.dev.myTurn c r = true →
    s.dev.room c k.runNeed k.firstOf = some (key, p, left) → csSpan (tiSec k.data) + s.dev.accBeats k ≤ left →
    (((s.dev.useBeats c k key p (csSpan (tiSec k.data) + s.dev.accBeats k)).csRun c (tiSec k.data)
      (k.pos * tiStride k.data) host).2.anyInvalid = true) →
    (((s.dev.useBeats c k key p (csSpan (tiSec k.data) + s.dev.accBeats k)).csRun c (tiSec k.data)
      (k.pos * tiStride k.data) host).2.viol = false) → Gives (.trainRunStep c r host) s (fun e =>
        (k.pos + 1 < k.batch → ∀ x ∈ e.cmds c, x.seqNo = k.seqNo →
          x.pos = k.pos + 1 ∧ x.tr = { k.tr with invalid := k.tr.invalid + 1 }) ∧
        (k.batch ≤ k.pos + 1 → k.tr.valid < tiMinValid k.data → ∀ x ∈ e.cmds c, x.seqNo = k.seqNo →
          x.phase = .done ∧ x.status = stDegraded ∧ x.result % 2 ^ 40 / 2 ^ 32 = 3) ∧
        (k.batch ≤ k.pos + 1 → tiMinValid k.data ≤ k.tr.valid → ∀ x ∈ e.cmds c, x.seqNo = k.seqNo →
          x.stage = 4 ∧ x.pos = 0))) ∧
  (s.dev.trainCmd c r 5 = some k → s.dev.hkpRoom = some (sl, p, left) → 16 + cdiv (s.dev.commitLen k) 1024 ≤ left →
    s.dev.sq.commits.contains sl.start = false → s.dev.commitBefore c = false → s.dev.stepsBegun sl = false →
    Gives (.trainCommitStep c r) s (fun e =>
      e.sq.commits = sl.start :: s.dev.sq.commits ∧ sfind e.sq.used 0 = some (p + (16 + cdiv (s.dev.commitLen k) 1024)) ∧
      ∀ x ∈ e.cmds c, x.seqNo = k.seqNo → x.phase = .done ∧ x.status = (if k.tr.invalid = 0 then stOk else stDegraded) ∧
        x.result % 2 ^ 40 / 2 ^ 32 = 0))

/-- PLAN_STAGE empties the standby half and STAGING is 1; while one runs no other starts, and one that an arm of the
standby plan would lose its image to ends UNAVAILABLE. A copy step takes 1,000 beats and moves up to 64 KiB; the
checks follow, and an image whose place or length is wrong is refused with the word in SEQ_REFUSE. PLAN_ARM of a
target above 1 ends RANGE; another becomes the pending arm, with its target and WAIT 0, for one to four admission
steps; the last of them decides. -/
def Obligations.PlansStageAndArm : Prop :=
  ∀ (s : State) (r key p left : Nat) (k : Cmd) (bytes : List Nat) (st : Staging) (a : Arm), r < 8 →
  (s.dev.sq.staging.isSome = true → exec (.planStage r) s = .next s) ∧
  (s.dev.starting 0 r opStage = none → exec (.planStage r) s = .next s) ∧
  (s.dev.mayStart 0 r opStage k = true → s.dev.sq.staging = none → s.dev.sq.arm.any (fun x => x.target == 0) = false →
    s.dev.reqOk 0 k.src k.len = true → Gives (.planStage r) s (fun e =>
      e.sq = { s.dev.sq with standby := [], sbyForms := [], staging := some { ring := k.ring, seqNo := k.seqNo } } ∧
      e.rd R.SEQ_STATUS_STAGING = 1 ∧ e.rd R.SEQ_STATUS_STANDBY = 0 ∧
      RegsKept s.dev e [R.SEQ_STATUS_STAGING.key 0, R.SEQ_STATUS_STANDBY.key 0] ∧
      (∀ x ∈ e.cmds 0, x.seqNo = k.seqNo → x.phase = .running ∧ x.total = if k.imageOk then k.len else 0))) ∧
  (s.dev.mayStart 0 r opStage k = true → s.dev.sq.staging = none → s.dev.sq.arm.any (fun x => x.target == 0) = true →
    exec (.planStage r) s = .next { s with dev := s.dev.finish 0 k stUnavailable 0 0 }) ∧
  (s.dev.runningCmd 0 r opStage = none ∨ s.dev.sq.staging = none → exec (.planStageStep r bytes) s = .next s) ∧
  (s.dev.runningCmd 0 r opStage = some k → s.dev.sq.staging = some st → st.seqNo = k.seqNo →
    s.dev.myTurn 0 r = true → s.dev.room 0 hkpNeed k.firstOf = some (key, p, left) → 1000 ≤ left →
    (k.pos < k.total → s.dev.busOk 0 = true → s.dev.cmds 0 = [k] → k.awaiting = 0 →
      s.dev.reqOk 0 (k.src + k.pos) (min 65536 (k.total - k.pos)) = true → Gives (.planStageStep r bytes) s (fun e =>
        (e.cmds 0).map (fun x => (x.phase, x.pos, x.data, x.awaiting)) = [(.running, k.pos + min 65536 (k.total - k.pos),
          k.data ++ bytes.take (min 65536 (k.total - k.pos)),
          min 65536 (k.total - k.pos) - (bytes.take (min 65536 (k.total - k.pos))).length)] ∧
        e.prd 0 R.RNG_STEPS = satAdd 32 (s.dev.prd 0 R.RNG_STEPS) 1 ∧ sfind e.sq.used key = some (p + 1000) ∧
        RegsKept s.dev e [(R.RNG_STEPS.page 0).key 0])) ∧
    (k.total ≤ k.pos → k.awaiting = 0 → st.checks + 1 < s.dev.admitSteps (maqOf k.data) → Gives (.planStageStep r bytes) s (fun e =>
      e.sq.staging = some { st with checks := st.checks + 1 } ∧ e.prd 0 R.RNG_STEPS = satAdd 32 (s.dev.prd 0 R.RNG_STEPS) 1)) ∧
    (k.total ≤ k.pos → k.awaiting = 0 → s.dev.admitSteps (maqOf k.data) ≤ st.checks + 1 → k.imageOk = false →
      Gives (.planStageStep r bytes) s (fun e =>
        e.sq.staging = none ∧ e.sq.standby = [] ∧ e.rd R.SEQ_STATUS_STAGING = 0 ∧
        e.rd R.SEQ_REFUSE = refuseWord 1 0 0xFFFF ∧ e.rdi R.HIF_EVT_PEND 1 = 1 ∧
        ∀ x ∈ e.cmds 0, x.seqNo = k.seqNo → x.phase = .done ∧ x.status = stMalformed ∧ x.detail = refuseWord 1 0 0xFFFF))) ∧
  (s.dev.mayStart 0 r opArm k = true → 1 < k.par8 40 → s.dev.sq.arm = none →
    exec (.planArm r) s = .next { s with dev := s.dev.finish 0 k stRange 0 0 }) ∧
  (s.dev.mayStart 0 r opArm k = true → k.par8 40 ≤ 1 → s.dev.sq.arm = none → s.dev.sq.frameAt = none →
    Gives (.planArm r) s (fun e =>
      e.sq.arm.map (fun x => (x.ring, x.seqNo, x.target, x.wait)) = some (k.ring, k.seqNo, k.par8 40, 0) ∧
      e.rd R.SEQ_PLAN_ARM_PENDING = 1 ∧ e.rd R.SEQ_PLAN_ARM_TARGET = k.par8 40 ∧ e.rd R.SEQ_PLAN_ARM_WAIT = 0 ∧
      (∀ x ∈ e.cmds 0, x.seqNo = k.seqNo → x.phase = .running) ∧ e.sq.arm.any (fun x => decide (1 ≤ x.steps ∧ x.steps ≤ 4)) = true)) ∧
  (s.dev.starting 0 r opArm = none → s.dev.runningCmd 0 r opArm = some k → s.dev.sq.arm = some a → a.seqNo = k.seqNo →
    s.dev.myTurn 0 r = true → s.dev.room 0 hkpNeed k.firstOf = some (key, p, left) → 1000 ≤ left →
    (1 < a.steps → Gives (.planArm r) s (fun e => e.sq.arm = some { a with steps := a.steps - 1 } ∧
      e.prd 0 R.RNG_STEPS = satAdd 32 (s.dev.prd 0 R.RNG_STEPS) 1 ∧ RegsKept s.dev e [(R.RNG_STEPS.page 0).key 0])) ∧
    (a.steps ≤ 1 → exec (.planArm r) s = .next { s with dev := (s.dev.useBeats 0 k key p 1000).armDecide k a }))

/-- Without a sample that waits for its move 8 beats ago, with the solver taken, or without the loop or solver at work
no solve starts. One that starts holds the solver from the beat 8 after the sample. An iteration of a loop solve
before its beat changes nothing, and at it the run goes one iteration on. A loop solve delivers only from its
delivery beat: SOLVES counts, the record is written, the solver is free, and the sample gets the move. A client's
solve that has run its iterations gives its result to be written and frees no solver until its command ends. -/
def Obligations.QpSolves : Prop :=
  ∀ (s : State) (x : LpSample) (q : QRun) (c n : Nat) (k : Cmd),
  (s.dev.lpe.pend.all (fun y => y.move != 1) = true → exec .qpSolveStart s = .next s) ∧
  (s.dev.qps.run.isSome = true → exec .qpSolveStart s = .next s) ∧
  (s.dev.lpe.pend.find? (fun y => y.move == 1 && !y.solving && decide (y.beat + 8 ≤ s.dev.beat)) = some x → s.dev.works 12 = true →
    s.dev.qps.run = none → s.dev.lpeOn = true → Gives .qpSolveStart s (fun e =>
      e.qps.run.map (fun r => (r.owner, r.sec, r.start, r.stamp, r.it)) = some (none, s.dev.sec 15, x.beat + 8, x.stamp, 0) ∧
      e.rd R.QPS_STATUS_STATE = 1 ∧ e.beat = s.dev.beat ∧ e.mem = s.dev.mem ∧
      RegsKept s.dev e [R.QPS_STATUS_STATE.key 0, R.QPS_STATUS_CLIENT.key 0, R.QPS_STATUS_IT.key 0, R.QPS_STATUS_WARM_OK.key 0])) ∧
  (s.dev.qps.run = none → exec .qpIterationEnd s = .next s ∧ exec .qpDelivery s = .next s) ∧
  (s.dev.qps.run = some q → q.owner = none → s.dev.beat < q.start + qpFormBeats q.sec + (q.it + 1) * qpIterBeats q.sec →
    exec .qpIterationEnd s = .next s) ∧
  (s.dev.works 12 = true → s.dev.qps.run = some q → q.owner = none →
    q.start + qpFormBeats q.sec + (q.it + 1) * qpIterBeats q.sec ≤ s.dev.beat → Gives .qpIterationEnd s (fun e =>
      e = { s.dev with regs := e.regs, qps := { s.dev.qps with run := some q.step } } ∧
      (e.rd R.QPS_STATUS_IT = if q.step.overflow ∨ qpK q.sec ≤ q.step.it then 0
        else (q.step.it + 1) % 2 ^ R.QPS_STATUS_IT.w) ∧
      RegsKept s.dev e [R.QPS_STATUS_STATE.key 0, R.QPS_STATUS_CLIENT.key 0, R.QPS_STATUS_IT.key 0, R.QPS_STATUS_WARM_OK.key 0])) ∧
  (s.dev.qps.run = some q → q.owner = none → s.dev.beat < q.start + qpBeats q.sec → exec .qpDelivery s = .next s) ∧
  (s.dev.works 12 = true → s.dev.qps.run = some q → q.owner = none → q.start + qpBeats q.sec ≤ s.dev.beat →
    s.dev.lpe.pend = [] → Gives .qpDelivery s (fun e =>
      e.qps.run = none ∧ e.rd R.QPS_STATUS_STATE = 0 ∧ e.rd R.QPS_SOLVES = satAdd 32 (s.dev.rd R.QPS_SOLVES) 1 ∧
      (q.rest.overflow = true → e.qps.warm = none) ∧
      (q.rest.overflow = false → qpWarm q.sec = true → e.qps.warm = some q.rest.z) ∧ e.beat = s.dev.beat)) ∧
  (s.dev.works 12 = true → s.dev.qps.run = some q → q.owner = some (c, n) → s.dev.cmd? c n = some k → k.stage = 1 →
    q.overflow = true ∨ qpK q.sec ≤ q.it → Gives .qpDelivery s (fun e =>
      e.qps = s.dev.qps ∧ e.rd R.QPS_SOLVES = satAdd 32 (s.dev.rd R.QPS_SOLVES) 1 ∧ e.beat = s.dev.beat ∧
      ∀ y ∈ e.cmds c, y.seqNo = n → y.stage = 2 ∧ y.pos = 0 ∧ y.status = (if q.overflow then stOverflow else stOk) ∧
        y.total = y.data.length))

/-- An update command starts only when none is at work. FW_CHUNK, FW_VERIFY, FW_ACTIVATE, FW_CONFIRM of an unconfirmed
slot and OTP_OPTION_WRITE each take the update job with their target, and BUSY is 1; a target above 3 ends RANGE,
FW_CONFIRM of a confirmed slot ends OK at once with the number of fuses. Steps without a job change nothing. An
erase step of FW_CHUNK erases its 4 KiB, which are defined from then on, a program step writes its 4 KiB of data,
and a failed one ends the command ABORTED with the flash as it was. One to three pulses burn the next anti-rollback
fuse; another number fails it and says so in BURN_FAIL. An OTP step burns the next eight fuses of the block but the
stuck ones. -/
def Obligations.UpdateCommands : Prop :=
  ∀ (s : State) (r t p left : Nat) (k : Cmd) (j : UpdJob) (sl : Slot) (stuck : List Nat), r < 8 →
  (s.dev.boot.job.isSome = true → exec (.fwChunk r) s = .next s ∧ exec (.fwVerify r) s = .next s ∧
    exec (.fwActivate r) s = .next s ∧ exec (.fwConfirm r) s = .next s ∧ exec (.otpOptionWrite r) s = .next s) ∧
  (s.dev.boot.job = none → exec (.flashOpStep true) s = .next s ∧ exec (.fuseBurnStep 1) s = .next s ∧
    exec (.otpBurnStep stuck) s = .next s) ∧
  (s.dev.boot.job = none → s.dev.updBefore k = false → t = k.par8 40 →
    (s.dev.mayStart 0 r opChunk k = true → t < 4 → k.dest % 4096 = 0 → k.len % 4096 = 0 → 0 < k.len → k.len ≤ 2 ^ 20 →
      k.dest + k.len ≤ updSize t → s.dev.protectedTarget s.nv t = false → (currentRec s.nv).confirmed = true →
      s.dev.reqOk 0 k.src k.len = true → Gives (.fwChunk r) s (fun e =>
        e.boot.job = some { op := opChunk, ring := k.ring, target := t, offset := k.dest, phase := .erase } ∧
        e.rd R.BTP_UPD_BUSY = 1 ∧ e.rdi R.BTP_UPD_VERIFIED t = 0 ∧
        RegsKept s.dev e [R.BTP_UPD_BUSY.key 0, R.BTP_UPD_VERIFIED.key t, R.HIF_EVT_PEND.key 7] ∧
        ∀ x ∈ e.cmds 0, x.seqNo = k.seqNo → x.phase = .running ∧ x.total = k.len ∧ x.awaiting = k.len)) ∧
    (s.dev.mayStart 0 r opChunk k = true → 3 < t → exec (.fwChunk r) s = .next { s with dev := s.dev.finish 0 k stRange 0 0 }) ∧
    (s.dev.mayStart 0 r opVerify k = true → t < 4 → Gives (.fwVerify r) s (fun e =>
      e.boot.job = some { op := opVerify, ring := k.ring, target := t, phase := .hashing } ∧ e.rd R.BTP_UPD_BUSY = 1 ∧
      RegsKept s.dev e [R.BTP_UPD_BUSY.key 0, R.HIF_EVT_PEND.key 7])) ∧
    (s.dev.mayStart 0 r opActivate k = true → t < 4 → s.dev.isSeti R.BTP_UPD_VERIFIED t = true →
      nth [] s.dev.boot.verifiedHash t = Config.sha384 (s.dev.updHeaders s.nv t) → t < 2 ∨ (currentRec s.nv).confirmed = true →
      Gives (.fwActivate r) s (fun e =>
        e.boot.job = some { op := opActivate, ring := k.ring, target := t, phase := .erase } ∧ e.rd R.BTP_UPD_BUSY = 1 ∧
        RegsKept s.dev e [R.BTP_UPD_BUSY.key 0, R.HIF_EVT_PEND.key 7])) ∧
    (s.dev.mayStart 0 r opConfirm k = true → (currentRec s.nv).slot = s.dev.runningSlot → (currentRec s.nv).confirmed = true →
      exec (.fwConfirm r) s = .next { s with dev := s.dev.finish 0 k stOk s.nv.fuseCount 0 }) ∧
    (s.dev.mayStart 0 r opConfirm k = true → (currentRec s.nv).slot = s.dev.runningSlot → (currentRec s.nv).confirmed = false →
      Gives (.fwConfirm r) s (fun e => e.boot.job = some
        { op := opConfirm, ring := k.ring, target := (currentRec s.nv).slot, phase := .erase } ∧ e.rd R.BTP_UPD_BUSY = 1)) ∧
    (s.dev.mayStart 0 r opOtp k = true → k.len = 256 → s.dev.reqOk 0 k.src 256 = true → Gives (.otpOptionWrite r) s (fun e =>
      e.boot.job = some { op := opOtp, ring := k.ring, phase := .otpBurn } ∧ e.rd R.BTP_UPD_BUSY = 1 ∧
      ∀ x ∈ e.cmds 0, x.seqNo = k.seqNo → x.phase = .running ∧ x.awaiting = 256))) ∧
  (s.dev.boot.job = some j → s.dev.jobTurn = true → s.dev.hkpRoom = some (sl, p, left) → 1000 ≤ left →
    (j.op = opChunk → s.dev.jobCmd j = some k →
      (j.phase = .erase → GivesNv (.flashOpStep true) s (fun n e =>
        n = { s.nv with flash := mclear s.nv.flash (updBase j.target + j.offset + j.pos) 4096 } ∧
        e.flashUndef = cutUndef (updBase j.target + j.offset + j.pos) 4096 s.dev.flashUndef ∧
        e.boot.job = some (if k.total ≤ j.pos + 4096 then { j with phase := .program, pos := 0 } else { j with pos := j.pos + 4096 }) ∧
        e.prd 0 R.RNG_STEPS = satAdd 32 (s.dev.prd 0 R.RNG_STEPS) 1)) ∧
      (j.phase = .program → min k.total (j.pos + 4096) ≤ k.data.length → GivesNv (.flashOpStep true) s (fun n e =>
        n = { s.nv with flash := mputs 0xFF s.nv.flash (updBase j.target + j.offset + j.pos) (bytesAt k.data j.pos 4096) } ∧
        e.boot.job = some (if k.total ≤ j.pos + 4096 then { j with phase := .readBack, pos := 0 }
          else { j with pos := j.pos + 4096 }))) ∧
      (j.phase = .erase → GivesNv (.flashOpStep false) s (fun n e => n = s.nv ∧ e.boot.job = none ∧ e.rd R.BTP_UPD_BUSY = 0 ∧
        ∀ x ∈ e.cmds 0, x.seqNo = k.seqNo → x.phase = .done ∧ x.status = stAborted ∧ x.detail = 5))) ∧
    (j.phase = .fuses →
      (1 ≤ t → t ≤ 3 → GivesNv (.fuseBurnStep t) s (fun n e => n = s.nv.burnFuse ∧
        e.rd R.BTP_SVN_FUSES = n.fuseCount % 2 ^ R.BTP_SVN_FUSES.w)) ∧
      (t = 0 ∨ 3 < t → GivesNv (.fuseBurnStep t) s (fun n e => n = s.nv ∧ e.rd R.BTP_SVN_BURN_FAIL = 1 ∧ e.boot.job = none))) ∧
    (s.dev.jobCmd j = some k → j.phase = .otpBurn → j.data ≠ [] → GivesNv (.otpBurnStep stuck) s (fun n e =>
      n.flash = s.nv.flash ∧
      (∀ a b, s.nv.burned a b = true → n.burned a b = true) ∧
      (∀ i, i < 8 → i < ((blockFuses j.data).drop j.pos).length → stuck.contains i = false →
        n.burned (0x800 + 256 * j.target + nth 0 ((blockFuses j.data).drop j.pos) i / 8)
          (nth 0 ((blockFuses j.data).drop j.pos) i % 8) = true) ∧
      (8 < ((blockFuses j.data).drop j.pos).length → e.boot.job = some { j with pos := j.pos + 8 }))))

/-- A write of a set-up register reaches a client's page only while its function is there and HIF works. RNG_CTL enables
the doorbell only with an address that is a multiple of 4 KiB and in range, and else sets ERR. A completion ring is
enabled with a size of 2^6 to 2^16 in range and starts at index 0; while enabled, only a write of EN 0 acts on it,
and not while a ring names it. A submission ring that fits starts to RUN at index 0, else ERR is 1. STOP of a ring
that runs with nothing fetched leaves it STOPPED, EN 0 leaves it OFF, RESUME lets a HALTED one run again from its
halt, or past it with SKIP. The use range is enabled only inside the client's window. -/
def Obligations.RingSetUp : Prop :=
  ∀ (s : State) (c q v : Nat), c ≤ 256 → q < 8 →
  (s.dev.pageOk c = false → exec (.rngCtlEnable c v) s = .next s ∧ exec (.cplRingEnable c q v) s = .next s ∧
    exec (.ringEnable c q v) s = .next s ∧ exec (.ringDisable c q v) s = .next s ∧ exec (.ringResume c q v) s = .next s ∧
    exec (.ringStop c q v) s = .next s ∧ exec (.useRangeEnable c v) s = .next s) ∧
  (s.dev.pageOk c = true →
    (bitAt v 0 = true → s.dev.pset c R.RNG_CTL_EN = false → Gives (.rngCtlEnable c v) s (fun e =>
      e.prd c R.RNG_CTL_CRC_REQ = bits v 1 1 ∧
      (s.dev.prd c R.RNG_DB_ADDR % 4096 = 0 ∧ s.dev.reqOk c (s.dev.prd c R.RNG_DB_ADDR) 64 = true →
        e.prd c R.RNG_CTL_EN = 1 ∧ e.prd c R.RNG_CTL_ERR = 0 ∧ (e.client c).occasions = 0) ∧
      (s.dev.prd c R.RNG_DB_ADDR % 4096 ≠ 0 ∨ s.dev.reqOk c (s.dev.prd c R.RNG_DB_ADDR) 64 = false →
        e.prd c R.RNG_CTL_EN = 0 ∧ e.prd c R.RNG_CTL_ERR = 1) ∧
      RegsKept s.dev e [(R.RNG_CTL_EN.page c).key 0, (R.RNG_CTL_CRC_REQ.page c).key 0, (R.RNG_CTL_ERR.page c).key 0])) ∧
    (bitAt v 31 = true → s.dev.pset c R.CPL_CFG_EN q = false → Gives (.cplRingEnable c q v) s (fun e =>
      e.prd c R.CPL_CFG_LOG2 q = bits v 0 5 ∧ e.prd c R.CPL_CFG_MODE q = bits v 8 1 ∧ e.prd c R.CPL_CFG_VEC q = bits v 16 3 ∧
      (6 ≤ bits v 0 5 → bits v 0 5 ≤ 16 → s.dev.prd c R.CPL_BASE q % 4096 = 0 →
        s.dev.reqOk c (s.dev.prd c R.CPL_BASE q) (32 * 2 ^ bits v 0 5) = true →
        e.prd c R.CPL_CFG_EN q = 1 ∧ e.prd c R.CPL_CFG_ERR q = 0 ∧ e.prd c R.CPL_TAIL q = 0) ∧
      (bits v 0 5 < 6 ∨ 16 < bits v 0 5 ∨ s.dev.prd c R.CPL_BASE q % 4096 ≠ 0 →
        e.prd c R.CPL_CFG_EN q = 0 ∧ e.prd c R.CPL_CFG_ERR q = 1))) ∧
    (s.dev.pset c R.CPL_CFG_EN q = true → bitAt v 31 = true ∨ s.dev.cplNamed c q = true → exec (.cplRingEnable c q v) s = .next s) ∧
    (bitAt v 0 = true → s.dev.pset c R.RING_CTL_EN q = false → Gives (.ringEnable c q v) s (fun e =>
      (s.dev.ringFits c q = true → e.ringState c q = 1 ∧ e.prd c R.RING_CTL_EN q = 1 ∧ e.prd c R.RING_CONS q = 0 ∧
        e.prd c R.RNG_STATUS_RUN q = 1 ∧ e.prd c R.RNG_STATUS_STOPPED q = 0) ∧
      (s.dev.ringFits c q = false → e.prd c R.RING_CTL_ERR q = 1 ∧ RegsKept s.dev e [(R.RING_CTL_ERR.page c).key q]))) ∧
    (bitAt v 0 = true → bitAt v 3 = true → s.dev.pset c R.RING_CTL_EN q = true → s.dev.ringState c q = 1 → s.dev.cmds c = [] →
      (s.dev.client c).offAfter = [] → Gives (.ringStop c q v) s (fun e =>
        e.ringState c q = 4 ∧ e.prd c R.RNG_STATUS_STOPPED q = 1 ∧ e.prd c R.RNG_STATUS_RUN q = 0 ∧ e.prd c R.RING_CTL_EN q = 1)) ∧
    (bitAt v 0 = false → s.dev.ringState c q = 1 → s.dev.cmds c = [] → Gives (.ringDisable c q v) s (fun e =>
      e.ringState c q = 0 ∧ e.prd c R.RING_CTL_EN q = 0 ∧ e.prd c R.RNG_STATUS_STOPPED q = 0)) ∧
    (bitAt v 0 = true → bitAt v 3 = false → bitAt v 1 = true → s.dev.pset c R.RING_CTL_EN q = true → s.dev.ringState c q = 2 →
      Gives (.ringResume c q v) s (fun e =>
        e.ringState c q = 1 ∧ e.prd c R.RING_CONS q = (s.dev.prd c R.RING_HALT q + b2n (bitAt v 2)) % 2 ^ 32 ∧
        e.cmds c = s.dev.cmds c ∧ e.out = s.dev.out)) ∧
    (bitAt v 0 = true → Gives (.useRangeEnable c v) s (fun e =>
      ((e.prd c R.HIF_USE_CTL_EN = 1 ∧ e.prd c R.HIF_USE_CTL_ERR = 0) ∨ (e.prd c R.HIF_USE_CTL_EN = 0 ∧ e.prd c R.HIF_USE_CTL_ERR = 1)) ∧
      (e.prd c R.HIF_USE_CTL_EN = 1 ↔ s.dev.prd c R.HIF_USE_BASE % 4096 = 0 ∧ s.dev.prd c R.HIF_USE_SIZE % 4096 = 0 ∧
        s.dev.prd c R.HIF_USE_SIZE ≠ 0 ∧ s.dev.hostWin c (s.dev.prd c R.HIF_USE_BASE) (s.dev.prd c R.HIF_USE_SIZE) = true) ∧
      RegsKept s.dev e [(R.HIF_USE_CTL_EN.page c).key 0, (R.HIF_USE_CTL_ERR.page c).key 0])))

/-- VF Enable with a NumVFs takes effect after FW_READY and while it was clear; its VFs answer only after VF_READY.
Clearing it ends every VF and NumVFs reads 0. Bus Master Enable and the PF's power state change only where the
function takes configuration requests. The link comes up with its speed and width, and with CRS before FW_READY. An
unsupported request is answered and logged; a link error is logged in the PF and changes no register. An unmask of a
vector clears its mask alone. -/
def Obligations.HostFunctions : Prop :=
  ∀ (s : State) (f n v w : Nat) (on : Bool) (hdr : List Nat) (err : LinkErr), f ≤ 256 →
  (s.dev.fwReady = true → s.dev.cfgOk 0 = true → s.dev.hif.vfEnable = false → n ≤ 256 → Gives (.vfEnableSet n) s (fun e =>
    e = { s.dev with
      regs := e.regs, hif := { s.dev.hif with vfEnable := true, vfReady := false, numVfs := n } } ∧
    e.rd R.HIF_LINK_NUMVFS = n ∧ RegsKept s.dev e [R.HIF_LINK_NUMVFS.key 0] ∧
    (1 ≤ f → e.cfgOk f = false))) ∧
  (s.dev.hif.vfEnable = true ∨ s.dev.fwReady = false → exec (.vfEnableSet n) s = .next s) ∧
  (s.dev.running = true → s.dev.hif.vfEnable = true → exec .vfReady s = .next { s with dev := { s.dev with
    hif := { s.dev.hif with vfReady := true } } }) ∧
  (s.dev.hif.vfEnable = false → exec .vfReady s = .next s ∧ exec .vfEnableClear s = .next s) ∧
  (s.dev.cfgOk 0 = true → s.dev.hif.vfEnable = true → Gives .vfEnableClear s (fun e =>
    e.hif.vfEnable = false ∧ e.hif.vfReady = false ∧ e.rd R.HIF_LINK_NUMVFS = 0 ∧ e.rst.flr = [] ∧ e.beat = s.dev.beat)) ∧
  (s.dev.cfgOk f = true → Gives (.busMasterEnableChange f on) s (fun e => e.fn f = { s.dev.fn f with bme := on } ∧
    (∀ g, g ≠ f → e.fn g = s.dev.fn g) ∧ e.regs = s.dev.regs ∧ e.clients = s.dev.clients)) ∧
  (s.dev.cfgOk f = false → exec (.busMasterEnableChange f on) s = .next s) ∧
  (s.dev.cfgOk 0 = true → Gives (.pfPowerStateChange on) s (fun e => e = { s.dev with regs := e.regs } ∧
    e.rd R.HIF_LINK_D3HOT = b2n on ∧ (on = true → e.busOk f = false) ∧ RegsKept s.dev e [R.HIF_LINK_D3HOT.key 0])) ∧
  (s.dev.running = true → s.dev.rst.perstHigh = true → s.dev.rst.refLost = false → s.dev.rd R.HIF_LINK_DL_UP = 0 →
    linkForm v w = true → Gives (.pcieLinkUp v w) s (fun e =>
      e = { s.dev with regs := e.regs, hif := { s.dev.hif with dlSeen := true } } ∧
      e.rd R.HIF_LINK_SPEED = v ∧ e.rd R.HIF_LINK_WIDTH = w ∧ e.rd R.HIF_LINK_DL_UP = 1 ∧
      (e.rd R.HIF_LINK_CRS = 1 ↔ s.dev.hif.noCrs = false ∧ s.dev.fwReady = false ∧ s.dev.rd R.BTP_STATUS_STEP ≠ 4) ∧
      RegsKept s.dev e [R.HIF_LINK_SPEED.key 0, R.HIF_LINK_WIDTH.key 0, R.HIF_LINK_DL_UP.key 0, R.HIF_LINK_CRS.key 0])) ∧
  (linkForm v w = false ∨ s.dev.rst.perstHigh = false ∨ s.dev.rst.refLost = true → exec (.pcieLinkUp v w) s = .next s) ∧
  (s.dev.running = true → s.dev.rd R.HIF_LINK_DL_UP = 1 → s.dev.fnHere f = true → (s.dev.fn f).hdr = none → hdr ≠ [] →
    Gives (.unsupportedRequest f hdr) s (fun e =>
      e.out = .aer f .unsupported :: .unsupported f :: s.dev.out ∧ .unsupported ∈ (e.fn f).aer ∧ (e.fn f).hdr = some hdr ∧
      e.regs = s.dev.regs ∧ (∀ g, g ≠ f → e.fn g = s.dev.fn g))) ∧
  (s.dev.running = true → s.dev.rd R.HIF_LINK_DL_UP = 1 → Gives (.tlpErrorReceived err hdr) s (fun e =>
    aerOf err ∈ (e.fn 0).aer ∧ e.regs = s.dev.regs ∧ (∀ g, g ≠ 0 → e.fn g = s.dev.fn g) ∧
    (∀ h, (s.dev.fn 0).hdr = some h → (e.fn 0).hdr = some h))) ∧
  (s.dev.running = true → v < vecCount f → s.dev.fnHere f = true → s.dev.hifHeld = false → s.dev.rst.flr = [] →
    Gives (.msixUnmask f v) s (fun e => e = { s.dev with regs := e.regs } ∧ e.vecMask f v = false ∧
      RegsKept s.dev e [if f = 0 then R.MSIX_MASK.key v else (R.VMSIX_MASK.page f).key v])) ∧
  (s.dev.running = false → exec (.unsupportedRequest f hdr) s = .next s ∧ exec (.tlpErrorReceived err hdr) s = .next s)

/-- A port in TRAINING or RETRY comes up: LINK is UP, the stream is unsynchronised, its lanes show a signal and an event
is raised. A port that is not HELD goes down: RETRY, no signal, an event; one that was UP counts LINK_DOWN and marks
its windows with a LINK fault. A port that is not UP takes no frame. A frame whose link check fails counts FCS_ERR
and nothing else happens; a PAUSE frame counts PAUSE; a payload of a stream without a format row counts LEN_ERR and
marks its window MALFORMED. A frame that passes all checks of a stream without sequence numbers and timestamps
synchronises the stream, counts in FRAMES and in its window, and its hits join the die's queue. TIMEOUT beats
without a frame in an open window count TIMEOUT and mark the window. -/
def Obligations.StreamPorts : Prop :=
  ∀ (s : State) (p first fill n : Nat) (ok : Bool) (f pl : List Nat) (w : Win), p < 16 → s.dev.ing.streams.length = 16 →
  s.dev.ing.queues.length = 2 → strDie (s.dev.streamRec p) < 2 →
  strLane (s.dev.streamRec p) + strLanes (s.dev.streamRec p) ≤ 16 → s.dev.rawRingOf p < 16 →
  let r := s.dev.streamRec p
  let lanes := (List.range (strLanes r)).map (fun k => R.STP_SIGNAL.key (16 * strDie r + strLane r + k))
  (s.dev.works 7 = false ∨ (s.dev.rdi R.STP_STATUS_LINK p ≠ 1 ∧ s.dev.rdi R.STP_STATUS_LINK p ≠ 3) →
    exec (.streamPortLinkUp false p) s = .next s) ∧
  (s.dev.works 7 = true → s.dev.rdi R.STP_STATUS_LINK p = 1 ∨ s.dev.rdi R.STP_STATUS_LINK p = 3 →
    Gives (.streamPortLinkUp false p) s (fun e =>
      e.rdi R.STP_STATUS_LINK p = 2 ∧ e.rdi R.STP_STATUS_SYNC p = 0 ∧ e.rdi R.HIF_EVT_PEND 6 = 1 ∧
      (∀ k, k < strLanes r → e.rdi R.STP_SIGNAL (16 * strDie r + strLane r + k) = 1) ∧
      RegsKept s.dev e ([R.STP_STATUS_LINK.key p, R.STP_STATUS_SYNC.key p, R.HIF_EVT_PEND.key 6] ++ lanes) ∧
      e.ing = s.dev.ing ∧ e.mem = s.dev.mem ∧ e.beat = s.dev.beat ∧ e.out = s.dev.out)) ∧
  (s.dev.works 7 = false ∨ s.dev.rdi R.STP_STATUS_LINK p = 0 → exec (.streamPortLinkDown false p) s = .next s) ∧
  (s.dev.works 7 = true → s.dev.rdi R.STP_STATUS_LINK p ≠ 0 → Gives (.streamPortLinkDown false p) s (fun e =>
      e.rdi R.STP_STATUS_LINK p = 3 ∧ (∀ k, k < strLanes r → e.rdi R.STP_SIGNAL (16 * strDie r + strLane r + k) = 0) ∧
      (s.dev.rdi R.STP_STATUS_LINK p = 2 → e.rdi R.STP_CNT_LINK_DOWN p = satAdd 16 (s.dev.rdi R.STP_CNT_LINK_DOWN p) 1 ∧
        e.rdi R.HIF_EVT_PEND 6 = 1 ∧
        (e.stream p).wins = (s.dev.stream p).wins.map (fun v => { v with status := putBit v.status 0 true })) ∧
      (s.dev.rdi R.STP_STATUS_LINK p ≠ 2 → e.ing = s.dev.ing) ∧
      RegsKept s.dev e ([R.STP_STATUS_LINK.key p, R.STP_CNT_LINK_DOWN.key p, R.HIF_EVT_PEND.key 6] ++ lanes) ∧
      e.mem = s.dev.mem ∧ e.beat = s.dev.beat ∧ e.out = s.dev.out)) ∧
  (s.dev.works 7 = false ∨ s.dev.rdi R.STP_STATUS_LINK p ≠ 2 → exec (.streamFrameArrived p ok first fill f) s = .next s) ∧
  (s.dev.works 7 = true → s.dev.rdi R.STP_STATUS_LINK p = 2 → ok = false → Gives (.streamFrameArrived p ok first fill f) s (fun e =>
      e.rdi R.STP_CNT_FCS_ERR p = satAdd 16 (s.dev.rdi R.STP_CNT_FCS_ERR p) 1 ∧
      RegsKept s.dev e [R.STP_CNT_FCS_ERR.key p] ∧ e = { s.dev with regs := e.regs })) ∧
  (s.dev.works 7 = true → s.dev.rdi R.STP_STATUS_LINK p = 2 → ok = true → strMode r ≠ 4 → 60 ≤ f.length → f.length ≤ 9212 →
    udpPayload (strAddr r) f = none → isPause f = true → Gives (.streamFrameArrived p ok first fill f) s (fun e =>
      e.rdi R.STP_CNT_PAUSE p = satAdd 16 (s.dev.rdi R.STP_CNT_PAUSE p) 1 ∧
      RegsKept s.dev e [R.STP_CNT_PAUSE.key p] ∧ e = { s.dev with regs := e.regs })) ∧
  (s.dev.works 7 = true → s.dev.rdi R.STP_STATUS_LINK p = 2 → ok = true → strMode r ≠ 4 → 60 ≤ f.length → f.length ≤ 9212 →
    udpPayload (strAddr r) f = some pl → s.dev.formatAt p first = [] → s.dev.windowOf p [] pl = some w →
    Gives (.streamFrameArrived p ok first fill f) s (fun e =>
      e.rdi R.STP_CNT_LEN_ERR p = satAdd 16 (s.dev.rdi R.STP_CNT_LEN_ERR p) 1 ∧ RegsKept s.dev e [R.STP_CNT_LEN_ERR.key p] ∧
      (e.stream p).wins = (s.dev.stream p).wins.map (fun v =>
        if v.num = w.num then { v with status := putBit v.status 1 true } else v) ∧
      e.ing.queues = s.dev.ing.queues ∧ e.mem = s.dev.mem ∧ e.beat = s.dev.beat ∧ e.out = s.dev.out)) ∧
  (s.dev.works 7 = true → s.dev.rdi R.STP_STATUS_LINK p = 2 → ok = true → strMode r ≠ 4 → 60 ≤ f.length → f.length ≤ 9212 →
    udpPayload (strAddr r) f = some pl → s.dev.formatAt p first ≠ [] → fmtHits (s.dev.formatAt p first) pl = some n →
    fmtCrc (s.dev.formatAt p first) = 0 → fmtSeqW (s.dev.formatAt p first) = 0 → fmtTs (s.dev.formatAt p first) = 0 →
    s.dev.windowOf p (s.dev.formatAt p first) pl = some w → w.closeAt = none →
    (payloadHits (s.dev.formatAt p first) pl n).all (fun h => decide (h.1 < 4096)) = true →
    (s.dev.hitQueue (strDie r)).length + n ≤ 16384 → fill + (32 + pl.length + 63) / 64 * 64 ≤ ingressBuffer →
    Gives (.streamFrameArrived p ok first fill f) s (fun e =>
      e.rdi R.STP_FRAMES p = (s.dev.rdi R.STP_FRAMES p + 1) % 2 ^ 64 ∧ e.rdi R.STP_STATUS_SYNC p = 1 ∧
      (e.hitQueue (strDie r)).map (fun h => (h.ch, h.t, h.amp)) =
        (s.dev.hitQueue (strDie r)).map (fun h => (h.ch, h.t, h.amp)) ++ payloadHits (s.dev.formatAt p first) pl n ∧
      (e.stream p).wins = (s.dev.stream p).wins.map (fun v => if v.num = w.num then
        { v with frames := v.frames + 1, bytes := v.bytes + pl.length, mark := s.dev.beat } else v) ∧
      e.beat = s.dev.beat ∧ e.out = s.dev.out)) ∧
  ((s.dev.stream p).openWin = none → exec (.streamWindowTimeout p) s = .next s) ∧
  ((s.dev.stream p).openWin = some w → s.dev.timeoutOf p = 0 ∨ s.dev.beat < w.mark + s.dev.timeoutOf p →
    exec (.streamWindowTimeout p) s = .next s) ∧
  ((s.dev.stream p).openWin = some w → s.dev.timeoutOf p ≠ 0 → w.mark + s.dev.timeoutOf p ≤ s.dev.beat →
    Gives (.streamWindowTimeout p) s (fun e =>
      e.rdi R.STP_CNT_TIMEOUT p = satAdd 16 (s.dev.rdi R.STP_CNT_TIMEOUT p) 1 ∧ RegsKept s.dev e [R.STP_CNT_TIMEOUT.key p] ∧
      (e.stream p).wins = (s.dev.stream p).wins.map (fun v => if v.num = w.num then
        { v with status := putBit v.status 4 true, mark := s.dev.beat } else v) ∧
      e.ing.queues = s.dev.ing.queues ∧ e.mem = s.dev.mem ∧ e.beat = s.dev.beat ∧ e.out = s.dev.out))

/-- Hits are taken in order, at most 64 at once: with no COINC section they go nowhere; a hit on a channel without a
feature counts NO_CH, one beyond the slices LATE_HIT, and one of an open set joins it with its delayed time and
amplitude. A hit that waited 256 beats is dropped, counts HIT_OVF and marks its window. A window whose grace has run
becomes final: its CLOSE record is written, LAST takes its status, and its set counts one live window less and is
faulted when the window is and its stream is REQUIRED. A due set without hits completes with a tensor of zeros, and
its status is shown. A write of LAU_CTL from the host asks for FREEZE, ROLLBACK, REBASE or CKPT at the next frame
boundary, changes no learned value before it, and is lost against an Armature write in the same beat. -/
def Obligations.HitsAndSets : Prop :=
  ∀ (s : State) (die count p v : Nat) (h : Hit) (w : Win) (x : FSet) (m : Master) (op : Instr), die < 2 → p < 16 → h.stream < 16 → s.dev.ing.queues.length = 2 →
  s.dev.ing.streams.length = 16 → s.dev.rawRingOf p < 16 →
  let c := s.dev.lastSec 10
  let u := 16 * h.t + (nth (0, 0) x.chans h.ch).2
  (c = [] → exec (.hitExtraction die count) s = .next { s with
    dev := s.dev.setHitQueue die ((s.dev.hitQueue die).drop (min count 64)) }) ∧
  (c ≠ [] → bitAt (coStreams c) h.stream = true → s.dev.hitQueue die = [h] → count = 1 →
    coNch c ≤ h.ch ∨ chFeat c h.ch = 0xFFFF → Gives (.hitExtraction die count) s (fun e =>
      e.hitQueue die = [] ∧ e.rd R.LAU_CNT_NO_CH = satAdd 16 (s.dev.rd R.LAU_CNT_NO_CH) 1 ∧
      RegsKept s.dev e [R.LAU_CNT_NO_CH.key 0] ∧ e.lau = s.dev.lau ∧ e.mem = s.dev.mem)) ∧
  (c ≠ [] → bitAt (coStreams c) h.stream = true → s.dev.hitQueue die = [h] → count = 1 → h.ch < coNch c →
    chFeat c h.ch ≠ 0xFFFF → s.dev.lau.sets = [x] → h.set = some x.n → x.abandoned = false → x.complete = false →
    Gives (.hitExtraction die count) s (fun e =>
      e.hitQueue die = [] ∧ e.mem = s.dev.mem ∧ e.beat = s.dev.beat ∧
      (coNslice c ≤ u / (16 * coSliceW c) → e.rd R.LAU_CNT_LATE_HIT = satAdd 16 (s.dev.rd R.LAU_CNT_LATE_HIT) 1 ∧
        e.lau = s.dev.lau ∧ RegsKept s.dev e [R.LAU_CNT_LATE_HIT.key 0]) ∧
      (u / (16 * coSliceW c) < coNslice c → e.regs = s.dev.regs ∧ e.lau.sets = [{ x with
        hits := x.hits ++ [⟨h.ch, u, if chFlag c h.ch 0 then h.amp else 2 ^ coAmpSh c⟩] }]))) ∧
  ((∀ g, g ∈ s.dev.hitQueue die → s.dev.beat < g.at_ + 256) → exec (.hitExtractTimeout die) s = .next s) ∧
  (s.dev.hitQueue die = [h] → h.at_ + 256 ≤ s.dev.beat → Gives (.hitExtractTimeout die) s (fun e =>
      e.hitQueue die = [] ∧ e.rdi R.STP_CNT_HIT_OVF h.stream = satAdd 16 (s.dev.rdi R.STP_CNT_HIT_OVF h.stream) 1 ∧
      (e.stream h.stream).wins = (s.dev.stream h.stream).wins.map (fun y =>
        if y.num = h.win then { y with status := putBit y.status 5 true } else y) ∧
      e.lau = s.dev.lau ∧ e.beat = s.dev.beat ∧ e.out = s.dev.out)) ∧
  ((∀ y, y ∈ (s.dev.stream p).wins → ∀ b, y.closeAt = some b → s.dev.beat < b + y.grace) → exec (.windowFinal p) s = .next s) ∧
  (s.dev.lau.sets = [x] → (s.dev.stream p).wins = [w] → w.closeAt.isSome = true → w.closeAt.getD 0 + w.grace ≤ s.dev.beat → Gives (.windowFinal p) s (fun e =>
      (e.stream p).wins = [] ∧ e.rdi R.STP_STATUS_LAST p = w.status % 256 ∧ e.rdi R.STP_STATUS_WIN p = 0 ∧
      e.rdi R.STP_STATUS_GRACE p = 0 ∧ e.mem = (s.dev.closeRecord p w).mem ∧
      (u64 (ringRec (s.dev.lastSec 18) (s.dev.rawRingOf p)) 8 ≠ 0 → e.rdi R.MEM_RAW_WP (s.dev.rawRingOf p) =
        (s.dev.rdi R.MEM_RAW_WP (s.dev.rawRingOf p) + 64) % 2 ^ 64) ∧
      (w.set = some x.n → e.lau.sets = [{ x with
        live := x.live - 1, lastFinal := s.dev.beat, faulted := x.faulted || (w.status != 0 && s.dev.required p) }]) ∧
      (w.set = none → e.lau = s.dev.lau) ∧ e.beat = s.dev.beat ∧ e.out = s.dev.out)) ∧
  ((∀ y, y ∈ s.dev.lau.sets → s.dev.setDue y = false) → exec .featureSetComplete s = .next s) ∧
  (s.dev.lau.sets = [x] → s.dev.setDue x = true → x.hits = [] → Gives .featureSetComplete s (fun e =>
      e.lau.sets = [{ x with complete := true, invalid := x.invalid || x.faulted || s.dev.setNoWin c x, sat := max x.sat 0 }] ∧
      e.rd R.LAU_SET_STAT_INVALID = b2n (x.invalid || x.faulted || s.dev.setNoWin c x) ∧
      e.rd R.LAU_SET_STAT_NOWIN = b2n (s.dev.setNoWin c x) ∧ e.rd R.LAU_SET_STAT_FAULT = b2n x.faulted ∧
      e.rd R.LAU_SET_STAT_LATE = b2n x.late ∧ e.rd R.LAU_SET_STAT_ABANDONED = 0 ∧
      e.rd R.LAU_SET_STAT_SLICES = (if coMult c = 0 then coNslice c else 0) % 2 ^ 16 ∧
      (∀ a, coBase c + (x.n % 2) * coZ c ≤ a → a < coBase c + (x.n % 2) * coZ c + 2 * coNslice c * coFeats c →
        mget 0 e.mem.stg a = 0) ∧
      (∀ a, a < coBase c + (x.n % 2) * coZ c ∨ coBase c + (x.n % 2) * coZ c + 2 * coNslice c * coFeats c ≤ a →
        mget 0 e.mem.stg a = mget 0 s.dev.mem.stg a) ∧
      e.mem.t1 = s.dev.mem.t1 ∧ e.mem.t2 = s.dev.mem.t2 ∧ e.ing = s.dev.ing ∧ e.beat = s.dev.beat)) ∧
  (op ∈ [Instr.lauFreeze m v, .lauUnfreeze m v, .lauRollback m v, .lauRebase m v, .lauCkpt m v] →
    (masterVf m = true ∨ s.dev.running = false ∨ s.dev.inReset 8 = true → exec op s = .next s) ∧
    (m = .pf → s.dev.running = true → s.dev.inReset 8 = false → s.dev.lostWrite 0xF0000 = true →
      exec op s = .next { s with dev := s.dev.rasEvent 2 0x0F 0 0xF0000 }) ∧
    (m = .pf → s.dev.running = true → s.dev.inReset 8 = false → s.dev.lostWrite 0xF0000 = false → Gives op s (fun e =>
      e.lau = { s.dev.lau with
        freeze := some (bitAt v 0), rollback := s.dev.lau.rollback || bitAt v 1,
        rebase := s.dev.lau.rebase || bitAt v 2, ckpt := s.dev.lau.ckpt || bitAt v 3 } ∧
      e.rd R.LAU_STATUS_PENDING = 1 ∧ e.rd R.LAU_STATUS_FROZEN = s.dev.rd R.LAU_STATUS_FROZEN ∧
      e.rd R.LAU_CTL_FREEZE = s.dev.rd R.LAU_STATUS_FROZEN ∧
      RegsKept s.dev e [R.LAU_STATUS_PENDING.key 0, R.LAU_STATUS_LEARNING.key 0, R.LAU_CTL_FREEZE.key 0,
        R.LAU_STATUS_FROZEN.key 0] ∧ e.mem = s.dev.mem ∧ e.beat = s.dev.beat ∧ e.out = s.dev.out)))

/-- A visit before quick calibration, and one to a row that is not visited, does nothing. A visit in window clears the
ring's count, one out of window raises it; the third, or the end of the heater's range, counts LOCK_LOSS and is a
ring fault: the row of a healthy tile fails, or the modulator is replaced by its first free standby. A sweep is
taken only while its tile's resting row waits for one: an accepted curve waits for the reserve, a rejected one
counts and fails the row. An M0 sample flags a line lost at its second low reading and starts its replacement by the
first free spare. A monitor sample with no reference finds nothing; the sixteenth sample of M1 at least 3 dB low
fails the tile. A bias limit fails a light engine and its eight tiles. -/
def Obligations.HoldingAndMonitors : Prop :=
  ∀ (s : State) (t i e j c : Nat) (inW atEnd : Bool) (w : RowSweep) (pw : List Nat), t < 16 → i < 16512 → e < 2 → j < 64 →
  w.tile = t → s.dev.cal.repls = [] → s.dev.planActive = false →
  (s.dev.rd R.GLB_START_OPT_STAGE < 3 ∨ (i < 16448 ∧ s.dev.rowVisited t (i / 64) = false) →
    exec (.lockinVisitEnd t i inW atEnd) s = .next s) ∧
  (3 ≤ s.dev.rd R.GLB_START_OPT_STAGE → 16448 ≤ i ∨ s.dev.rowVisited t (i / 64) = true → inW = true → atEnd = false →
    exec (.lockinVisitEnd t i inW atEnd) s = .next { s with dev := { s.dev with
      cal := { s.dev.cal with outRun := sput 0 s.dev.cal.outRun (16512 * t + i) 0 } } }) ∧
  (3 ≤ s.dev.rd R.GLB_START_OPT_STAGE → 16448 ≤ i ∨ s.dev.rowVisited t (i / 64) = true → inW = false → atEnd = false →
    sget 0 s.dev.cal.outRun (16512 * t + i) < 2 →
    exec (.lockinVisitEnd t i inW atEnd) s = .next { s with dev := { s.dev with
      cal := { s.dev.cal with
        outRun := sput 0 s.dev.cal.outRun (16512 * t + i) (sget 0 s.dev.cal.outRun (16512 * t + i) + 1) } } }) ∧
  (3 ≤ s.dev.rd R.GLB_START_OPT_STAGE → i < 16448 → s.dev.rowVisited t (i / 64) = true →
    atEnd = true ∨ (inW = false ∧ 2 ≤ sget 0 s.dev.cal.outRun (16512 * t + i)) → s.dev.rdi R.CAL_TILE_STATE t = 0 →
    Gives (.lockinVisitEnd t i inW atEnd) s (fun g =>
      g.rd R.CAL_CNT_LOCK_LOSS = satAdd 16 (s.dev.rd R.CAL_CNT_LOCK_LOSS) 1 ∧
      g.rd R.CAL_CNT_ROW_FAIL = satAdd 16 (s.dev.rd R.CAL_CNT_ROW_FAIL) 1 ∧ g.rdi R.CAL_TILE_STATE t = 1 ∧
      g.rdi R.CAL_TILE_REASON t = 1 ∧ g.rdi R.CAL_TILE_ROTATING t = 0 ∧ g.rdi R.CAL_TILE_FAIL_ROW t = i / 64 ∧
      bitAt (g.rd R.RAS_SUM) 8 = true ∧ g.rdi R.HIF_EVT_PEND 4 = 1 ∧ sget 0 g.cal.outRun (16512 * t + i) = 0 ∧
      RegsKeptRas s.dev g [R.CAL_CNT_LOCK_LOSS.key 0, R.CAL_CNT_ROW_FAIL.key 0, R.CAL_TILE_STATE.key t,
        R.CAL_TILE_REASON.key t, R.CAL_TILE_ROTATING.key t, R.CAL_TILE_FAIL_ROW.key t, R.CAL_STATUS_DEGRADED_ANY.key 0,
        R.CAL_STATUS_FAILED_ANY.key 0] ∧ g.beat = s.dev.beat ∧ g.mem = s.dev.mem)) ∧
  (3 ≤ s.dev.rd R.GLB_START_OPT_STAGE → 16448 ≤ i → inW = false → 2 ≤ sget 0 s.dev.cal.outRun (16512 * t + i) →
    s.dev.cal.modFailed = [] → s.dev.rdi R.CAL_MODMAP_SB64_CH t = 0x7F → s.dev.rdi R.CAL_MODMAP_SB65_CH t = 0x7F →
    Gives (.lockinVisitEnd t i inW atEnd) s (fun g =>
      g.rd R.CAL_CNT_LOCK_LOSS = satAdd 16 (s.dev.rd R.CAL_CNT_LOCK_LOSS) 1 ∧ g.cal.modFailed = [66 * t + (i - 16448)] ∧
      g.cal.repls = [{ modulator := true, unit := t, channel := i - 16448, spare := 64, at_ := s.dev.beat }] ∧
      g.rdi R.CAL_TILE_MOD_SP t = (s.dev.rdi R.CAL_TILE_MOD_SP t + 1) % 4 ∧
      RegsKept s.dev g [R.CAL_CNT_LOCK_LOSS.key 0, R.CAL_TILE_MOD_SP.key t] ∧ g.beat = s.dev.beat)) ∧
  (s.dev.rdi R.CAL_TILE_ROTATING t = 0 ∨ nth none s.dev.cal.dwellAt t = none ∨ nth none s.dev.cal.swept t ≠ none ∨
    nth false s.dev.cal.written t = true → exec (.sweepEnd w) s = .next s) ∧
  (s.dev.rdi R.CAL_TILE_ROTATING t = 1 → nth none s.dev.cal.dwellAt t ≠ none → nth none s.dev.cal.swept t = none →
    nth false s.dev.cal.written t = false → sweepOk w = true → exec (.sweepEnd w) s = .next { s with dev := { s.dev with
      cal := { s.dev.cal with swept := s.dev.cal.swept.set t (some (w.curve, w.gain)), spent := s.dev.cal.spent.set t 0 } } }) ∧
  (s.dev.rdi R.CAL_TILE_ROTATING t = 1 → nth none s.dev.cal.dwellAt t ≠ none → nth none s.dev.cal.swept t = none →
    nth false s.dev.cal.written t = false → sweepOk w = false → s.dev.rdi R.CAL_TILE_STATE t = 0 →
    Gives (.sweepEnd w) s (fun g =>
      g.rd R.CAL_CNT_CURVE_REJ = satAdd 16 (s.dev.rd R.CAL_CNT_CURVE_REJ) 1 ∧ g.rdi R.CAL_TILE_STATE t = 1 ∧
      g.rdi R.CAL_TILE_FAIL_ROW t = s.dev.rdi R.CAL_TILE_OOS_ROW t ∧ g.rdi R.CAL_TILE_ROTATING t = 0 ∧
      g.cal = { s.dev.cal with rowDue := s.dev.cal.rowDue.set t none } ∧ g.beat = s.dev.beat)) ∧
  (s.dev.rd R.GLB_START_OPT_STAGE < 2 ∨ s.dev.rdi R.OPT_ENG_FAIL e = 1 → exec (.m0Sample e pw) s = .next { s with
    dev := { s.dev with cal := { s.dev.cal with m0 := s.dev.cal.m0.set e pw } } }) ∧
  (2 ≤ s.dev.rd R.GLB_START_OPT_STAGE → s.dev.rdi R.OPT_ENG_FAIL e = 0 →
    (List.range 66).all (fun k => decide (2000 ≤ nth 0 pw k)) = true → Gives (.m0Sample e pw) s (fun g =>
      g = { s.dev with cal := g.cal } ∧ g.cal = { s.dev.cal with
        m0 := s.dev.cal.m0.set e pw, m0Run := g.cal.m0Run } ∧
      (∀ k, k < 66 → sget 0 g.cal.m0Run (66 * e + k) = 0))) ∧
  (2 ≤ s.dev.rd R.GLB_START_OPT_STAGE → s.dev.rdi R.OPT_ENG_FAIL e = 0 →
    (List.range 66).all (fun k => k == j || decide (2000 ≤ nth 0 pw k)) = true → nth 0 pw j < 2000 →
    sget 0 s.dev.cal.m0Run (66 * e + j) = 1 → s.dev.cal.lost = [] → s.dev.channelOn e j = some c →
    s.dev.rdi R.CAL_ENG_MAP_SP64_CH e = 0x7F → Gives (.m0Sample e pw) s (fun g =>
      g.cal.lost = [66 * e + j] ∧ g.rdi R.CAL_ENG_MAP_LAST_LOST e = j ∧
      g.rdi R.CAL_ENG_MAP_LOST_CNT e = satAdd 8 (s.dev.rdi R.CAL_ENG_MAP_LOST_CNT e) 1 ∧ g.rdi R.OPT_ENG_LOSS e = 1 ∧
      g.cal.repls = [{ modulator := false, unit := e, channel := c, spare := 64, at_ := s.dev.beat }] ∧
      bitAt (g.rd R.RAS_SUM) 8 = true ∧ RegsKeptRas s.dev g [R.CAL_ENG_MAP_LAST_LOST.key e,
        R.CAL_ENG_MAP_LOST_CNT.key e, R.OPT_ENG_LOSS.key e] ∧ g.beat = s.dev.beat ∧ g.mem = s.dev.mem)) ∧
  (s.dev.rd R.GLB_START_OPT_STAGE ≠ 4 → exec (.monitorSample t pw) s = .next { s with
    dev := { s.dev with cal := { s.dev.cal with mon := s.dev.cal.mon.set t pw } } }) ∧
  (s.dev.rd R.GLB_START_OPT_STAGE = 4 → s.dev.cal.refNum = [] → Gives (.monitorSample t pw) s (fun g =>
    g = { s.dev with cal := g.cal } ∧ g.cal = { s.dev.cal with
      mon := s.dev.cal.mon.set t pw, warnRun := g.cal.warnRun, faultRun := g.cal.faultRun })) ∧
  (s.dev.rd R.GLB_START_OPT_STAGE = 4 → s.dev.rdi R.CAL_TILE_STATE t ≠ 2 → s.dev.cal.mon.length = 16 →
    s.dev.cal.refNum = [(276 * t, c)] → sget 0 s.dev.cal.faultRun (276 * t) = 15 →
    lowBy 1000 (nth 0 pw 0) (s.dev.litSum (engineOf t)) c (sget 0 s.dev.cal.refDen (276 * t)) = true →
    Gives (.monitorSample t pw) s (fun g =>
      g.rdi R.CAL_TILE_STATE t = 2 ∧ g.rdi R.CAL_TILE_REASON t = 5 ∧ g.rdi R.CAL_TILE_ROTATING t = 0 ∧
      bitAt (g.rd R.RAS_SUM) 8 = true ∧ g.rdi R.HIF_EVT_PEND 4 = 1 ∧ g.beat = s.dev.beat ∧ g.mem = s.dev.mem)) ∧
  (s.dev.rd R.GLB_START_OPT_STAGE = 0 ∨ s.dev.rdi R.OPT_ENG_FAIL e = 1 → exec (.engineBiasLimit e) s = .next s) ∧
  (1 ≤ s.dev.rd R.GLB_START_OPT_STAGE → s.dev.rdi R.OPT_ENG_FAIL e = 0 → Gives (.engineBiasLimit e) s (fun g =>
      g.rdi R.OPT_ENG_FAIL e = 1 ∧ bitAt (g.rd R.RAS_SUM) 8 = true ∧ g.rdi R.HIF_EVT_PEND 4 = 1 ∧
      (∀ u, u ∈ tilesOf e → g.rdi R.CAL_TILE_STATE u = 2 ∧
        (s.dev.rdi R.CAL_TILE_STATE u ≠ 2 → g.rdi R.CAL_TILE_REASON u = 4)) ∧
      (∀ u, u ∈ tilesOf (1 - e) → g.rdi R.CAL_TILE_STATE u = s.dev.rdi R.CAL_TILE_STATE u) ∧
      g.cal = s.dev.cal ∧ g.beat = s.dev.beat ∧ g.mem = s.dev.mem))

/-- An AET port comes up from TRAINING or RETRY and goes down to RETRY, each raising an event. The copy of a path's next
event that fits adds its segments, moves the write position, frees its send-queue place and shows RET. Only at a
multiple of TX_PERIOD beats does a path of an up port that is not paused send: a HELLO that is due, else the first
segment due for retransmission, else a segment never sent within the window; with the window closed it shows WINDOW.
A timeout makes the segments sent RTO ago due, doubles the timeout up to 64 times, and the eighth in a row enters
HELLO again. An event retained for GIVEUP_MS is released, counts LOST and the path enters HELLO again. -/
def Obligations.AetPaths : Prop :=
  ∀ (s : State) (p k f b : Nat) (ev : AetEvt) (g : AetSeg), p < 16 → k < 32 → f < 8 → s.dev.aet.paths.length = 32 →
  s.dev.aet.flows.length = 8 →
  let r := s.dev.pthRec k
  let q := s.dev.path k
  let rto := pthRto r * 2 ^ s.dev.rdi R.AET_PATH_RTO_X k
  let inTime := (s.dev.beat - s.dev.sq.planAt) % max 1 (pthPeriod r) = 0
  let old := fun (x : AetSeg) => x.due = 0 ∧ x.sentAt.isSome = true ∧ x.sentAt.getD 0 + rto ≤ s.dev.beat
  (s.dev.aetOn = false ∨ (s.dev.rdi R.AET_PORT_LINK p ≠ 1 ∧ s.dev.rdi R.AET_PORT_LINK p ≠ 3) →
    exec (.streamPortLinkUp true p) s = .next s) ∧
  (s.dev.aetOn = true → s.dev.rdi R.AET_PORT_LINK p = 1 ∨ s.dev.rdi R.AET_PORT_LINK p = 3 →
    Gives (.streamPortLinkUp true p) s (fun e => e.rdi R.AET_PORT_LINK p = 2 ∧ e.rdi R.HIF_EVT_PEND 6 = 1 ∧
      RegsKept s.dev e [R.AET_PORT_LINK.key p, R.HIF_EVT_PEND.key 6] ∧ e.aet = s.dev.aet ∧ e.beat = s.dev.beat)) ∧
  (s.dev.aetOn = false ∨ s.dev.rdi R.AET_PORT_LINK p = 0 ∨ s.dev.rdi R.AET_PORT_LINK p = 3 →
    exec (.streamPortLinkDown true p) s = .next s) ∧
  (s.dev.aetOn = true → s.dev.rdi R.AET_PORT_LINK p = 1 ∨ s.dev.rdi R.AET_PORT_LINK p = 2 →
    Gives (.streamPortLinkDown true p) s (fun e => e.rdi R.AET_PORT_LINK p = 3 ∧ e.rdi R.HIF_EVT_PEND 6 = 1 ∧
      RegsKept s.dev e [R.AET_PORT_LINK.key p, R.HIF_EVT_PEND.key 6] ∧ e.aet = s.dev.aet ∧ e.beat = s.dev.beat)) ∧
  (s.dev.aetOn = false ∨ s.dev.nextCopy k = none → exec (.retentionCopyDone k) s = .next s) ∧
  (s.dev.nextCopy k = some (f, ev) → s.dev.retRoom k ev = false → exec (.retentionCopyDone k) s = .next s) ∧
  (s.dev.aetOn = true → s.dev.nextCopy k = some (f, ev) → s.dev.retRoom k ev = true → Gives (.retentionCopyDone k) s (fun e =>
    (e.path k).segs = q.segs ++ segmentsOf (pthSeg r) q ev s.dev.beat ∧ (e.path k).wpos = q.wpos + ev.len ∧
    (e.path k).newNum = (q.newNum + cdiv ev.len (pthSeg r)) % 2 ^ 32 ∧
    (e.flow f).queue = (s.dev.flow f).queue.filter (fun x => decide (x.ev ≠ ev.ev)) ∧
    e.rdi R.AET_PATH_RET k = segBytes (q.segs ++ segmentsOf (pthSeg r) q ev s.dev.beat) % 2 ^ 64 ∧
    e.mem.t1 = s.dev.mem.t1 ∧ e.mem.stg = s.dev.mem.stg ∧
    RegsKept s.dev e [R.AET_PATH_RET.key k, R.AET_PATH_FULL.key k] ∧ e.beat = s.dev.beat ∧ e.out = s.dev.out)) ∧
  (s.dev.aetOn = false ∨ r = [] ∨ s.dev.rdi R.AET_PATH_STATE k = 0 ∨ ¬inTime → exec (.pathTxOpportunity k) s = .next s) ∧
  (s.dev.aetOn = true → r ≠ [] → s.dev.rdi R.AET_PATH_STATE k ≠ 0 → inTime →
    s.dev.rdi R.AET_PORT_LINK (pthPort r) ≠ 2 ∨ s.dev.beat < nth 0 s.dev.aet.paused (pthPort r) →
    Gives (.pathTxOpportunity k) s (fun e => e.rdi R.AET_PATH_WINDOW k = 0 ∧
      RegsKept s.dev e [R.AET_PATH_WINDOW.key k] ∧ e = { s.dev with regs := e.regs })) ∧
  (s.dev.aetOn = true → r ≠ [] → inTime → s.dev.rdi R.AET_PORT_LINK (pthPort r) = 2 →
    nth 0 s.dev.aet.paused (pthPort r) ≤ s.dev.beat → s.dev.rdi R.AET_PATH_STATE k = 1 →
    q.helloAt = none ∨ q.helloAt.getD 0 + pthRto r ≤ s.dev.beat → Gives (.pathTxOpportunity k) s (fun e =>
      e.out = .udp (pthPort r) (bytesAt r 32 6) (bytesAt r 40 16) (u16 r 38)
        (({ ty := 3, path := k, session := s.dev.rdi R.AET_PATH_SESSION k, seq := q.base } : Dgram).bytes) :: s.dev.out ∧
      e.path k = { q with helloAt := some s.dev.beat, lastTx := s.dev.beat } ∧
      RegsKept s.dev e [R.AET_PATH_WINDOW.key k] ∧ e.mem = s.dev.mem ∧ e.beat = s.dev.beat)) ∧
  (s.dev.aetOn = true → r ≠ [] → inTime → s.dev.rdi R.AET_PORT_LINK (pthPort r) = 2 →
    nth 0 s.dev.aet.paused (pthPort r) ≤ s.dev.beat → s.dev.rdi R.AET_PATH_STATE k = 2 → q.win = some b → b ≠ 0 →
    q.segs.find? (fun x => decide (x.due ≠ 0)) = some g → Gives (.pathTxOpportunity k) s (fun e =>
      e.out = .udp (pthPort r) (bytesAt r 32 6) (bytesAt r 40 16) (u16 r 38) ((Dgram.mk 1
        (b2n g.first + 2 * b2n g.last + 4) k (s.dev.rdi R.AET_PATH_SESSION k) g.num
        g.off g.evNo 0 (s.dev.segData k g)).bytes) :: s.dev.out ∧
      (e.path k).segs = q.segs.map (fun x => if x.num = g.num then { x with sentAt := some s.dev.beat, due := 0 } else x) ∧
      e.rdi R.AET_PATH_SENT k = (s.dev.rdi R.AET_PATH_SENT k + 1) % 2 ^ 64 ∧
      e.rdi R.AET_PATH_RETX_SACK k = (if g.due = 2 then satAdd 16 (s.dev.rdi R.AET_PATH_RETX_SACK k) 1
        else s.dev.rdi R.AET_PATH_RETX_SACK k) ∧
      e.rdi R.AET_PATH_RETX_TO k = (if g.due = 2 then s.dev.rdi R.AET_PATH_RETX_TO k
        else satAdd 16 (s.dev.rdi R.AET_PATH_RETX_TO k) 1) ∧
      e.rdi R.AET_PATH_NEXT k = s.dev.rdi R.AET_PATH_NEXT k ∧ e.mem = s.dev.mem ∧ e.beat = s.dev.beat)) ∧
  (s.dev.aetOn = true → r ≠ [] → inTime → s.dev.rdi R.AET_PORT_LINK (pthPort r) = 2 →
    nth 0 s.dev.aet.paused (pthPort r) ≤ s.dev.beat → s.dev.rdi R.AET_PATH_STATE k = 2 → q.win = some b → b ≠ 0 →
    q.segs.find? (fun x => decide (x.due ≠ 0)) = none → q.segs.find? (fun x => x.sentAt.isNone) = some g →
    Gives (.pathTxOpportunity k) s (fun e =>
      ((s.dev.inFlight k).length < min (pthWinMax r) b →
        e.rdi R.AET_PATH_NEXT k = (g.num + 1) % 2 ^ 32 ∧ e.rdi R.AET_PATH_WINDOW k = 0 ∧
        e.rdi R.AET_PATH_SENT k = (s.dev.rdi R.AET_PATH_SENT k + 1) % 2 ^ 64 ∧ e.out.tail = s.dev.out ∧
        (e.path k).segs = q.segs.map (fun x =>
          if x.num = g.num then { x with sentAt := some s.dev.beat, due := 0 } else x)) ∧
      (min (pthWinMax r) b ≤ (s.dev.inFlight k).length → e.rdi R.AET_PATH_WINDOW k = 1 ∧ e.out = s.dev.out ∧
        e.aet = s.dev.aet) ∧ e.mem = s.dev.mem ∧ e.beat = s.dev.beat)) ∧
  (s.dev.aetOn = false ∨ s.dev.rdi R.AET_PATH_STATE k = 0 ∨ (∀ x, x ∈ q.segs → ¬old x) → exec (.rtoExpiry k) s = .next s) ∧
  (s.dev.aetOn = true → s.dev.rdi R.AET_PATH_STATE k ≠ 0 → g ∈ q.segs → old g →
    s.dev.rdi R.AET_PATH_STATE k ≠ 2 ∨ q.timeouts < 7 → Gives (.rtoExpiry k) s (fun e =>
      e.rdi R.AET_PATH_RTO_X k = min 6 (s.dev.rdi R.AET_PATH_RTO_X k + 1) ∧
      (s.dev.rdi R.AET_PATH_STATE k = 2 ∨ q.timeouts < 8 → RegsKept s.dev e [R.AET_PATH_RTO_X.key k] ∧
        (e.path k).timeouts = (if s.dev.rdi R.AET_PATH_STATE k = 2 then q.timeouts + 1 else q.timeouts)) ∧
      (e.path k).segs = q.segs.map (fun x => if x.due = 0 ∧ x.sentAt.isSome = true ∧
        x.sentAt.getD 0 + rto ≤ s.dev.beat then { x with due := 1 } else x) ∧
      e.mem = s.dev.mem ∧ e.beat = s.dev.beat ∧ e.out = s.dev.out)) ∧
  (s.dev.aetOn = true → s.dev.rdi R.AET_PATH_STATE k = 2 → g ∈ q.segs → old g → q.timeouts = 7 →
    Gives (.rtoExpiry k) s (fun e => e.rdi R.AET_PATH_STATE k = 1 ∧
      e.rdi R.AET_PATH_REHELLO k = satAdd 16 (s.dev.rdi R.AET_PATH_REHELLO k) 1 ∧
      e.rdi R.AET_PATH_SESSION k = s.dev.rdi R.AET_PATH_SESSION k ∧ (e.path k).timeouts = 0 ∧ (e.path k).helloAt = none ∧
      (e.path k).newNum = q.newNum ∧ e.beat = s.dev.beat ∧ e.out = s.dev.out)) ∧
  (s.dev.aetOn = false ∨ flwGiveup (flowOfPath s.dev.aetSec k) = 0 ∨ q.segs = [] → exec (.giveupExpiry k) s = .next s) ∧
  (s.dev.aetOn = true → flwGiveup (flowOfPath s.dev.aetSec k) ≠ 0 → q.segs = [g] →
    g.retAt + flwGiveup (flowOfPath s.dev.aetSec k) * 250000 ≤ s.dev.beat → Gives (.giveupExpiry k) s (fun e =>
      (e.path k).segs = [] ∧ e.rdi R.AET_PATH_STATE k = 1 ∧ e.rdi R.AET_PATH_RET k = 0 ∧
      e.rdi R.AET_PATH_LOST k = satAdd 32 (s.dev.rdi R.AET_PATH_LOST k) 1 ∧
      e.rdi R.AET_PATH_REHELLO k = satAdd 16 (s.dev.rdi R.AET_PATH_REHELLO k) 1 ∧
      (e.path k).helloAt = none ∧ (e.path k).newNum = q.newNum ∧ e.mem = s.dev.mem ∧ e.beat = s.dev.beat ∧
      e.out = s.dev.out))

/-- A port that is not up takes nothing. A PAUSE frame counts and nothing else happens; a PFC frame for PRIO pauses the
port when PFC_EN is set and is ignored otherwise. A datagram of bad layout or CRC counts AET_BAD; one that no
addressed port takes counts AET_UNKNOWN. An ACK of an OPEN path with its SESSION and a CUM in range raises CUM and
frees the segments below it; another counts BAD_ACK. A HELLO_ACK opens a path in HELLO. A DECISION of a known RECV
peer is stored by its SET and counts PEER_RX; another counts PEER_BAD. A receive level sends PFC only where PFC_EN
is set and the port is up. -/
def Obligations.AetFrames : Prop :=
  ∀ (s : State) (p q : Nat) (high : Bool) (f u pr : List Nat) (op : Instr), p < 16 → s.dev.aet.paths.length = 32 →
  s.dev.aet.paused.length = 16 → op ∈ [.ackReceived p f, .helloAckReceived p f, .decisionReceived p f, .aetFrameDiscard p f, .pfcReceived p f] →
  let g := readDgram u
  let k := g.path
  let up := s.dev.aetOn = true ∧ s.dev.prtRec p ≠ [] ∧ s.dev.rdi R.AET_PORT_LINK p = 2
  let dg := up ∧ isPause f = false ∧ isPfc f = false ∧ udpPayload (prtAddr (s.dev.prtRec p)) f = some u ∧
    dgramLayout u = true ∧ dgramCrc u = true
  (¬up → exec op s = .next s) ∧
  (up → isPause f = true → Gives op s (fun e => e.rdi R.AET_PORT_PAUSE p = satAdd 16 (s.dev.rdi R.AET_PORT_PAUSE p) 1 ∧
    RegsKept s.dev e [R.AET_PORT_PAUSE.key p] ∧ e = { s.dev with regs := e.regs })) ∧
  (up → isPause f = false → isPfc f = true → prtFlag (s.dev.prtRec p) 3 = true →
    pfcTime f (u8 (s.dev.prtRec p) 6) = some q → Gives op s (fun e =>
      e.rdi R.AET_PORT_PFC_RX p = satAdd 8 (s.dev.rdi R.AET_PORT_PFC_RX p) 1 ∧ RegsKept s.dev e [R.AET_PORT_PFC_RX.key p] ∧
      e = { s.dev with
        regs := e.regs, aet := { s.dev.aet with
          paused := s.dev.aet.paused.set p (s.dev.beat + cdiv (64 * q) (prtRate (s.dev.prtRec p))) } })) ∧
  (up → isPause f = false → isPfc f = true → prtFlag (s.dev.prtRec p) 3 = false → exec op s = .next s) ∧
  (up → isPause f = false → isPfc f = false → udpPayload (prtAddr (s.dev.prtRec p)) f = some u →
    dgramLayout u = false ∨ dgramCrc u = false → Gives op s (fun e =>
      e.rd R.AET_CNT_BAD = satAdd 16 (s.dev.rd R.AET_CNT_BAD) 1 ∧ RegsKept s.dev e [R.AET_CNT_BAD.key 0] ∧
      e = { s.dev with regs := e.regs })) ∧
  (up → isPause f = false → isPfc f = false → udpPayload (prtAddr (s.dev.prtRec p)) f = none →
    netAnswer (prtAddr (s.dev.prtRec p)) f = none → Gives op s (fun e =>
      e.rd R.AET_CNT_UNKNOWN = satAdd 16 (s.dev.rd R.AET_CNT_UNKNOWN) 1 ∧ RegsKept s.dev e [R.AET_CNT_UNKNOWN.key 0] ∧
      e = { s.dev with regs := e.regs })) ∧
  (dg → g.ty = 2 → k < 32 → s.dev.pthRec k ≠ [] → s.dev.rdi R.AET_PATH_STATE k = 2 → g.session = s.dev.rdi R.AET_PATH_SESSION k →
    seqDiff g.seq (s.dev.rdi R.AET_PATH_CUM k) ≤ seqDiff (s.dev.rdi R.AET_PATH_NEXT k) (s.dev.rdi R.AET_PATH_CUM k) →
    g.aux = 0 → Gives op s (fun e =>
      e.rdi R.AET_PATH_CUM k = g.seq % 2 ^ 32 ∧ (e.path k).win = some g.win ∧ (e.path k).sack = 0 ∧
      (e.path k).segs = (s.dev.path k).segs.filter (fun x => seqGe x.num g.seq) ∧
      (g.seq ≠ s.dev.rdi R.AET_PATH_CUM k → e.rdi R.AET_PATH_RTO_X k = 0 ∧ (e.path k).timeouts = 0) ∧
      RegsKept s.dev e [R.AET_PATH_CUM.key k, R.AET_PATH_NEXT.key k, R.AET_PATH_RTO_X.key k, R.AET_PATH_RET.key k,
        R.AET_PATH_FULL.key k] ∧ e.mem = s.dev.mem ∧ e.beat = s.dev.beat ∧ e.out = s.dev.out)) ∧
  (dg → g.ty = 2 → k < 32 → s.dev.pthRec k ≠ [] →
    s.dev.rdi R.AET_PATH_STATE k ≠ 2 ∨ g.session ≠ s.dev.rdi R.AET_PATH_SESSION k ∨
      seqDiff (s.dev.rdi R.AET_PATH_NEXT k) (s.dev.rdi R.AET_PATH_CUM k) < seqDiff g.seq (s.dev.rdi R.AET_PATH_CUM k) →
    Gives op s (fun e => e.rdi R.AET_PATH_BAD_ACK k = satAdd 16 (s.dev.rdi R.AET_PATH_BAD_ACK k) 1 ∧
      RegsKept s.dev e [R.AET_PATH_BAD_ACK.key k] ∧ e = { s.dev with regs := e.regs })) ∧
  (dg → g.ty = 4 → k < 32 → s.dev.pthRec k ≠ [] → s.dev.rdi R.AET_PATH_STATE k = 1 → g.session = s.dev.rdi R.AET_PATH_SESSION k →
    Gives op s (fun e => e.rdi R.AET_PATH_STATE k = 2 ∧
      e.rdi R.AET_PATH_CUM k = (if seqGe g.seq (s.dev.path k).base then g.seq else (s.dev.path k).base) % 2 ^ 32 ∧
      (e.path k).win = some g.win ∧ (e.path k).sack = 0 ∧ (e.path k).helloAt = none ∧
      (e.path k).segs = (s.dev.path k).segs.filter (fun x =>
        seqGe x.num (if seqGe g.seq (s.dev.path k).base then g.seq else (s.dev.path k).base)) ∧
      e.mem = s.dev.mem ∧ e.beat = s.dev.beat ∧ e.out = s.dev.out)) ∧
  (dg → g.ty = 4 → s.dev.pthRec k ≠ [] → g.session ≠ s.dev.rdi R.AET_PATH_SESSION k → exec op s = .next s) ∧
  (dg → g.ty = 5 → s.dev.planActive = true → (aetPeers s.dev.aetSec).find? (fun r => perRecv r && u8 r 1 == p &&
      (bytesAt r 12 16, u16 r 10) == udpSource (prtAddr (s.dev.prtRec p)) f) = some pr → Gives op s (fun e =>
      e.rd R.AET_CNT_PEER_RX = satAdd 16 (s.dev.rd R.AET_CNT_PEER_RX) 1 ∧ RegsKept s.dev e [R.AET_CNT_PEER_RX.key 0] ∧
      e.mem = (s.dev.store 0 (aetPeerBase s.dev.aetSec + 4096 * u8 pr 0 + 64 * (u64 g.data 0 % 64)) g.data false).mem ∧
      e.aet = s.dev.aet ∧ e.beat = s.dev.beat ∧ e.out = s.dev.out)) ∧
  (dg → g.ty = 5 → s.dev.planActive = true → (aetPeers s.dev.aetSec).find? (fun r => perRecv r && u8 r 1 == p &&
      (bytesAt r 12 16, u16 r 10) == udpSource (prtAddr (s.dev.prtRec p)) f) = none → Gives op s (fun e =>
      e.rd R.AET_CNT_PEER_BAD = satAdd 16 (s.dev.rd R.AET_CNT_PEER_BAD) 1 ∧
      RegsKept s.dev e [R.AET_CNT_PEER_BAD.key 0] ∧ e = { s.dev with regs := e.regs })) ∧
  (s.dev.aetOn = true → prtFlag (s.dev.prtRec p) 3 = true → s.dev.rdi R.AET_PORT_LINK p = 2 →
    exec (.aetRxBufferLevel p high) s = .next { s with dev := { s.dev with out := .pfc p high :: s.dev.out } }) ∧
  (s.dev.aetOn = false ∨ prtFlag (s.dev.prtRec p) 3 = false ∨ s.dev.rdi R.AET_PORT_LINK p ≠ 2 →
    exec (.aetRxBufferLevel p high) s = .next s)

/-- A word of a channel that does not convert, or before its due beat, does nothing. The first 10 words after a sync (20
of a pair) are discarded; every later one is corrected, clipped, flagged and delivered with the stamp of its instant
and counted, and the last word of a burst ends it. A supervisor word is delivered from 1 ms after VAUX. A host write
of SAD_SYNC with no plan active syncs every named channel at the next beat, and with a plan is an access error. A
CFG write is taken whole where R840 allows it and is an access error otherwise. SAD_URG requests wait; a due one on
a channel not in BURST mode counts URG_BAD, on a running burst URG_DROP, else it starts a burst. -/
def Obligations.SensingAdc : Prop :=
  ∀ (s : State) (n k v e0 : Nat) (raw : Int) (ovr : Bool) (r : UrgReq), n < 12 → k < 4 → s.dev.sad.chans.length = 12 →
  let c := s.dev.sadCh n
  let m := c.words + 1
  let pair := s.dev.sadPair n
  let src := if pair && m % 2 == 0 then n + 1 else n
  let cc := sadCode (s.dev.isSeti R.SAD_CFG_DIFF n) raw (toInt 24 (s.dev.rdi R.SAD_OFS src)) (s.dev.rdi R.SAD_GAIN src)
  let last := c.burst && c.sent + 1 == s.dev.rdi R.SAD_CFG_BURST_N n
  let sc := sadCode false raw (toInt 24 (s.dev.rdi R.SADS_OFS k)) (s.dev.rdi R.SADS_GAIN k)
  let pf := s.dev.running = true ∧ s.dev.inReset 13 = false
  (c.edge0 = none ∨ s.dev.sadOn = false ∨ s.dev.syncWaits n = true → exec (.sadWordDelivery n raw ovr) s = .next s) ∧
  (c.edge0 = some e0 → s.dev.beat < s.dev.wordDue n m e0 → exec (.sadWordDelivery n raw ovr) s = .next s) ∧
  (c.edge0 = some e0 → s.dev.sadOn = true → s.dev.syncWaits n = false → s.dev.wordDue n m e0 ≤ s.dev.beat →
    m ≤ (if pair then 20 else 10) → exec (.sadWordDelivery n raw ovr) s = .next { s with dev := { s.dev with
      sad := { s.dev.sad with chans := s.dev.sad.chans.set n { c with words := m } } } }) ∧
  (c.edge0 = some e0 → s.dev.sadOn = true → s.dev.syncWaits n = false → s.dev.wordDue n m e0 ≤ s.dev.beat →
    (if pair then 20 else 10) < m → Gives (.sadWordDelivery n raw ovr) s (fun e =>
      e.rdi R.SAD_DATA n = resultWord (s.dev.isSeti R.SAD_CFG_LEFT n) cc.1
        (wordFlags ovr cc.2 (c.sent == 0) (pair && m % 2 == 0) last c.sent) % 2 ^ 32 ∧
      e.rdi R.SAD_WORDS n = satAdd 32 (s.dev.rdi R.SAD_WORDS n) 1 ∧
      e.rdi R.SAD_CNT_OVR n = (if ovr then satAdd 16 (s.dev.rdi R.SAD_CNT_OVR n) 1 else s.dev.rdi R.SAD_CNT_OVR n) ∧
      e.rdi R.SAD_CNT_CLIP n = (if cc.2 then satAdd 16 (s.dev.rdi R.SAD_CNT_CLIP n) 1 else s.dev.rdi R.SAD_CNT_CLIP n) ∧
      (∀ q, s.dev.sad.stamps.find? (fun x => x.1 == s.dev.wordInstant n m e0) = some q →
        e.rdi R.SAD_STAMP n = q.2 % 2 ^ 32 ∧ e.free = s.dev.free) ∧
      e.sadCh n = { c with
        words := m, sent := c.sent + 1, lastAt := s.dev.beat, edge0 := if last then none else some e0
        burst := if last then false else c.burst } ∧
      e.rdi R.SAD_STATUS_CONV n = b2n (!last) ∧ e.rdi R.SAD_STATUS_DISC n = 0 ∧
      RegsKept s.dev e [R.SAD_DATA.key n, R.SAD_STAMP.key n, R.SAD_WORDS.key n, R.SAD_CNT_OVR.key n, R.SAD_CNT_CLIP.key n,
        R.SAD_STATUS_CONV.key n, R.SAD_STATUS_DISC.key n] ∧ e.mem = s.dev.mem ∧ e.beat = s.dev.beat ∧ e.out = s.dev.out)) ∧
  (s.dev.supConvert = false → exec (.sadWordDelivery (12 + k) raw ovr) s = .next s) ∧
  (s.dev.supConvert = true → Gives (.sadWordDelivery (12 + k) raw ovr) s (fun e =>
      e.rdi R.SADS_DATA k =
        resultWord false sc.1 (wordFlags ovr sc.2 false false false (nth 0 s.dev.sad.supSeq k)) % 2 ^ 32 ∧
      e.rdi R.SADS_WORDS k = satAdd 32 (s.dev.rdi R.SADS_WORDS k) 1 ∧
      e.rdi R.SADS_CNT_OVR k = (if ovr then satAdd 16 (s.dev.rdi R.SADS_CNT_OVR k) 1 else s.dev.rdi R.SADS_CNT_OVR k) ∧
      e.sad = { s.dev.sad with supSeq := s.dev.sad.supSeq.set k ((nth 0 s.dev.sad.supSeq k + 1) % 8) } ∧
      RegsKept s.dev e [R.SADS_DATA.key k, R.SADS_STAMP.key k, R.SADS_WORDS.key k, R.SADS_CNT_OVR.key k,
        R.SADS_CNT_CLIP.key k] ∧ e.beat = s.dev.beat)) ∧
  (¬pf → exec (.sadSyncWrite .pf v) s = .next s ∧ exec (.sadCfgWrite .pf n v) s = .next s ∧ exec (.sadUrgWrite .pf v) s = .next s) ∧
  (pf → s.dev.lostWrite 0x140004 = false → s.dev.planActive = true → exec (.sadSyncWrite .pf v) s = .next { s with
    dev := s.dev.rasEvent 1 0x14 0 0x140004 }) ∧
  (pf → s.dev.lostWrite 0x140004 = false → s.dev.planActive = false → Gives (.sadSyncWrite .pf v) s (fun e =>
      (bitAt v n = false → e.sadCh n = c) ∧
      (bitAt v n = true → s.dev.sadOn = true → s.dev.sadSecond n = false →
        (s.dev.sadMode n = 1 → e.sadCh n = { edge0 := some (s.dev.beat + 1) } ∧ e.rdi R.SAD_STATUS_CONV n = 1 ∧
          e.rdi R.SAD_STATUS_DISC n = 1) ∧
        (s.dev.sadMode n = 2 → e.sadCh n = { edge0 := some (s.dev.beat + 1), burst := true }) ∧
        (s.dev.sadMode n = 0 → e.sadCh n = c)) ∧
      (bitAt v n = true → s.dev.sadOn = false ∨ s.dev.sadSecond n = true → e.sadCh n = c) ∧ e.sad.urg = s.dev.sad.urg ∧
      RegsKept s.dev e ((List.range 12).map R.SAD_STATUS_CONV.key ++ (List.range 12).map R.SAD_STATUS_DISC.key ++
        [R.SAD_CNT0_RESTART.key 0]) ∧ e.mem = s.dev.mem ∧ e.beat = s.dev.beat)) ∧
  (pf → s.dev.lostWrite (0x140100 + 0x20 * (12 + k)) = false → exec (.sadCfgWrite .pf (12 + k) v) s = .next s) ∧
  (pf → s.dev.lostWrite (0x140100 + 0x20 * n) = false → s.dev.planActive = true ∨ s.dev.cfgTaken n v = false →
    exec (.sadCfgWrite .pf n v) s = .next { s with dev := s.dev.rasEvent 1 0x14 0 (0x140100 + 0x20 * n) }) ∧
  (pf → s.dev.lostWrite (0x140100 + 0x20 * n) = false → s.dev.planActive = false → s.dev.cfgTaken n v = true →
    Gives (.sadCfgWrite .pf n v) s (fun e =>
      e.cfgNow n = v ∧ (cfgMode v = 0 → e.sadCh n = {}) ∧
      (cfgMode v = 1 → s.dev.sadOn = true → e.sadCh n = { edge0 := some (s.dev.beat + 1) }) ∧
      (cfgMode v = 2 → s.dev.sadOn = true → e.sadCh n = { edge0 := some (s.dev.beat + 1), burst := true }) ∧
      RegsKept s.dev e [R.SAD_CFG_MODE.key n, R.SAD_CFG_DIFF.key n, R.SAD_CFG_LEFT.key n, R.SAD_CFG_PAIR.key n,
        R.SAD_CFG_OSR.key n, R.SAD_CFG_BURST_N.key n, R.SAD_STATUS_CONV.key n, R.SAD_STATUS_DISC.key n] ∧
      e.mem = s.dev.mem ∧ e.beat = s.dev.beat)) ∧
  (pf → s.dev.lostWrite 0x140008 = false → exec (.sadUrgWrite .pf v) s = .next { s with dev := { s.dev with
    sad := { s.dev.sad with urg := s.dev.sad.urg ++ (setBits v 12).map (fun i => ⟨i, s.dev.beat, false⟩) } } }) ∧
  ((∀ x, x ∈ s.dev.sad.urg → x.ch = n → s.dev.urgDue x = false) → exec (.urgentRequestAct n) s = .next s) ∧
  (s.dev.sad.urg = [r] → r.ch = n → s.dev.urgDue r = true → s.dev.sadOn = false ∨ s.dev.syncWaits n = true →
    exec (.urgentRequestAct n) s = .next s) ∧
  (s.dev.sad.urg = [r] → r.ch = n → s.dev.urgDue r = true → s.dev.sadOn = true → s.dev.syncWaits n = false →
    Gives (.urgentRequestAct n) s (fun e => e.sad.urg = [] ∧ e.beat = s.dev.beat ∧
      (s.dev.sadMode n ≠ 2 ∨ s.dev.sadSecond n = true → e.sadCh n = c ∧ RegsKept s.dev e [R.SAD_CNT0_URG_BAD.key 0] ∧
        e.rd R.SAD_CNT0_URG_BAD = satAdd 16 (s.dev.rd R.SAD_CNT0_URG_BAD) 1) ∧
      (s.dev.sadMode n = 2 → s.dev.sadSecond n = false → c.burst = true → e.sadCh n = c ∧
        RegsKept s.dev e [R.SAD_URG_DROP.key 0] ∧ e.rd R.SAD_URG_DROP = satAdd 32 (s.dev.rd R.SAD_URG_DROP) 1) ∧
      (s.dev.sadMode n = 2 → s.dev.sadSecond n = false → c.burst = false →
        e.sadCh n = { edge0 := some s.dev.beat, burst := true } ∧ e.rdi R.SAD_STATUS_CONV n = 1 ∧
        e.rdi R.SAD_STATUS_DISC n = 1 ∧ RegsKept s.dev e [R.SAD_STATUS_CONV.key n, R.SAD_STATUS_DISC.key n])))

/-- Off its period, or twice in a beat, nothing is sampled. A sample less than half a period after the last counts
EARLY. With the setpoint register, valid phase feedback and the FIXED or FRACTION law, a sample counts, STATE
becomes RUN, and the sample is resolved: the law's value, clamped to the bank's range and to its rate from the last
output, with SAT, RATE and ACC_SAT counted; its output beat is a period and 30 beats later. Without a valid phase
the sample counts HELD and keeps the last output. At its output beat the oldest sample gives LPE_OUT, the SPI word
and the PWM duty that are enabled, and a computed one raises DRV_EN. A drive fault drops DRV_EN, sets FAULT and
counts. -/
def Obligations.LoopSamples : Prop :=
  ∀ (s : State) (x : LpSample) (rest : List LpSample),
  let d := s.dev
  let sec := d.loSec
  let P := d.loP
  let timed := P ≠ 0 ∧ loTimer sec = true ∧ d.lpe.b0 ≤ d.beat ∧ (d.beat - d.lpe.b0) % P = 0 ∧ d.lpe.lastS ≠ some d.beat
  let plain := d.lpeOn = true ∧ d.lpe.pend = [] ∧ d.rd R.LPE_STATUS_SWAP_PEND = 0 ∧ d.lpe.toB = false ∧ loSp sec = 0 ∧ loFb sec = 0 ∧
    loAux sec 0 = 0xFF ∧ loAux sec 1 = 0xFF ∧ d.rd R.LPE_STATUS_FAULT = 0 ∧ d.lpe.tripAct = 0 ∧
    (d.lpe.lastS = none ∨ P ≤ 2 * (d.beat - d.lpe.lastS.getD 0))
  let r := toInt 32 (d.rd R.LPE_SETPOINT)
  let y := toInt 32 (d.phase >>> loPhSh sec)
  let bank := d.bankBytes d.bankB
  let L := lawStep (loMode sec == 2) bank d.lpe.law d.lpe.limHi d.lpe.limLo (loopError sec r y) r
  let u := L.2.1
  let u1 := clampInt (bkMin bank) (bkMax bank) u
  let p := d.lpe.prevOut
  let o := if bkRate bank = 0 then u1 else clampInt (max (-2147483648) (p - bkRate bank)) (min 2147483647 (p + bkRate bank)) u1
  (¬timed → exec .loopTimerSample s = .next s) ∧
  (timed → d.lpe.pend = [] → d.lpeOn = false → exec .loopTimerSample s = .next s) ∧
  (timed → d.lpe.pend = [] → d.lpeOn = true → d.lpe.lastS.isSome = true → 2 * (d.beat - d.lpe.lastS.getD 0) < P →
    Gives .loopTimerSample s (fun e => e.rd R.LPE_CNT0_EARLY = satAdd 16 (d.rd R.LPE_CNT0_EARLY) 1 ∧
      RegsKept d e [R.LPE_CNT0_EARLY.key 0] ∧ e = { d with regs := e.regs })) ∧
  (timed → plain → loMode sec = 1 ∨ loMode sec = 2 → d.rd R.CAD_STATUS_VALID = 1 → Gives .loopTimerSample s (fun e =>
      e.rd R.LPE_SAMPLES = satAdd 32 (d.rd R.LPE_SAMPLES) 1 ∧ e.rd R.LPE_STATUS_STATE = 2 ∧ e.lpe.lastS = some d.beat ∧
      e.lpe.pend.map (fun z => (z.beat, z.due, z.kind, z.done, z.out)) = [(d.beat, d.beat + P + 30, 0, true, o)] ∧
      e.lpe.prevOut = o ∧ e.lpe.uLaw = u ∧ e.lpe.law = L.1 ∧
      e.lpe.limHi = (decide (u1 < u) || decide (o < u1)) ∧ e.lpe.limLo = (decide (u < u1) || decide (u1 < o)) ∧
      e.rd R.LPE_CNT1_SAT = (if u1 ≠ u then satAdd 16 (d.rd R.LPE_CNT1_SAT) 1 else d.rd R.LPE_CNT1_SAT) ∧
      e.rd R.LPE_CNT1_RATE = (if o ≠ u1 then satAdd 16 (d.rd R.LPE_CNT1_RATE) 1 else d.rd R.LPE_CNT1_RATE) ∧
      e.rd R.LPE_CNT4_ACC_SAT = satAdd 16 (d.rd R.LPE_CNT4_ACC_SAT) L.2.2 ∧
      e.rd R.LPE_CNT0_HELD = d.rd R.LPE_CNT0_HELD ∧ e.beat = d.beat ∧ e.out = d.out ∧ e.mem = d.mem)) ∧
  (timed → plain → loMode sec = 1 ∨ loMode sec = 2 → d.rd R.CAD_STATUS_VALID = 0 → Gives .loopTimerSample s (fun e =>
      e.rd R.LPE_SAMPLES = satAdd 32 (d.rd R.LPE_SAMPLES) 1 ∧ e.rd R.LPE_CNT0_HELD = satAdd 16 (d.rd R.LPE_CNT0_HELD) 1 ∧
      e.lpe.pend.map (fun z => (z.beat, z.due, z.kind, z.done, z.out)) = [(d.beat, d.beat + P + 30, 1, true, p)] ∧
      e.lpe.prevOut = p ∧ e.lpe.law = d.lpe.law ∧ RegsKept d e [R.LPE_SAMPLES.key 0, R.LPE_CNT0_HELD.key 0,
        R.LPE_STATUS_SWAP_PEND.key 0] ∧ e.beat = d.beat ∧ e.out = d.out)) ∧
  (d.lpe.pend = [] ∨ d.lpeOn = false → exec .loopOutputBeat s = .next s) ∧
  (d.lpe.pend = x :: rest → d.beat < x.due → exec .loopOutputBeat s = .next s) ∧
  (d.lpe.pend = x :: rest → d.lpeOn = true → x.done = true → x.due ≤ d.beat →
    d.rd R.LPE_TRC_STATUS_STATE = 0 ∨ d.rd R.LPE_TRC_STATUS_STATE = 4 → Gives .loopOutputBeat s (fun e =>
      e.rd R.LPE_OUT = ofInt 32 x.out ∧ e.lpe = { d.lpe with pend := rest } ∧
      e.out = (if loFlag sec 2 then [Out.pwm (pwmOf (loDrive sec) x.out).1 (pwmOf (loDrive sec) x.out).2] else []) ++
        (if loFlag sec 1 then [Out.spi (spiWord (loDrive sec) x.out)] else []) ++ d.out ∧
      e.rd R.LPE_STATUS_DRV_EN = (if loFlag sec 0 = true ∧ x.kind = 0 ∧ d.rd R.LPE_STATUS_FAULT = 0 then 1
        else d.rd R.LPE_STATUS_DRV_EN) ∧
      RegsKept d e [R.LPE_OUT.key 0, R.LPE_STATUS_DRV_EN.key 0] ∧ e.beat = d.beat ∧ e.mem = d.mem)) ∧
  (d.works 11 = true → Gives .driveFault s (fun e => e.rd R.LPE_STATUS_DRV_EN = 0 ∧ e.rd R.LPE_STATUS_FAULT = 1 ∧
      e.rd R.LPE_CNT3_DRV_FAULT = satAdd 16 (d.rd R.LPE_CNT3_DRV_FAULT) 1 ∧ e.lpe = { d.lpe with faultLow := true } ∧
      RegsKept d e [R.LPE_STATUS_DRV_EN.key 0, R.LPE_STATUS_FAULT.key 0, R.LPE_CNT3_DRV_FAULT.key 0] ∧
      e = { d with regs := e.regs, lpe := e.lpe })) ∧
  (d.works 11 = false → exec .driveFault s = .next { s with dev := { d with lpe := { d.lpe with faultLow := true } } })

/-- While the block is held or the host is not heard nothing happens. With no plan active each write is an access error.
SWAP leaves a swap pending where the loop runs and does nothing otherwise. CLEAR_TRIP clears TRIP and the detector,
and FAULT where the fault line is high. A word of a bank that is in use counts BANK_REF and is an access error; of
the other bank it is written. A write of the trace control is taken, and arming clears the trace unless a READ_TRACE
runs, which counts ARM_REF. -/
def Obligations.LoopControls : Prop :=
  ∀ (s : State) (v w : Nat) (bk : Nat) (high : Bool) (op : Instr), w < 96 → bk < 2 →
  op ∈ [.swap .pf v, .clearTrip .pf v high, .lpeBankWrite .pf bk w v, .traceArm .pf v] →
  let d := s.dev
  let ba := (if bk = 0 then 0x121000 else 0x121200) + 4 * w
  let heard := d.running = true ∧ d.inReset 11 = false ∧ d.lostWrite 0x120000 = false ∧ d.lostWrite 0x120040 = false ∧
    d.lostWrite ba = false
  (d.running = false ∨ d.inReset 11 = true → exec op s = .next s) ∧
  (d.running = true → d.inReset 11 = false → d.lostWrite 0x120000 = true →
    exec (.swap .pf v) s = .next { s with dev := d.rasEvent 2 0x12 0 0x120000 }) ∧
  (heard → d.planActive = false → exec (.swap .pf v) s = .next { s with dev := d.rasEvent 1 0x12 0 0x120000 } ∧
    exec (.clearTrip .pf v high) s = .next { s with dev := d.rasEvent 1 0x12 0 0x120000 } ∧
    exec (.lpeBankWrite .pf bk w v) s = .next { s with dev := d.rasEvent 1 0x12 0 ba } ∧
    exec (.traceArm .pf v) s = .next { s with dev := d.rasEvent 1 0x12 0 0x120040 }) ∧
  (heard → d.planActive = true → bitAt v 0 = false ∨ d.rd R.LPE_STATUS_STATE = 0 → exec (.swap .pf v) s = .next s) ∧
  (heard → d.planActive = true → bitAt v 0 = true → d.rd R.LPE_STATUS_STATE ≠ 0 → Gives (.swap .pf v) s (fun e =>
      e.rd R.LPE_STATUS_SWAP_PEND = 1 ∧ RegsKept d e [R.LPE_STATUS_SWAP_PEND.key 0] ∧ e = { d with regs := e.regs })) ∧
  (heard → d.planActive = true → bitAt v 0 = false → bitAt v 1 = true → Gives (.clearTrip .pf v high) s (fun e =>
      e.rd R.LPE_STATUS_TRIP = 0 ∧ (high = true → e.rd R.LPE_STATUS_FAULT = 0) ∧
      (high = false → e.rd R.LPE_STATUS_FAULT = d.rd R.LPE_STATUS_FAULT) ∧
      e.lpe = { d.lpe with faultLow := !high, tripAct := 0, toB := false, oscN := 0, oscC := 0, oscM := 0 } ∧
      RegsKept d e [R.LPE_STATUS_TRIP.key 0, R.LPE_STATUS_FAULT.key 0] ∧ e = { d with regs := e.regs, lpe := e.lpe })) ∧
  (heard → d.planActive = true → d.rd R.LPE_STATUS_STATE ≠ 0 → d.bankInUse (decide (bk ≠ 0)) = true →
    Gives (.lpeBankWrite .pf bk w v) s (fun e =>
      e.rd R.LPE_CNT3_BANK_REF = satAdd 16 (d.rd R.LPE_CNT3_BANK_REF) 1 ∧ bitAt (e.rd R.RAS_SUM) 1 = true ∧
      RegsKeptRas d e [R.LPE_CNT3_BANK_REF.key 0] ∧ e.lpe = d.lpe ∧ e.beat = d.beat ∧ e.mem = d.mem)) ∧
  (heard → d.planActive = true → d.rd R.LPE_STATUS_STATE = 0 ∨ d.bankInUse (decide (bk ≠ 0)) = false →
    Gives (.lpeBankWrite .pf bk w v) s (fun e =>
      e.rdi (if bk = 0 then R.LPE_BANK_A else R.LPE_BANK_B) w = v % 2 ^ 32 ∧
      RegsKept d e [(if bk = 0 then R.LPE_BANK_A else R.LPE_BANK_B).key w] ∧ e = { d with regs := e.regs })) ∧
  (heard → d.planActive = true → Gives (.traceArm .pf v) s (fun e =>
      e.rd R.LPE_TRC_CTL_TRIG = bits v 1 2 ∧ e.rd R.LPE_TRC_CTL_TRIG_CH = bits v 3 3 ∧ e.rd R.LPE_TRC_CTL_EDGE = bits v 6 2 ∧
      e.rd R.LPE_TRC_CTL_PRE = bits v 8 13 ∧
      (bitAt v 0 = false → e.lpe = d.lpe ∧ e.rd R.LPE_TRC_STATUS_STATE = d.rd R.LPE_TRC_STATUS_STATE) ∧
      (bitAt v 0 = true → d.traceReading = true → e.lpe = d.lpe ∧
        e.rd R.LPE_CNT4_ARM_REF = satAdd 16 (d.rd R.LPE_CNT4_ARM_REF) 1) ∧
      (bitAt v 0 = true → d.traceReading = false → e.lpe = { d.lpe with trace := {} } ∧ e.rd R.LPE_TRC_STATUS_SHORT = 0 ∧
        e.rd R.LPE_TRC_STATUS_ENTRIES = 0 ∧ e.rd R.LPE_TRC_STATUS_STATE = (if bits v 8 13 = 0 then 2 else 1)) ∧
      RegsKept d e [R.LPE_TRC_CTL_TRIG.key 0, R.LPE_TRC_CTL_TRIG_CH.key 0, R.LPE_TRC_CTL_EDGE.key 0, R.LPE_TRC_CTL_PRE.key 0,
        R.LPE_CNT4_ARM_REF.key 0, R.LPE_TRC_STATUS_SHORT.key 0, R.LPE_TRC_STATUS_STATE.key 0,
        R.LPE_TRC_STATUS_ENTRIES.key 0] ∧ e.beat = d.beat ∧ e.out = d.out))

/-- Before the rails are up nothing is sampled. A sample in which every present sensor and both references read one
valid value below WARN makes it the temperature and leaves the state NORMAL; a third invalid reading in a row
excludes a sensor; the eighth sample at TRIP joins the THERM source of a DEVICE reach. A heartbeat timeout writes a
SERVICE entry. An uncorrectable error of the plan store halts the running plan or drops the standby Maquette and its
pending arm; one of a control core's memory stops that core. An event that meets R967 raises COUNT alone; any other
takes a new entry, and one for which the log is full sets its class bit and counts LOST. A failure of a stack or
channel always takes a new entry, into which no event merges. -/
def Obligations.SupervisionAndErrors : Prop :=
  ∀ (s : State) (rs : List (Option Int)) (r14 r15 v : Int) (i core cls blk cl detail : Nat) (mg : Bool) (a : Arm), i < 48 →
  core < 5 → cls < 13 →
  let d := s.dev
  let w := d.rd R.RAS_LOG_WR_NEXT
  let top := (w + 255) % 256
  let on := d.pw.vaux = true ∧ (d.railsUp = true ∨ d.thm.began = true)
  let joins := mg = true ∧ d.ras.merge = true ∧ d.rdi R.RAS_LOG_CLASS top = cls ∧ d.rdi R.RAS_LOG_BLOCK top = blk ∧
    d.rdi R.RAS_LOG_CLIENT top = cl ∧ ∃ b, d.ras.newest = some b ∧ d.beat < b + 250000
  (¬on → exec (.thermalSample rs r14 r15) s = .next s) ∧
  (on → rs = List.replicate 48 (some v) → r14 = v → r15 = v → -320 ≤ v → v < 760 →
    (List.range 48).all (fun j => d.rdi R.THM_SENS_EXCL j == 0) = true →
    d.rd R.THM_STATUS_XCHECK_PHO = 0 → d.rd R.THM_STATUS_XCHECK_PLI = 0 → d.thm.flags = [false, false, false] →
    d.rd R.THM_STATUS_STATE = 0 → Gives (.thermalSample rs r14 r15) s (fun e =>
      e.rd R.THM_STATUS_T = ofInt 16 v ∧ e.rd R.THM_STATUS_STATE = 0 ∧ e.rd R.THM_STATUS_EXCLUDED = 0 ∧
      (d.sensorHere i = true → e.rdi R.THM_SENS_READING i = ofInt 16 v ∧ e.rdi R.THM_SENS_INVALID i = 0 ∧
        e.rdi R.THM_SENS_EXCL i = 0) ∧ e.thm.flags = [false, false, false] ∧ e.rst = d.rst ∧ e.beat = d.beat)) ∧
  (on → d.sensorHere i = true → nth none rs i = none → nth 0 d.thm.badRun i = 2 → d.thm.badRun.length = 48 →
    d.rdi R.THM_SENS_EXCL i = 0 → d.thm.flags = [false, false, false] → d.thm.enter = [0, 0, 0] →
    d.rd R.THM_STATUS_STATE = 0 → Gives (.thermalSample rs r14 r15) s (fun e =>
      e.rdi R.THM_SENS_EXCL i = 1 ∧ e.rdi R.THM_SENS_INVALID i = 1 ∧ e.rdi R.THM_SENS_READING i = 0x8000 ∧
      bitAt (e.rd R.RAS_SUM) 7 = true ∧ e.rd R.THM_STATUS_STATE = 0 ∧ e.beat = d.beat)) ∧
  (on → d.running = true → rs = List.replicate 48 (some v) → r14 = v → r15 = v → 920 ≤ v → v ≤ 1200 →
    (List.range 48).all (fun j => d.rdi R.THM_SENS_EXCL j == 0) = true →
    d.rd R.THM_STATUS_XCHECK_PHO = 0 → d.rd R.THM_STATUS_XCHECK_PLI = 0 → d.thm.flags = [true, true, false] →
    d.thm.enter = [0, 0, 7] → d.rd R.THM_STATUS_STATE = 2 → Gives (.thermalSample rs r14 r15) s (fun e =>
      e.rd R.THM_STATUS_STATE = 3 ∧ e.thermN = true ∧ e.thm.flags = [true, true, true] ∧ e.rd R.THM_STATUS_T = ofInt 16 v ∧
      SourceJoined d e .therm .device ∧ Src.therm ∈ e.rst.asserted)) ∧
  (core < 4 → d.fwReady = false → exec (.heartbeatTimeout core) s = .next s) ∧
  (core < 4 → d.fwReady = true → exec (.heartbeatTimeout core) s = .next { s with dev := d.rasEvent 10 0x15 0xFFFF core }) ∧
  (d.running = false → exec (.planStoreUncorrectableError mg) s = .next s ∧ exec (.controlCoreMemoryUe core) s = .next s) ∧
  (d.running = true → d.planActive = true → Gives (.planStoreUncorrectableError false) s (fun e =>
      e.sq = { d.sq with haltPending := true } ∧ bitAt (e.rd R.RAS_SUM) 5 = true ∧ RegsKeptRas d e [] ∧ e.beat = d.beat)) ∧
  (d.running = true → d.sq.arm = none → d.sq.staging = none → Gives (.planStoreUncorrectableError true) s (fun e =>
      e.sq = { d.sq with standby := [], sbyForms := [], staging := none } ∧ e.mem = { d.mem with tileSby := [] } ∧
      e.rd R.SEQ_STATUS_STANDBY = 0 ∧ e.rd R.SEQ_STATUS_STAGING = 0 ∧ bitAt (e.rd R.RAS_SUM) 5 = true ∧
      RegsKeptRas d e [R.SEQ_STATUS_STANDBY.key 0, R.SEQ_STATUS_STAGING.key 0] ∧ e.beat = d.beat)) ∧
  (d.running = true → d.sq.arm = some a → a.target = 0 → d.cmd? 0 a.seqNo = none → Gives (.planStoreUncorrectableError true) s (fun e =>
      e.sq.arm = none ∧ e.rd R.SEQ_REFUSE = refuseWord 14 (d.armPlan 0) 0xFFFF % 2 ^ 32 ∧ e.rdi R.HIF_EVT_PEND 1 = 1 ∧
      (d.sq.staging = none → e.sq.standby = []) ∧ e.beat = d.beat)) ∧
  (d.running = true → Gives (.controlCoreMemoryUe core) s (fun e =>
      bitAt (e.rd R.RAS_SUM) 5 = true ∧ RegsKeptRas d e [] ∧ (core < 4 → core ∈ e.boot.dead) ∧
      (core = 4 → e.boot = d.boot) ∧ e.sq = d.sq ∧ e.beat = d.beat)) ∧
  (joins → d.rasEvent cls blk cl detail mg = { d with
      regs := (d.rasEvent cls blk cl detail mg).regs, ras := (d.rasEvent cls blk cl detail mg).ras } ∧
    (d.rasEvent cls blk cl detail mg).rdi R.RAS_LOG_COUNT top = satAdd 8 (d.rdi R.RAS_LOG_COUNT top) 1 ∧
    bitAt ((d.rasEvent cls blk cl detail mg).rd R.RAS_SUM) cls = true ∧
    RegsKept d (d.rasEvent cls blk cl detail mg) [R.RAS_SUM.key 0, R.RAS_LOG_COUNT.key top]) ∧
  (¬joins → (w + 1) % 256 ≠ d.rd R.RAS_LOG_RD → let e := d.rasEvent cls blk cl detail mg
    e.rd R.RAS_LOG_WR_NEXT = (w + 1) % 256 ∧ e.rdi R.RAS_LOG_STAMP w = d.stamp ∧ e.rdi R.RAS_LOG_CLASS w = cls ∧
    e.rdi R.RAS_LOG_BLOCK w = blk % 256 ∧ e.rdi R.RAS_LOG_CLIENT w = cl % 2 ^ 16 ∧ e.rdi R.RAS_LOG_COUNT w = 1 ∧
    e.rdi R.RAS_LOG_DETAIL w = detail % 2 ^ 32 ∧ bitAt (e.rd R.RAS_SUM) cls = true ∧ e.rdi R.HIF_EVT_PEND 0 = 1 ∧
    e.ras.newest = some d.beat ∧ e.ras.merge = mg ∧
    (bitAt (d.rd R.MGT_ALERT_MASK) cls = true → e.rd R.MGT_STATUS_ALERT = 1) ∧
    RegsKept d e [R.RAS_SUM.key 0, R.RAS_LOG_WR_NEXT.key 0, R.RAS_LOG_STAMP.key w, R.RAS_LOG_CLASS.key w,
      R.RAS_LOG_BLOCK.key w, R.RAS_LOG_CLIENT.key w, R.RAS_LOG_COUNT.key w, R.RAS_LOG_DETAIL.key w,
      R.HIF_EVT_PEND.key 0, R.MGT_STATUS_ALERT.key 0]) ∧
  (¬joins → (w + 1) % 256 = d.rd R.RAS_LOG_RD → let e := d.rasEvent cls blk cl detail mg
    e.rd R.RAS_LOG_WR_LOST = satAdd 16 (d.rd R.RAS_LOG_WR_LOST) 1 ∧ bitAt (e.rd R.RAS_SUM) cls = true ∧
    RegsKept d e [R.RAS_SUM.key 0, R.RAS_LOG_WR_LOST.key 0]) ∧
  ((w + 1) % 256 ≠ d.rd R.RAS_LOG_RD → d.rdi R.MEM_T2_STATUS_FAILED (i % 8) = 0 →
    (d.failChannel (i % 8)).rd R.RAS_LOG_WR_NEXT = (w + 1) % 256 ∧ (d.failChannel (i % 8)).ras.merge = false) ∧
  ((w + 1) % 256 ≠ d.rd R.RAS_LOG_RD → d.rdi R.MEM_T1_STATUS_FAILED (i % 6) = 0 →
    (d.failStack (i % 6)).rd R.RAS_LOG_WR_NEXT = (w + 1) % 256 ∧ (d.failStack (i % 6)).ras.merge = false)

/-- Before the interface is awake every request is NACKed; one whose code is not acknowledged counts NACK and one with a
bad PEC counts PEC_ERR. A request equal to the last one acted on only counts REPEAT, and REPLY answers it from the
cached reply. A wrong argument count completes BAD_ARG. STATUS, TELEMETRY, SENSORS, ERRLOG and IDENTITY cache their
records; ALERT_MASK caches the old mask and sets the new one; ERRCLR does what a write of its mask to RAS_SUM does;
RESET_DEVICE needs its key and an unsealed mode and leaves the reset due; RAIL_RETRY needs a latched fault. REPLY
sends the cached block. The alert response releases SMB_ALERT_N, and a bus timeout counts. -/
def Obligations.SmbusRequests : Prop :=
  ∀ (s : State) (req : SmbReq) (op : Instr) (code nargs : Nat),
  (op, code, nargs) ∈ [(.status req, 1, 0), (.telemetry req, 2, 0), (.sensors req, 3, 1), (.errlog req, 4, 1),
    (.errclr req, 5, 2), (.identity req, 6, 0), (.alertMask req, 7, 2), (.resetDevice req, 0x10, 1), (.railRetry req, 0x11, 1)] →
  let d := s.dev
  let a := req.payload.drop 1
  let acked := d.smbAwake = true ∧ d.rd R.MGT_STATUS_PENDING = 0 ∧
    (d.fwReady = true ∨ code = 1 ∨ code = 2 ∨ (code = 0x11 ∧ d.word R.PWR_STATUS_RAIL_FAULT ≠ 0))
  let good := acked ∧ req.pecOk = true ∧ req.payload ≠ [] ∧
    d.mgt.cached.map (fun r => (r.code, r.payload)) ≠ some (code, req.payload)
  let acts := good ∧ req.payload.length = nargs + 1
  let done := fun (e : Dev) (st : Nat) (data : List Nat) => e.mgt.cached = some ⟨code, req.payload, st, data⟩ ∧
    e.rd R.MGT_STATUS_LASTCMD = code ∧ e.rd R.MGT_STATUS_SEQ = u8 req.payload 0 ∧
    e.rd R.MGT_STATUS_PENDING = (if st = 1 then 1 else 0) ∧ e.beat = d.beat
  let keys := [R.MGT_STATUS_LASTCMD.key 0, R.MGT_STATUS_SEQ.key 0, R.MGT_STATUS_PENDING.key 0]
  (d.smbAwake = false → exec op s = .next { s with dev := { d with out := .smbNack :: d.out } }) ∧
  (d.smbAwake = true → ¬acked → Gives op s (fun e => e.rd R.MGT_CNT0_NACK = satAdd 16 (d.rd R.MGT_CNT0_NACK) 1 ∧
    RegsKept d e [R.MGT_CNT0_NACK.key 0] ∧ e = { d with regs := e.regs, out := .smbNack :: d.out })) ∧
  (acked → req.pecOk = false ∨ req.payload = [] → Gives op s (fun e =>
    e.rd R.MGT_CNT0_PEC_ERR = satAdd 16 (d.rd R.MGT_CNT0_PEC_ERR) 1 ∧ bitAt (e.rd R.RAS_SUM) 12 = true ∧
    e.mgt = d.mgt ∧ e.out = .smbNack :: d.out ∧ RegsKeptRas d e [R.MGT_CNT0_PEC_ERR.key 0] ∧ e.beat = d.beat)) ∧
  (acked → req.pecOk = true → req.payload ≠ [] → d.mgt.cached.map (fun r => (r.code, r.payload)) = some (code, req.payload) →
    Gives op s (fun e => e.rd R.MGT_CNT1_REPEAT = satAdd 16 (d.rd R.MGT_CNT1_REPEAT) 1 ∧
      RegsKept d e [R.MGT_CNT1_REPEAT.key 0] ∧ e = { d with regs := e.regs } ∧ e.replyBlock = d.replyBlock)) ∧
  (good → req.payload.length ≠ nargs + 1 → Gives op s (fun e => done e 3 [] ∧ RegsKept d e keys ∧
    e = { d with regs := e.regs, mgt := e.mgt })) ∧
  (acts → code = 1 → Gives op s (fun e => done e 0 d.statusRecord ∧ RegsKept d e keys ∧ e.out = d.out)) ∧
  (acts → code = 2 → Gives op s (fun e => done e 0 d.telemetryRecord ∧ RegsKept d e keys ∧ e.out = d.out)) ∧
  (acts → code = 3 → u8 a 0 < 4 → Gives op s (fun e => done e 0 (((List.range 12).map (fun i =>
    leBytes 2 (if !d.sensorHere (12 * u8 a 0 + i) || d.isSeti R.THM_SENS_EXCL (12 * u8 a 0 + i) then 0x8000
      else d.rdi R.THM_SENS_READING (12 * u8 a 0 + i)))).flatten) ∧ RegsKept d e keys)) ∧
  (acts → code = 3 → 4 ≤ u8 a 0 → Gives op s (fun e => done e 3 [] ∧ RegsKept d e keys)) ∧
  (acts → code = 4 → Gives op s (fun e => done e 0 (d.rasEntry (u8 a 0) ++ [d.rd R.RAS_LOG_WR_NEXT]) ∧ RegsKept d e keys)) ∧
  (acts → code = 5 → Gives op s (fun e => done e 0 [] ∧ RegsKept d e (R.RAS_SUM.key 0 :: keys) ∧
    (d.running = true → d.lostWrite 0x150000 = false → d.blkAnswers 0x150000 = true → d.blockHeld 0x150000 = false →
      d.isSet R.HIF_LINK_DL_UP = true → Gives (.w1cWrite .pf 0x150000 (u16 a 0)) s (fun f =>
        e.rd R.RAS_SUM = f.rd R.RAS_SUM)))) ∧
  (acts → code = 6 → Gives op s (fun e => done e 0 d.identityRecord ∧ RegsKept d e keys)) ∧
  (acts → code = 7 → Gives op s (fun e => done e 0 (leBytes 2 (d.rd R.MGT_ALERT_MASK)) ∧
    e.rd R.MGT_ALERT_MASK = 2 * bits (u16 a 0) 1 13 ∧ RegsKept d e (R.MGT_ALERT_MASK.key 0 :: keys))) ∧
  (acts → code = 0x10 → Gives op s (fun e => RegsKept d e keys ∧
    (u8 a 0 ≠ 0xA5 → done e 3 [] ∧ e.mgt.resetDue = d.mgt.resetDue) ∧
    (u8 a 0 = 0xA5 → d.sealedMode = true → done e 2 [] ∧ e.mgt.resetDue = d.mgt.resetDue) ∧
    (u8 a 0 = 0xA5 → d.sealedMode = false → done e 0 [] ∧ e.mgt.resetDue = true))) ∧
  (acts → code = 0x11 → 4 ≤ u8 a 0 → Gives op s (fun e => done e 3 [] ∧ RegsKept d e keys)) ∧
  (acts → code = 0x11 → u8 a 0 < 4 → d.rdi R.PWR_STATUS_RAIL_FAULT (u8 a 0) = 0 →
    Gives op s (fun e => done e 2 [] ∧ RegsKept d e keys)) ∧
  (acts → code = 0x11 → u8 a 0 < 4 → d.rdi R.PWR_STATUS_RAIL_FAULT (u8 a 0) = 1 →
    Gives op s (fun e => done e (if d.pw.seq = .falling then 1 else 0) [] ∧ e.pw = (d.railRetry (u8 a 0)).pw)) ∧
  exec .reply s = .next { s with dev := { d with out := (if d.smbAwake then Out.smbus d.replyBlock else .smbNack) :: d.out } } ∧
  (∀ r, d.mgt.cached = some r → d.replyBlock = [3 + r.data.length, r.status, u8 r.payload 0, r.code] ++ r.data) ∧
  (d.smbAwake = false ∨ d.rd R.MGT_STATUS_ALERT = 0 → exec .alertResponse s = .next s) ∧
  (d.smbAwake = true → d.rd R.MGT_STATUS_ALERT = 1 → Gives .alertResponse s (fun e => e.rd R.MGT_STATUS_ALERT = 0 ∧
    RegsKept d e [R.MGT_STATUS_ALERT.key 0] ∧ e = { d with regs := e.regs, out := .smbus [0x4A] :: d.out })) ∧
  (d.pw.vaux = true → Gives .smbusTimeout s (fun e => e.rd R.MGT_CNT1_TIMEOUT = satAdd 16 (d.rd R.MGT_CNT1_TIMEOUT) 1 ∧
    bitAt (e.rd R.RAS_SUM) 12 = true ∧ e.mgt = d.mgt ∧ RegsKeptRas d e [R.MGT_CNT1_TIMEOUT.key 0] ∧ e.beat = d.beat)) ∧
  (d.pw.vaux = false → exec .smbusTimeout s = .next s)

/-- Test-Logic-Reset selects IDCODE and ends boundary scan. EXTEST, CLAMP and HIGHZ are loaded with the boundary
register, and BYPASS in their place with SCAN_REF while a plan is active; a code the table does not list selects
BYPASS. Selecting DBG_CHAL draws a nonce of 32 free bytes and shifts out the serial number and the nonce. A response
under LOCKOUT does nothing; another spends the nonce and writes a DEBUG entry, opens its scope when it is accepted,
and else counts FAILS, the third setting LOCKOUT. With the scope LOCKED, DBG_MEM and DBG_CORE shift out zero and do
nothing else. With CORE scope a HALT sets its core's bit and writes an entry when the core was not halted, and a
RESUME clears it. -/
def Obligations.DebugPort : Prop :=
  ∀ (s : State) (code cells u : Nat) (b : List Nat),
  let d := s.dev
  let core := bits u 0 2
  let h := d.rd R.MGT_DBG_HALTED
  let ok := match d.dbg.nonce with
    | some n => respOk s.nv d.rst.opt n b
    | none => false
  exec .tapReset s = .next { s with dev := { d with dbg := { d.dbg with ir := 1, scan := false } } } ∧
  (3 ≤ code → code ≤ 5 → d.planActive = false → exec (.boundaryScanInstruction code cells) s = .next { s with
    dev := { d with dbg := { d.dbg with ir := code, scan := true, cells := cells % 2 ^ 84 } } }) ∧
  (3 ≤ code → code ≤ 5 → d.planActive = false → exec (.updateIr code) s = .next { s with
    dev := { d with dbg := { d.dbg with ir := code, scan := true, cells := d.dbg.cells % 2 ^ 84 } } }) ∧
  (3 ≤ code → code ≤ 5 → d.planActive = true →
    exec (.boundaryScanInstruction code cells) s = exec (.updateIr code) s ∧ Gives (.updateIr code) s (fun e =>
      e.rd R.MGT_DBG_SCAN_REF = 1 ∧ RegsKept d e [R.MGT_DBG_SCAN_REF.key 0] ∧
      e = { d with regs := e.regs, dbg := { d.dbg with ir := 0xFF, scan := false } })) ∧
  (code ∉ [3, 4, 5, 0x20] → exec (.updateIr code) s = .next { s with dev := { d with dbg := { d.dbg with
    ir := if code ∈ [1, 2, 0x21, 0x22, 0x23] then code else 0xFF, scan := false } } }) ∧
  (exec (.updateIr 0x20) s = exec .dbgChal s ∧ Gives .dbgChal s (fun e => ∃ m, e.dbg.nonce = some m ∧ m.length = 32 ∧
    (∀ x, x ∈ m → x < 256) ∧ e.out = .tdo (shiftBits (challenge s.nv m)) :: d.out ∧ e.free = d.free + 32 ∧
    e = { d with free := e.free, out := e.out, dbg := { d.dbg with ir := 0x20, scan := false, nonce := some m } })) ∧
  (d.rd R.MGT_DBG_LOCKOUT = 1 → exec (.dbgResp b) s = .next s) ∧
  (d.rd R.MGT_DBG_LOCKOUT = 0 → Gives (.dbgResp b) s (fun e =>
    e.dbg = { d.dbg with nonce := none } ∧ bitAt (e.rd R.RAS_SUM) 11 = true ∧
    (ok = true → e.rd R.MGT_DBG_SCOPE = u8 b 0 % 4 ∧ RegsKeptRas d e [R.MGT_DBG_SCOPE.key 0]) ∧
    (ok = false → e.rd R.MGT_DBG_FAILS = satAdd 2 (d.rd R.MGT_DBG_FAILS) 1 ∧
      e.rd R.MGT_DBG_LOCKOUT = b2n (decide (2 ≤ d.rd R.MGT_DBG_FAILS)) ∧
      RegsKeptRas d e [R.MGT_DBG_FAILS.key 0, R.MGT_DBG_LOCKOUT.key 0]) ∧ e.beat = d.beat ∧ e.out = d.out)) ∧
  (d.rd R.MGT_DBG_SCOPE = 0 → (exec (.dbgMem u) s = .next { s with dev := { d with out := tdo64 0 :: d.out } } ∧
    exec (.dbgCoreHalt u) s = .next { s with dev := { d with out := tdo64 0 :: d.out } } ∧
    exec (.dbgCoreResume u) s = .next { s with dev := { d with out := tdo64 0 :: d.out } })) ∧
  (d.rd R.MGT_DBG_SCOPE ≠ 0 → d.running = true → bitAt u 63 = false → isHi (4 * bits u 32 22) = false →
    isHi (4 * bits u 32 22 + 4) = false → 4 * bits u 32 22 ≠ 0xE0008 → 4 * bits u 32 22 < 0x170000 →
    d.blkAnswers (4 * bits u 32 22) = true → exec (.dbgMem u) s = .next { s with dev := { d with
      out := tdo64 d.dbg.mem :: d.out, dbg := { d.dbg with mem := d.seenWord (4 * bits u 32 22) } } }) ∧
  (d.rd R.MGT_DBG_SCOPE ≠ 0 → d.running = true → bitAt u 63 = true → 4 * bits u 32 22 = 0x90004 → d.inReset 3 = false →
    d.blkAnswers 0x90004 = true → d.lostWrite 0x90004 = false → Gives (.dbgMem u) s (fun e =>
      e.rd R.CAL_PAGE = bits u 0 32 % 16 ∧ RegsKept d e [R.CAL_PAGE.key 0] ∧
      e = { d with regs := e.regs, out := tdo64 d.dbg.mem :: d.out })) ∧
  (d.rd R.MGT_DBG_SCOPE = 2 → bitAt u 2 = true → bitAt u 3 = false → Gives (.dbgCoreHalt u) s (fun e =>
    e.rd R.MGT_DBG_HALTED = putBit h core true ∧ e.dbg = { d.dbg with core := core } ∧ (∃ pc, pc < 2 ^ 24 ∧
      e.out = tdo64 (h * 2 ^ 32 + pc * 2 ^ 40) :: d.out) ∧ e.free = d.free + 1 ∧
    (bitAt h core = false → bitAt (e.rd R.RAS_SUM) 11 = true ∧ RegsKeptRas d e [R.MGT_DBG_HALTED.key 0]) ∧
    (bitAt h core = true → e.regs = d.regs) ∧ e.beat = d.beat)) ∧
  (d.rd R.MGT_DBG_SCOPE = 2 → bitAt u 2 = false → bitAt u 3 = true → Gives (.dbgCoreResume u) s (fun e =>
    e.rd R.MGT_DBG_HALTED = putBit h core false ∧ e.dbg = { d.dbg with core := core } ∧
    RegsKept d e [R.MGT_DBG_HALTED.key 0] ∧ e.free = d.free + 1 ∧ e.beat = d.beat))

/-- An access the device does not hear does nothing. One that reaches an offset the tables do not name reads zero and
writes nothing. One of another size or alignment than R9 supports writes nothing, reads all ones, and is an access
error. A request by the link that reaches no BAR is answered with Unsupported Request. A 32-bit read of a word
without side effects returns it; a read of a _LO word keeps its _HI word for the next read of that. A plain RW field
takes a write, and a host write loses to an Armature write of the register in the same beat. A SNAP write captures
the block's group. A W1C write clears the bits of RST_CAUSE whose source is not asserted, and those of RAS_SUM that
no event set in this beat. -/
def Obligations.RegisterAccess : Prop :=
  ∀ (s : State) (m : Master) (a size v : Nat), a < 2 ^ 40 →
  let d := s.dev
  let hits := d.hears m = true ∧ d.reaches m a = true
  let err := match m with
    | .vf c => d.rasEvent 1 0x0D c (0xD8000 + a)
    | _ => d.rasEvent 1 (blockOf a) (masterClient m) a
  let free := fun (x : Nat) => d.blkAnswers x = true ∧ d.blockHeld x = false ∧ d.lostWrite x = false
  (d.hears m = false → exec (.registerRead m a size) s = .next s ∧ exec (.registerWrite m a size v) s = .next s ∧
    exec (.w1cWrite m a v) s = .next s ∧ exec (.blockSnap m a v) s = .next s) ∧
  (hits → masterNamed m a = false → exec (.registerWrite m a size v) s = .next s ∧
    exec (.registerRead m a size) s = .next { s with dev := { d with out := .readData 0 size :: d.out } }) ∧
  (hits → masterNamed m a = true → ¬(size = 4 ∧ a % 4 = 0) → ¬(size = 8 ∧ a % 8 = 0) →
    exec (.registerWrite m a size v) s = .next { s with dev := err } ∧
    exec (.registerRead m a size) s = .next { s with dev := { err with
      out := .readData (2 ^ (8 * size) - 1) size :: err.out } }) ∧
  (d.hears m = true → d.reaches m a = false → onLink m = true →
    exec (.registerRead m a size) s = .next { s with dev := d.answerUr (urFn m a) [] } ∧
    exec (.registerWrite m a size v) s = .next { s with dev := d.answerUr (urFn m a) [] }) ∧
  (hits → m = .pf → masterNamed m a = true → size = 4 → a % 4 = 0 → d.blkAnswers a = true → isHi a = false →
    isHi (a + 4) = false → a ≠ 0xE0008 → exec (.registerRead m a size) s = .next { s with dev := { d with
      out := .readData (d.seenWord a) 4 :: d.out } }) ∧
  (hits → m = .pf → masterNamed m a = true → size = 4 → a % 4 = 0 → d.blkAnswers a = true → isHi a = false →
    isHi (a + 4) = true → Gives (.registerRead m a size) s (fun e => e.out = .readData (d.seenWord a) 4 :: d.out ∧
      sget 0 e.hi (hiKey .pf (a + 4)) = d.seenWord (a + 4) ∧ e.beat = d.beat ∧ e.mem = d.mem)) ∧
  (hits → m = .pf → masterNamed m a = true → size = 4 → a % 4 = 0 → d.blkAnswers a = true → isHi a = true →
    exec (.registerRead m a size) s = .next { s with dev := { d with
      out := .readData (sget 0 d.hi (hiKey .pf a)) 4 :: d.out } }) ∧
  (hits → m = .pf → a = 0x90004 → size = 4 → free a → Gives (.registerWrite m a size v) s (fun e =>
    e.rd R.CAL_PAGE = v % 16 ∧ RegsKept d e [R.CAL_PAGE.key 0] ∧ e = { d with regs := e.regs })) ∧
  (hits → m = .pf → a = 0x90004 → size = 4 → d.blkAnswers a = true → d.blockHeld a = false → d.lostWrite a = true →
    exec (.registerWrite m a size v) s = .next { s with dev := d.rasEvent 2 0x09 0 0x90004 }) ∧
  (d.hears m = true → m = .pf → a < 0x170000 → snapOffset (a / 0x10000) = some (a % 0x10000) → a ≠ 0x60040 → free a →
    (bitAt v 0 = true → exec (.blockSnap m a v) s = .next { s with dev := d.snapBlock (a / 0x10000) }) ∧
    (bitAt v 0 = false → exec (.blockSnap m a v) s = .next s)) ∧
  (d.hears m = true → m = .pf → a = 0x10000 → free a → Gives (.w1cWrite m a v) s (fun e =>
    (∀ i, i < 12 → bitAt (e.rd R.RST_CAUSE) i =
      (bitAt (d.rd R.RST_CAUSE) i && (!bitAt v i || (d.rst.asserted.map (fun x => x.bit)).contains i))) ∧
    RegsKept d e [R.RST_CAUSE.key 0] ∧ e = { d with regs := e.regs })) ∧
  (d.hears m = true → m = .pf → a = 0x150000 → free a → Gives (.w1cWrite m a v) s (fun e =>
    (∀ i, i < 13 → bitAt (e.rd R.RAS_SUM) i =
      (bitAt (d.rd R.RAS_SUM) i && (!bitAt v i || (decide (d.ras.sumAt = d.beat) && bitAt d.ras.sumBits i)))) ∧
    RegsKept d e [R.RAS_SUM.key 0] ∧ e = { d with regs := e.regs }))

/-- A command that names units the block has, whatever the state, answers a next state, in which the waiting commands
are what they were. A command that names a unit the block does not have stops with the fault noSuchUnit. What waits
in the queue has no part in what a command does (log entry 1). -/
def Obligations.EveryCommandAnswers : Prop :=
  ∀ (c : Instr) (s : State) (q : List Instr),
  (c.unitOk = true → ∃ t, exec c s = .next t ∧ t.pending = s.pending ∧
    exec c { s with pending := q } = .next { t with pending := q }) ∧
  (c.unitOk = false → exec c s = .fault .noSuchUnit)
end

