-- ==== Sys2Proof/Laws/Sparse.lean ====
section
/-!
SUPPORT. Laws of sparse tables and byte memories: a read after a write gives the value written, a write leaves every
other key alone, and every operation keeps the canonical form.
-/

namespace Sys2Proof.Machine

variable {α : Type}

@[simp] theorem sfind_nil (k : Nat) : sfind ([] : Sparse α) k = none := rfl

theorem sfind_cons (k' : Nat) (v : α) (r : Sparse α) (k : Nat) :
    sfind ((k', v) :: r) k = if k' = k then some v else sfind r k := rfl

@[simp] theorem sfind_sins_same (l : Sparse α) (k : Nat) (v : α) : sfind (sins l k v) k = some v := by
  induction l with
  | nil => simp [sins, sfind]
  | cons e r ih =>
    obtain ⟨k', v'⟩ := e
    simp only [sins]
    split
    · rw [sfind_cons, if_neg (by omega), ih]
    · split <;> simp [sfind_cons]

theorem sfind_sins_ne (l : Sparse α) {k j : Nat} (v : α) (h : j ≠ k) : sfind (sins l k v) j = sfind l j := by
  induction l with
  | nil => simp [sins, sfind_cons, Ne.symm h]
  | cons e r ih =>
    obtain ⟨k', v'⟩ := e
    simp only [sins]
    split
    · simp [sfind_cons, ih]
    · split
      · next h' => subst h'; simp [sfind_cons, Ne.symm h]
      · simp [sfind_cons, Ne.symm h]

@[simp] theorem sfind_sdel_same (l : Sparse α) (k : Nat) : sfind (sdel l k) k = none := by
  induction l with
  | nil => rfl
  | cons e r ih =>
    obtain ⟨k', v'⟩ := e
    simp only [sdel]
    split
    · exact ih
    · next h => simp [sfind_cons, h, ih]

theorem sfind_sdel_ne (l : Sparse α) {k j : Nat} (h : j ≠ k) : sfind (sdel l k) j = sfind l j := by
  induction l with
  | nil => rfl
  | cons e r ih =>
    obtain ⟨k', v'⟩ := e
    simp only [sdel]
    split
    · next h' => subst h'; simp [sfind_cons, Ne.symm h, ih]
    · simp [sfind_cons, ih]

theorem sfind_sput_ne [DecidableEq α] (dflt : α) (l : Sparse α) {k j : Nat} (v : α) (h : j ≠ k) :
    sfind (sput dflt l k v) j = sfind l j := by
  unfold sput
  split
  · exact sfind_sdel_ne l h
  · exact sfind_sins_ne l v h

/-- A read after a write to the same key gives the value written. -/
@[simp] theorem sget_sput_same [DecidableEq α] (dflt : α) (l : Sparse α) (k : Nat) (v : α) :
    sget dflt (sput dflt l k v) k = v := by
  unfold sput sget
  split
  · next h => simp [h]
  · simp

/-- A write leaves every other key alone, whatever default it is read with. -/
theorem sget_sput_ne [DecidableEq α] (dflt dflt' : α) (l : Sparse α) {k j : Nat} (v : α) (h : j ≠ k) :
    sget dflt' (sput dflt l k v) j = sget dflt' l j := by
  simp [sget, sfind_sput_ne dflt l v h]

theorem sfind_skeep (p : Nat → Bool) (l : Sparse α) (k : Nat) :
    sfind (skeep p l) k = if p k then sfind l k else none := by
  induction l with
  | nil => simp [skeep]
  | cons e r ih =>
    obtain ⟨k', v'⟩ := e
    simp only [skeep, List.filter_cons]
    by_cases hk : k' = k
    · subst hk
      cases hp : p k' with
      | true => simp [sfind_cons]
      | false => simpa [skeep, hp] using ih
    · cases hp : p k' with
      | true => simpa [sfind_cons, hk, skeep] using ih
      | false => simpa [sfind_cons, hk, skeep] using ih

/-! ### The canonical form -/

theorem risingFrom_mono {l : Sparse α} {a b : Nat} (h : risingFrom b l = true) (hab : a ≤ b) : risingFrom a l = true := by
  cases l with
  | nil => rfl
  | cons e r => simp only [risingFrom, Bool.and_eq_true, decide_eq_true_eq] at h ⊢; exact ⟨by omega, h.2⟩

theorem risingFrom_sins {l : Sparse α} {a k : Nat} {v : α} (h : risingFrom a l = true) (hk : a ≤ k) :
    risingFrom a (sins l k v) = true := by
  induction l generalizing a with
  | nil => simp [sins, risingFrom, hk]
  | cons e r ih =>
    obtain ⟨k', v'⟩ := e
    simp only [risingFrom, Bool.and_eq_true, decide_eq_true_eq] at h
    simp only [sins]
    split
    · simp only [risingFrom, Bool.and_eq_true, decide_eq_true_eq]; exact ⟨h.1, ih h.2 (by omega)⟩
    · split
      · simp only [risingFrom, Bool.and_eq_true, decide_eq_true_eq]; next h' => subst h'; exact ⟨hk, h.2⟩
      · simp only [risingFrom, Bool.and_eq_true, decide_eq_true_eq]; exact ⟨hk, by omega, h.2⟩

theorem risingFrom_filter {l : Sparse α} {a : Nat} (p : Nat × α → Bool) (h : risingFrom a l = true) :
    risingFrom a (l.filter p) = true := by
  induction l generalizing a with
  | nil => rfl
  | cons e r ih =>
    simp only [risingFrom, Bool.and_eq_true, decide_eq_true_eq] at h
    rw [List.filter_cons]
    split
    · simp only [risingFrom, Bool.and_eq_true, decide_eq_true_eq]; exact ⟨h.1, ih h.2⟩
    · exact risingFrom_mono (ih h.2) (by omega)

theorem sdel_eq_filter (l : Sparse α) (k : Nat) : sdel l k = l.filter (fun e => decide (e.1 ≠ k)) := by
  induction l with
  | nil => rfl
  | cons e r ih =>
    obtain ⟨k', v'⟩ := e
    simp only [sdel, List.filter_cons, ih]
    by_cases h : k' = k <;> simp [h]

theorem all_sins {l : Sparse α} {k : Nat} {v : α} {p : Nat × α → Bool} (h : l.all p = true) (hv : p (k, v) = true) :
    (sins l k v).all p = true := by
  induction l with
  | nil => simp [sins, hv]
  | cons e r ih =>
    obtain ⟨k', v'⟩ := e
    simp only [List.all_cons, Bool.and_eq_true] at h
    simp only [sins]
    split
    · simp [h.1, ih h.2]
    · split <;> simp [hv, h.1, h.2]

theorem all_filter {l : Sparse α} (q p : Nat × α → Bool) (h : l.all p = true) : (l.filter q).all p = true := by
  simp only [List.all_eq_true] at h ⊢
  intro x hx
  exact h x (List.mem_filter.mp hx).1

/-- Storing a value keeps the canonical form. -/
theorem swf_sput [DecidableEq α] {dflt : α} {l : Sparse α} {k : Nat} {v : α} (h : swf dflt l = true) :
    swf dflt (sput dflt l k v) = true := by
  simp only [swf, Bool.and_eq_true] at h ⊢
  unfold sput
  split
  · rw [sdel_eq_filter]; exact ⟨risingFrom_filter _ h.1, all_filter _ _ h.2⟩
  · next hv => exact ⟨risingFrom_sins h.1 (Nat.zero_le _), all_sins h.2 (by simpa using hv)⟩

theorem swf_skeep [DecidableEq α] {dflt : α} {l : Sparse α} (p : Nat → Bool) (h : swf dflt l = true) :
    swf dflt (skeep p l) = true := by
  simp only [swf, Bool.and_eq_true] at h ⊢
  exact ⟨risingFrom_filter _ h.1, all_filter _ _ h.2⟩

theorem Memory.wf_mput {dflt : Byte} {m : ByteMem} (a : Nat) (b : Byte) (h : Memory.wf dflt m = true) :
    Memory.wf dflt (mput dflt m a b) = true := swf_sput h

theorem Memory.wf_mputs {dflt : Byte} {m : ByteMem} (a : Nat) (bs : List Nat) (h : Memory.wf dflt m = true) :
    Memory.wf dflt (mputs dflt m a bs) = true := by
  induction bs generalizing m a with
  | nil => exact h
  | cons b r ih => exact ih _ (Memory.wf_mput a _ h)

theorem Memory.wf_mclear {dflt : Byte} {m : ByteMem} (a n : Nat) (h : Memory.wf dflt m = true) :
    Memory.wf dflt (mclear m a n) = true := swf_skeep _ h

/-! ### Reads of byte memories after writes -/

@[simp] theorem mget_mput_same (dflt : Byte) (m : ByteMem) (a : Nat) (b : Byte) : mget dflt (mput dflt m a b) a = b :=
  sget_sput_same dflt m a b

theorem mget_mput_ne (dflt : Byte) (m : ByteMem) {a j : Nat} (b : Byte) (h : j ≠ a) :
    mget dflt (mput dflt m a b) j = mget dflt m j := sget_sput_ne dflt dflt m b h

/-- A run of stores leaves every byte outside it alone. -/
theorem mget_mputs_outside (dflt : Byte) (m : ByteMem) (a : Nat) (bs : List Nat) {j : Nat}
    (h : j < a ∨ a + bs.length ≤ j) : mget dflt (mputs dflt m a bs) j = mget dflt m j := by
  induction bs generalizing m a with
  | nil => rfl
  | cons b r ih =>
    simp only [mputs]
    rw [ih (a := a + 1) (h := by simp only [List.length_cons] at h; omega)]
    exact mget_mput_ne dflt m _ (by simp only [List.length_cons] at h; omega)

/-- A cleared range reads as the default, and every byte outside it as before. -/
theorem mget_mclear (dflt : Byte) (m : ByteMem) (a n j : Nat) :
    mget dflt (mclear m a n) j = if j < a ∨ a + n ≤ j then mget dflt m j else dflt := by
  simp only [mget, sget, mclear, sfind_skeep]
  by_cases h : j < a ∨ a + n ≤ j
  · simp [h]
  · have : (decide (j < a) || decide (a + n ≤ j)) = false := by simpa using h
    simp [h, this]

end Sys2Proof.Machine
end

