-- ==== Sys2Proof/Laws/Flash.lean ====
section
/-!
SUPPORT. Reading flash: what the undefined ranges decide, and what an erase makes of them (R229).
-/

namespace Sys2Proof.Machine

/-- With nothing undefined, flash reads as its bytes. -/
theorem Dev.flashRead_defined (d : Dev) (nv : Nv) (o n : Nat) (h : d.flashUndef = []) :
    d.flashRead nv o n = mgets 0xFF nv.flash o n := by simp [Dev.flashRead, h]

/-- Flash reads depend on the device through the undefined ranges alone. -/
theorem Dev.flashRead_congr {d e : Dev} (h : d.flashUndef = e.flashUndef) (nv : Nv) : d.flashRead nv = e.flashRead nv := by
  funext o n; simp [Dev.flashRead, Dev.flashByte, h]

/-- The same of a target's headers. -/
theorem Dev.updHeaders_congr {d e : Dev} (h : d.flashUndef = e.flashUndef) (nv : Nv) (t : Nat) :
    d.updHeaders nv t = e.updHeaders nv t := by simp only [Dev.updHeaders, Dev.flashRead_congr h]

/-- No byte of an erased range is undefined any more. -/
theorem cutUndef_clear (o n a : Nat) (l : List (Nat × Nat × Nat)) (h : o ≤ a ∧ a < o + n) :
    (cutUndef o n l).find? (fun u => decide (u.1 ≤ a ∧ a < u.1 + u.2.1)) = none := by
  simp only [List.find?_eq_none, cutUndef, List.mem_flatMap]
  rintro u ⟨v, -, hu⟩
  split at hu
  · simp only [List.mem_filter, List.mem_cons, List.not_mem_nil, or_false] at hu
    rcases hu.1 with rfl | rfl <;> simp <;> omega
  · rename_i hv
    simp only [List.mem_cons, List.not_mem_nil, or_false] at hu
    subst hu
    simp [overlaps] at hv
    simp; omega

end Sys2Proof.Machine
end

