-- ==== Sys2Proof/Laws/State.lean ====
section
/-!
SUPPORT. What each update of the device leaves alone: one lemma for each component and update, so that no later proof
unfolds a record update. Register reads and writes are brought to the forms `rdi` and `wri`.
-/

namespace Sys2Proof.Machine

variable (d : Dev)

/-! ### The normal forms of register reads and writes -/

@[simp] theorem Dev.rd_eq (f : Fld) : d.rd f = d.rdi f 0 := rfl
@[simp] theorem Dev.isSet_eq (f : Fld) : d.isSet f = decide (d.rdi f 0 = 1) := rfl
@[simp] theorem Dev.isSeti_eq (f : Fld) (i : Nat) : d.isSeti f i = decide (d.rdi f i = 1) := rfl
@[simp] theorem Dev.wr_eq (f : Fld) (v : Nat) : d.wr f v = d.wri f 0 v := rfl
@[simp] theorem Dev.flagi_eq (f : Fld) (i : Nat) (b : Bool) : d.flagi f i b = d.wri f i (b2n b) := rfl
@[simp] theorem Dev.flag_eq (f : Fld) (b : Bool) : d.flag f b = d.wri f 0 (b2n b) := rfl
@[simp] theorem Dev.addi_eq (f : Fld) (i n : Nat) : d.addi f i n = d.wri f i (satAdd f.w (d.rdi f i) n) := rfl
@[simp] theorem Dev.inci_eq (f : Fld) (i : Nat) : d.inci f i = d.wri f i (satAdd f.w (d.rdi f i) 1) := rfl
@[simp] theorem Dev.inc_eq (f : Fld) : d.inc f = d.wri f 0 (satAdd f.w (d.rdi f 0) 1) := rfl

/-! ### A register write -/

@[simp] theorem Dev.wri_beat (f : Fld) (i v : Nat) : (d.wri f i v).beat = d.beat := rfl
@[simp] theorem Dev.wri_free (f : Fld) (i v : Nat) : (d.wri f i v).free = d.free := rfl
@[simp] theorem Dev.wri_hi (f : Fld) (i v : Nat) : (d.wri f i v).hi = d.hi := rfl
@[simp] theorem Dev.wri_snaps (f : Fld) (i v : Nat) : (d.wri f i v).snaps = d.snaps := rfl
@[simp] theorem Dev.wri_armWrite (f : Fld) (i v : Nat) : (d.wri f i v).armWrite = d.armWrite := rfl
@[simp] theorem Dev.wri_flashUndef (f : Fld) (i v : Nat) : (d.wri f i v).flashUndef = d.flashUndef := rfl
@[simp] theorem Dev.wri_out (f : Fld) (i v : Nat) : (d.wri f i v).out = d.out := rfl
@[simp] theorem Dev.wri_pw (f : Fld) (i v : Nat) : (d.wri f i v).pw = d.pw := rfl
@[simp] theorem Dev.wri_rst (f : Fld) (i v : Nat) : (d.wri f i v).rst = d.rst := rfl
@[simp] theorem Dev.wri_boot (f : Fld) (i v : Nat) : (d.wri f i v).boot = d.boot := rfl
@[simp] theorem Dev.wri_st (f : Fld) (i v : Nat) : (d.wri f i v).st = d.st := rfl
@[simp] theorem Dev.wri_cad (f : Fld) (i v : Nat) : (d.wri f i v).cad = d.cad := rfl
@[simp] theorem Dev.wri_sq (f : Fld) (i v : Nat) : (d.wri f i v).sq = d.sq := rfl
@[simp] theorem Dev.wri_opt (f : Fld) (i v : Nat) : (d.wri f i v).opt = d.opt := rfl
@[simp] theorem Dev.wri_mem (f : Fld) (i v : Nat) : (d.wri f i v).mem = d.mem := rfl
@[simp] theorem Dev.wri_hif (f : Fld) (i v : Nat) : (d.wri f i v).hif = d.hif := rfl
@[simp] theorem Dev.wri_clients (f : Fld) (i v : Nat) : (d.wri f i v).clients = d.clients := rfl
@[simp] theorem Dev.wri_cal (f : Fld) (i v : Nat) : (d.wri f i v).cal = d.cal := rfl
@[simp] theorem Dev.wri_ing (f : Fld) (i v : Nat) : (d.wri f i v).ing = d.ing := rfl
@[simp] theorem Dev.wri_lau (f : Fld) (i v : Nat) : (d.wri f i v).lau = d.lau := rfl
@[simp] theorem Dev.wri_aet (f : Fld) (i v : Nat) : (d.wri f i v).aet = d.aet := rfl
@[simp] theorem Dev.wri_trg (f : Fld) (i v : Nat) : (d.wri f i v).trg = d.trg := rfl
@[simp] theorem Dev.wri_sad (f : Fld) (i v : Nat) : (d.wri f i v).sad = d.sad := rfl
@[simp] theorem Dev.wri_qps (f : Fld) (i v : Nat) : (d.wri f i v).qps = d.qps := rfl
@[simp] theorem Dev.wri_lpe (f : Fld) (i v : Nat) : (d.wri f i v).lpe = d.lpe := rfl
@[simp] theorem Dev.wri_thm (f : Fld) (i v : Nat) : (d.wri f i v).thm = d.thm := rfl
@[simp] theorem Dev.wri_ras (f : Fld) (i v : Nat) : (d.wri f i v).ras = d.ras := rfl
@[simp] theorem Dev.wri_mgt (f : Fld) (i v : Nat) : (d.wri f i v).mgt = d.mgt := rfl
@[simp] theorem Dev.wri_dbg (f : Fld) (i v : Nat) : (d.wri f i v).dbg = d.dbg := rfl

/-! ### Something put on the boundary -/

@[simp] theorem Dev.emit_beat (o : Out) : (d.emit o).beat = d.beat := rfl
@[simp] theorem Dev.emit_free (o : Out) : (d.emit o).free = d.free := rfl
@[simp] theorem Dev.emit_regs (o : Out) : (d.emit o).regs = d.regs := rfl
@[simp] theorem Dev.emit_hi (o : Out) : (d.emit o).hi = d.hi := rfl
@[simp] theorem Dev.emit_snaps (o : Out) : (d.emit o).snaps = d.snaps := rfl
@[simp] theorem Dev.emit_armWrite (o : Out) : (d.emit o).armWrite = d.armWrite := rfl
@[simp] theorem Dev.emit_flashUndef (o : Out) : (d.emit o).flashUndef = d.flashUndef := rfl
@[simp] theorem Dev.emit_pw (o : Out) : (d.emit o).pw = d.pw := rfl
@[simp] theorem Dev.emit_rst (o : Out) : (d.emit o).rst = d.rst := rfl
@[simp] theorem Dev.emit_boot (o : Out) : (d.emit o).boot = d.boot := rfl
@[simp] theorem Dev.emit_st (o : Out) : (d.emit o).st = d.st := rfl
@[simp] theorem Dev.emit_cad (o : Out) : (d.emit o).cad = d.cad := rfl
@[simp] theorem Dev.emit_sq (o : Out) : (d.emit o).sq = d.sq := rfl
@[simp] theorem Dev.emit_opt (o : Out) : (d.emit o).opt = d.opt := rfl
@[simp] theorem Dev.emit_mem (o : Out) : (d.emit o).mem = d.mem := rfl
@[simp] theorem Dev.emit_hif (o : Out) : (d.emit o).hif = d.hif := rfl
@[simp] theorem Dev.emit_clients (o : Out) : (d.emit o).clients = d.clients := rfl
@[simp] theorem Dev.emit_cal (o : Out) : (d.emit o).cal = d.cal := rfl
@[simp] theorem Dev.emit_ing (o : Out) : (d.emit o).ing = d.ing := rfl
@[simp] theorem Dev.emit_lau (o : Out) : (d.emit o).lau = d.lau := rfl
@[simp] theorem Dev.emit_aet (o : Out) : (d.emit o).aet = d.aet := rfl
@[simp] theorem Dev.emit_trg (o : Out) : (d.emit o).trg = d.trg := rfl
@[simp] theorem Dev.emit_sad (o : Out) : (d.emit o).sad = d.sad := rfl
@[simp] theorem Dev.emit_qps (o : Out) : (d.emit o).qps = d.qps := rfl
@[simp] theorem Dev.emit_lpe (o : Out) : (d.emit o).lpe = d.lpe := rfl
@[simp] theorem Dev.emit_thm (o : Out) : (d.emit o).thm = d.thm := rfl
@[simp] theorem Dev.emit_ras (o : Out) : (d.emit o).ras = d.ras := rfl
@[simp] theorem Dev.emit_mgt (o : Out) : (d.emit o).mgt = d.mgt := rfl
@[simp] theorem Dev.emit_dbg (o : Out) : (d.emit o).dbg = d.dbg := rfl

/-! ### A PF event -/

@[simp] theorem Dev.evt_beat (k : Nat) : (d.evt k).beat = d.beat := rfl
@[simp] theorem Dev.evt_free (k : Nat) : (d.evt k).free = d.free := rfl
@[simp] theorem Dev.evt_hi (k : Nat) : (d.evt k).hi = d.hi := rfl
@[simp] theorem Dev.evt_snaps (k : Nat) : (d.evt k).snaps = d.snaps := rfl
@[simp] theorem Dev.evt_armWrite (k : Nat) : (d.evt k).armWrite = d.armWrite := rfl
@[simp] theorem Dev.evt_flashUndef (k : Nat) : (d.evt k).flashUndef = d.flashUndef := rfl
@[simp] theorem Dev.evt_out (k : Nat) : (d.evt k).out = d.out := rfl
@[simp] theorem Dev.evt_pw (k : Nat) : (d.evt k).pw = d.pw := rfl
@[simp] theorem Dev.evt_rst (k : Nat) : (d.evt k).rst = d.rst := rfl
@[simp] theorem Dev.evt_boot (k : Nat) : (d.evt k).boot = d.boot := rfl
@[simp] theorem Dev.evt_st (k : Nat) : (d.evt k).st = d.st := rfl
@[simp] theorem Dev.evt_cad (k : Nat) : (d.evt k).cad = d.cad := rfl
@[simp] theorem Dev.evt_sq (k : Nat) : (d.evt k).sq = d.sq := rfl
@[simp] theorem Dev.evt_opt (k : Nat) : (d.evt k).opt = d.opt := rfl
@[simp] theorem Dev.evt_mem (k : Nat) : (d.evt k).mem = d.mem := rfl
@[simp] theorem Dev.evt_clients (k : Nat) : (d.evt k).clients = d.clients := rfl
@[simp] theorem Dev.evt_cal (k : Nat) : (d.evt k).cal = d.cal := rfl
@[simp] theorem Dev.evt_ing (k : Nat) : (d.evt k).ing = d.ing := rfl
@[simp] theorem Dev.evt_lau (k : Nat) : (d.evt k).lau = d.lau := rfl
@[simp] theorem Dev.evt_aet (k : Nat) : (d.evt k).aet = d.aet := rfl
@[simp] theorem Dev.evt_trg (k : Nat) : (d.evt k).trg = d.trg := rfl
@[simp] theorem Dev.evt_sad (k : Nat) : (d.evt k).sad = d.sad := rfl
@[simp] theorem Dev.evt_qps (k : Nat) : (d.evt k).qps = d.qps := rfl
@[simp] theorem Dev.evt_lpe (k : Nat) : (d.evt k).lpe = d.lpe := rfl
@[simp] theorem Dev.evt_thm (k : Nat) : (d.evt k).thm = d.thm := rfl
@[simp] theorem Dev.evt_ras (k : Nat) : (d.evt k).ras = d.ras := rfl
@[simp] theorem Dev.evt_mgt (k : Nat) : (d.evt k).mgt = d.mgt := rfl
@[simp] theorem Dev.evt_dbg (k : Nat) : (d.evt k).dbg = d.dbg := rfl

/-! ### An alert -/

@[simp] theorem Dev.alert_beat (b : Nat) : (d.alert b).beat = d.beat := by simp only [Dev.alert]; split <;> rfl
@[simp] theorem Dev.alert_free (b : Nat) : (d.alert b).free = d.free := by simp only [Dev.alert]; split <;> rfl
@[simp] theorem Dev.alert_hi (b : Nat) : (d.alert b).hi = d.hi := by simp only [Dev.alert]; split <;> rfl
@[simp] theorem Dev.alert_snaps (b : Nat) : (d.alert b).snaps = d.snaps := by simp only [Dev.alert]; split <;> rfl
@[simp] theorem Dev.alert_armWrite (b : Nat) : (d.alert b).armWrite = d.armWrite := by simp only [Dev.alert]; split <;> rfl
@[simp] theorem Dev.alert_flashUndef (b : Nat) : (d.alert b).flashUndef = d.flashUndef := by simp only [Dev.alert]; split <;> rfl
@[simp] theorem Dev.alert_out (b : Nat) : (d.alert b).out = d.out := by simp only [Dev.alert]; split <;> rfl
@[simp] theorem Dev.alert_pw (b : Nat) : (d.alert b).pw = d.pw := by simp only [Dev.alert]; split <;> rfl
@[simp] theorem Dev.alert_rst (b : Nat) : (d.alert b).rst = d.rst := by simp only [Dev.alert]; split <;> rfl
@[simp] theorem Dev.alert_boot (b : Nat) : (d.alert b).boot = d.boot := by simp only [Dev.alert]; split <;> rfl
@[simp] theorem Dev.alert_st (b : Nat) : (d.alert b).st = d.st := by simp only [Dev.alert]; split <;> rfl
@[simp] theorem Dev.alert_cad (b : Nat) : (d.alert b).cad = d.cad := by simp only [Dev.alert]; split <;> rfl
@[simp] theorem Dev.alert_sq (b : Nat) : (d.alert b).sq = d.sq := by simp only [Dev.alert]; split <;> rfl
@[simp] theorem Dev.alert_opt (b : Nat) : (d.alert b).opt = d.opt := by simp only [Dev.alert]; split <;> rfl
@[simp] theorem Dev.alert_mem (b : Nat) : (d.alert b).mem = d.mem := by simp only [Dev.alert]; split <;> rfl
@[simp] theorem Dev.alert_hif (b : Nat) : (d.alert b).hif = d.hif := by simp only [Dev.alert]; split <;> rfl
@[simp] theorem Dev.alert_clients (b : Nat) : (d.alert b).clients = d.clients := by simp only [Dev.alert]; split <;> rfl
@[simp] theorem Dev.alert_cal (b : Nat) : (d.alert b).cal = d.cal := by simp only [Dev.alert]; split <;> rfl
@[simp] theorem Dev.alert_ing (b : Nat) : (d.alert b).ing = d.ing := by simp only [Dev.alert]; split <;> rfl
@[simp] theorem Dev.alert_lau (b : Nat) : (d.alert b).lau = d.lau := by simp only [Dev.alert]; split <;> rfl
@[simp] theorem Dev.alert_aet (b : Nat) : (d.alert b).aet = d.aet := by simp only [Dev.alert]; split <;> rfl
@[simp] theorem Dev.alert_trg (b : Nat) : (d.alert b).trg = d.trg := by simp only [Dev.alert]; split <;> rfl
@[simp] theorem Dev.alert_sad (b : Nat) : (d.alert b).sad = d.sad := by simp only [Dev.alert]; split <;> rfl
@[simp] theorem Dev.alert_qps (b : Nat) : (d.alert b).qps = d.qps := by simp only [Dev.alert]; split <;> rfl
@[simp] theorem Dev.alert_lpe (b : Nat) : (d.alert b).lpe = d.lpe := by simp only [Dev.alert]; split <;> rfl
@[simp] theorem Dev.alert_thm (b : Nat) : (d.alert b).thm = d.thm := by simp only [Dev.alert]; split <;> rfl
@[simp] theorem Dev.alert_ras (b : Nat) : (d.alert b).ras = d.ras := by simp only [Dev.alert]; split <;> rfl
@[simp] theorem Dev.alert_mgt (b : Nat) : (d.alert b).mgt = d.mgt := by simp only [Dev.alert]; split <;> rfl
@[simp] theorem Dev.alert_dbg (b : Nat) : (d.alert b).dbg = d.dbg := by simp only [Dev.alert]; split <;> rfl

/-! ### A new entry of the error summary -/

@[simp] theorem Dev.rasWrite_beat (c b k x : Nat) (m : Bool) : (d.rasWrite c b k x m).beat = d.beat := by simp only [Dev.rasWrite]; split <;> simp
@[simp] theorem Dev.rasWrite_free (c b k x : Nat) (m : Bool) : (d.rasWrite c b k x m).free = d.free := by simp only [Dev.rasWrite]; split <;> simp
@[simp] theorem Dev.rasWrite_hi (c b k x : Nat) (m : Bool) : (d.rasWrite c b k x m).hi = d.hi := by simp only [Dev.rasWrite]; split <;> simp
@[simp] theorem Dev.rasWrite_snaps (c b k x : Nat) (m : Bool) : (d.rasWrite c b k x m).snaps = d.snaps := by simp only [Dev.rasWrite]; split <;> simp
@[simp] theorem Dev.rasWrite_armWrite (c b k x : Nat) (m : Bool) : (d.rasWrite c b k x m).armWrite = d.armWrite := by simp only [Dev.rasWrite]; split <;> simp
@[simp] theorem Dev.rasWrite_flashUndef (c b k x : Nat) (m : Bool) : (d.rasWrite c b k x m).flashUndef = d.flashUndef := by simp only [Dev.rasWrite]; split <;> simp
@[simp] theorem Dev.rasWrite_out (c b k x : Nat) (m : Bool) : (d.rasWrite c b k x m).out = d.out := by simp only [Dev.rasWrite]; split <;> simp
@[simp] theorem Dev.rasWrite_pw (c b k x : Nat) (m : Bool) : (d.rasWrite c b k x m).pw = d.pw := by simp only [Dev.rasWrite]; split <;> simp
@[simp] theorem Dev.rasWrite_rst (c b k x : Nat) (m : Bool) : (d.rasWrite c b k x m).rst = d.rst := by simp only [Dev.rasWrite]; split <;> simp
@[simp] theorem Dev.rasWrite_boot (c b k x : Nat) (m : Bool) : (d.rasWrite c b k x m).boot = d.boot := by simp only [Dev.rasWrite]; split <;> simp
@[simp] theorem Dev.rasWrite_st (c b k x : Nat) (m : Bool) : (d.rasWrite c b k x m).st = d.st := by simp only [Dev.rasWrite]; split <;> simp
@[simp] theorem Dev.rasWrite_cad (c b k x : Nat) (m : Bool) : (d.rasWrite c b k x m).cad = d.cad := by simp only [Dev.rasWrite]; split <;> simp
@[simp] theorem Dev.rasWrite_sq (c b k x : Nat) (m : Bool) : (d.rasWrite c b k x m).sq = d.sq := by simp only [Dev.rasWrite]; split <;> simp
@[simp] theorem Dev.rasWrite_opt (c b k x : Nat) (m : Bool) : (d.rasWrite c b k x m).opt = d.opt := by simp only [Dev.rasWrite]; split <;> simp
@[simp] theorem Dev.rasWrite_mem (c b k x : Nat) (m : Bool) : (d.rasWrite c b k x m).mem = d.mem := by simp only [Dev.rasWrite]; split <;> simp
@[simp] theorem Dev.rasWrite_clients (c b k x : Nat) (m : Bool) : (d.rasWrite c b k x m).clients = d.clients := by simp only [Dev.rasWrite]; split <;> simp
@[simp] theorem Dev.rasWrite_cal (c b k x : Nat) (m : Bool) : (d.rasWrite c b k x m).cal = d.cal := by simp only [Dev.rasWrite]; split <;> simp
@[simp] theorem Dev.rasWrite_ing (c b k x : Nat) (m : Bool) : (d.rasWrite c b k x m).ing = d.ing := by simp only [Dev.rasWrite]; split <;> simp
@[simp] theorem Dev.rasWrite_lau (c b k x : Nat) (m : Bool) : (d.rasWrite c b k x m).lau = d.lau := by simp only [Dev.rasWrite]; split <;> simp
@[simp] theorem Dev.rasWrite_aet (c b k x : Nat) (m : Bool) : (d.rasWrite c b k x m).aet = d.aet := by simp only [Dev.rasWrite]; split <;> simp
@[simp] theorem Dev.rasWrite_trg (c b k x : Nat) (m : Bool) : (d.rasWrite c b k x m).trg = d.trg := by simp only [Dev.rasWrite]; split <;> simp
@[simp] theorem Dev.rasWrite_sad (c b k x : Nat) (m : Bool) : (d.rasWrite c b k x m).sad = d.sad := by simp only [Dev.rasWrite]; split <;> simp
@[simp] theorem Dev.rasWrite_qps (c b k x : Nat) (m : Bool) : (d.rasWrite c b k x m).qps = d.qps := by simp only [Dev.rasWrite]; split <;> simp
@[simp] theorem Dev.rasWrite_lpe (c b k x : Nat) (m : Bool) : (d.rasWrite c b k x m).lpe = d.lpe := by simp only [Dev.rasWrite]; split <;> simp
@[simp] theorem Dev.rasWrite_thm (c b k x : Nat) (m : Bool) : (d.rasWrite c b k x m).thm = d.thm := by simp only [Dev.rasWrite]; split <;> simp
@[simp] theorem Dev.rasWrite_mgt (c b k x : Nat) (m : Bool) : (d.rasWrite c b k x m).mgt = d.mgt := by simp only [Dev.rasWrite]; split <;> simp
@[simp] theorem Dev.rasWrite_dbg (c b k x : Nat) (m : Bool) : (d.rasWrite c b k x m).dbg = d.dbg := by simp only [Dev.rasWrite]; split <;> simp

/-! ### An event of the error summary -/

@[simp] theorem Dev.rasEvent_beat (c b k x : Nat) (m : Bool) : (d.rasEvent c b k x m).beat = d.beat := by simp only [Dev.rasEvent]; (repeat' split) <;> simp
@[simp] theorem Dev.rasEvent_free (c b k x : Nat) (m : Bool) : (d.rasEvent c b k x m).free = d.free := by simp only [Dev.rasEvent]; (repeat' split) <;> simp
@[simp] theorem Dev.rasEvent_hi (c b k x : Nat) (m : Bool) : (d.rasEvent c b k x m).hi = d.hi := by simp only [Dev.rasEvent]; (repeat' split) <;> simp
@[simp] theorem Dev.rasEvent_snaps (c b k x : Nat) (m : Bool) : (d.rasEvent c b k x m).snaps = d.snaps := by simp only [Dev.rasEvent]; (repeat' split) <;> simp
@[simp] theorem Dev.rasEvent_armWrite (c b k x : Nat) (m : Bool) : (d.rasEvent c b k x m).armWrite = d.armWrite := by simp only [Dev.rasEvent]; (repeat' split) <;> simp
@[simp] theorem Dev.rasEvent_flashUndef (c b k x : Nat) (m : Bool) : (d.rasEvent c b k x m).flashUndef = d.flashUndef := by simp only [Dev.rasEvent]; (repeat' split) <;> simp
@[simp] theorem Dev.rasEvent_out (c b k x : Nat) (m : Bool) : (d.rasEvent c b k x m).out = d.out := by simp only [Dev.rasEvent]; (repeat' split) <;> simp
@[simp] theorem Dev.rasEvent_pw (c b k x : Nat) (m : Bool) : (d.rasEvent c b k x m).pw = d.pw := by simp only [Dev.rasEvent]; (repeat' split) <;> simp
@[simp] theorem Dev.rasEvent_rst (c b k x : Nat) (m : Bool) : (d.rasEvent c b k x m).rst = d.rst := by simp only [Dev.rasEvent]; (repeat' split) <;> simp
@[simp] theorem Dev.rasEvent_boot (c b k x : Nat) (m : Bool) : (d.rasEvent c b k x m).boot = d.boot := by simp only [Dev.rasEvent]; (repeat' split) <;> simp
@[simp] theorem Dev.rasEvent_st (c b k x : Nat) (m : Bool) : (d.rasEvent c b k x m).st = d.st := by simp only [Dev.rasEvent]; (repeat' split) <;> simp
@[simp] theorem Dev.rasEvent_cad (c b k x : Nat) (m : Bool) : (d.rasEvent c b k x m).cad = d.cad := by simp only [Dev.rasEvent]; (repeat' split) <;> simp
@[simp] theorem Dev.rasEvent_sq (c b k x : Nat) (m : Bool) : (d.rasEvent c b k x m).sq = d.sq := by simp only [Dev.rasEvent]; (repeat' split) <;> simp
@[simp] theorem Dev.rasEvent_opt (c b k x : Nat) (m : Bool) : (d.rasEvent c b k x m).opt = d.opt := by simp only [Dev.rasEvent]; (repeat' split) <;> simp
@[simp] theorem Dev.rasEvent_mem (c b k x : Nat) (m : Bool) : (d.rasEvent c b k x m).mem = d.mem := by simp only [Dev.rasEvent]; (repeat' split) <;> simp
@[simp] theorem Dev.rasEvent_clients (c b k x : Nat) (m : Bool) : (d.rasEvent c b k x m).clients = d.clients := by simp only [Dev.rasEvent]; (repeat' split) <;> simp
@[simp] theorem Dev.rasEvent_cal (c b k x : Nat) (m : Bool) : (d.rasEvent c b k x m).cal = d.cal := by simp only [Dev.rasEvent]; (repeat' split) <;> simp
@[simp] theorem Dev.rasEvent_ing (c b k x : Nat) (m : Bool) : (d.rasEvent c b k x m).ing = d.ing := by simp only [Dev.rasEvent]; (repeat' split) <;> simp
@[simp] theorem Dev.rasEvent_lau (c b k x : Nat) (m : Bool) : (d.rasEvent c b k x m).lau = d.lau := by simp only [Dev.rasEvent]; (repeat' split) <;> simp
@[simp] theorem Dev.rasEvent_aet (c b k x : Nat) (m : Bool) : (d.rasEvent c b k x m).aet = d.aet := by simp only [Dev.rasEvent]; (repeat' split) <;> simp
@[simp] theorem Dev.rasEvent_trg (c b k x : Nat) (m : Bool) : (d.rasEvent c b k x m).trg = d.trg := by simp only [Dev.rasEvent]; (repeat' split) <;> simp
@[simp] theorem Dev.rasEvent_sad (c b k x : Nat) (m : Bool) : (d.rasEvent c b k x m).sad = d.sad := by simp only [Dev.rasEvent]; (repeat' split) <;> simp
@[simp] theorem Dev.rasEvent_qps (c b k x : Nat) (m : Bool) : (d.rasEvent c b k x m).qps = d.qps := by simp only [Dev.rasEvent]; (repeat' split) <;> simp
@[simp] theorem Dev.rasEvent_lpe (c b k x : Nat) (m : Bool) : (d.rasEvent c b k x m).lpe = d.lpe := by simp only [Dev.rasEvent]; (repeat' split) <;> simp
@[simp] theorem Dev.rasEvent_thm (c b k x : Nat) (m : Bool) : (d.rasEvent c b k x m).thm = d.thm := by simp only [Dev.rasEvent]; (repeat' split) <;> simp
@[simp] theorem Dev.rasEvent_mgt (c b k x : Nat) (m : Bool) : (d.rasEvent c b k x m).mgt = d.mgt := by simp only [Dev.rasEvent]; (repeat' split) <;> simp
@[simp] theorem Dev.rasEvent_dbg (c b k x : Nat) (m : Bool) : (d.rasEvent c b k x m).dbg = d.dbg := by simp only [Dev.rasEvent]; (repeat' split) <;> simp

/-! ### An access error -/

@[simp] theorem Dev.accessError_beat (c a : Nat) : (d.accessError c a).beat = d.beat := by simp [Dev.accessError]
@[simp] theorem Dev.accessError_free (c a : Nat) : (d.accessError c a).free = d.free := by simp [Dev.accessError]
@[simp] theorem Dev.accessError_hi (c a : Nat) : (d.accessError c a).hi = d.hi := by simp [Dev.accessError]
@[simp] theorem Dev.accessError_snaps (c a : Nat) : (d.accessError c a).snaps = d.snaps := by simp [Dev.accessError]
@[simp] theorem Dev.accessError_armWrite (c a : Nat) : (d.accessError c a).armWrite = d.armWrite := by simp [Dev.accessError]
@[simp] theorem Dev.accessError_flashUndef (c a : Nat) : (d.accessError c a).flashUndef = d.flashUndef := by simp [Dev.accessError]
@[simp] theorem Dev.accessError_out (c a : Nat) : (d.accessError c a).out = d.out := by simp [Dev.accessError]
@[simp] theorem Dev.accessError_pw (c a : Nat) : (d.accessError c a).pw = d.pw := by simp [Dev.accessError]
@[simp] theorem Dev.accessError_rst (c a : Nat) : (d.accessError c a).rst = d.rst := by simp [Dev.accessError]
@[simp] theorem Dev.accessError_boot (c a : Nat) : (d.accessError c a).boot = d.boot := by simp [Dev.accessError]
@[simp] theorem Dev.accessError_st (c a : Nat) : (d.accessError c a).st = d.st := by simp [Dev.accessError]
@[simp] theorem Dev.accessError_cad (c a : Nat) : (d.accessError c a).cad = d.cad := by simp [Dev.accessError]
@[simp] theorem Dev.accessError_sq (c a : Nat) : (d.accessError c a).sq = d.sq := by simp [Dev.accessError]
@[simp] theorem Dev.accessError_opt (c a : Nat) : (d.accessError c a).opt = d.opt := by simp [Dev.accessError]
@[simp] theorem Dev.accessError_mem (c a : Nat) : (d.accessError c a).mem = d.mem := by simp [Dev.accessError]
@[simp] theorem Dev.accessError_clients (c a : Nat) : (d.accessError c a).clients = d.clients := by simp [Dev.accessError]
@[simp] theorem Dev.accessError_cal (c a : Nat) : (d.accessError c a).cal = d.cal := by simp [Dev.accessError]
@[simp] theorem Dev.accessError_ing (c a : Nat) : (d.accessError c a).ing = d.ing := by simp [Dev.accessError]
@[simp] theorem Dev.accessError_lau (c a : Nat) : (d.accessError c a).lau = d.lau := by simp [Dev.accessError]
@[simp] theorem Dev.accessError_aet (c a : Nat) : (d.accessError c a).aet = d.aet := by simp [Dev.accessError]
@[simp] theorem Dev.accessError_trg (c a : Nat) : (d.accessError c a).trg = d.trg := by simp [Dev.accessError]
@[simp] theorem Dev.accessError_sad (c a : Nat) : (d.accessError c a).sad = d.sad := by simp [Dev.accessError]
@[simp] theorem Dev.accessError_qps (c a : Nat) : (d.accessError c a).qps = d.qps := by simp [Dev.accessError]
@[simp] theorem Dev.accessError_lpe (c a : Nat) : (d.accessError c a).lpe = d.lpe := by simp [Dev.accessError]
@[simp] theorem Dev.accessError_thm (c a : Nat) : (d.accessError c a).thm = d.thm := by simp [Dev.accessError]
@[simp] theorem Dev.accessError_mgt (c a : Nat) : (d.accessError c a).mgt = d.mgt := by simp [Dev.accessError]
@[simp] theorem Dev.accessError_dbg (c a : Nat) : (d.accessError c a).dbg = d.dbg := by simp [Dev.accessError]

/-! ### A protection violation -/

@[simp] theorem Dev.protection_beat (c a : Nat) : (d.protection c a).beat = d.beat := by simp [Dev.protection]
@[simp] theorem Dev.protection_free (c a : Nat) : (d.protection c a).free = d.free := by simp [Dev.protection]
@[simp] theorem Dev.protection_hi (c a : Nat) : (d.protection c a).hi = d.hi := by simp [Dev.protection]
@[simp] theorem Dev.protection_snaps (c a : Nat) : (d.protection c a).snaps = d.snaps := by simp [Dev.protection]
@[simp] theorem Dev.protection_armWrite (c a : Nat) : (d.protection c a).armWrite = d.armWrite := by simp [Dev.protection]
@[simp] theorem Dev.protection_flashUndef (c a : Nat) : (d.protection c a).flashUndef = d.flashUndef := by simp [Dev.protection]
@[simp] theorem Dev.protection_out (c a : Nat) : (d.protection c a).out = d.out := by simp [Dev.protection]
@[simp] theorem Dev.protection_pw (c a : Nat) : (d.protection c a).pw = d.pw := by simp [Dev.protection]
@[simp] theorem Dev.protection_rst (c a : Nat) : (d.protection c a).rst = d.rst := by simp [Dev.protection]
@[simp] theorem Dev.protection_boot (c a : Nat) : (d.protection c a).boot = d.boot := by simp [Dev.protection]
@[simp] theorem Dev.protection_st (c a : Nat) : (d.protection c a).st = d.st := by simp [Dev.protection]
@[simp] theorem Dev.protection_cad (c a : Nat) : (d.protection c a).cad = d.cad := by simp [Dev.protection]
@[simp] theorem Dev.protection_sq (c a : Nat) : (d.protection c a).sq = d.sq := by simp [Dev.protection]
@[simp] theorem Dev.protection_opt (c a : Nat) : (d.protection c a).opt = d.opt := by simp [Dev.protection]
@[simp] theorem Dev.protection_mem (c a : Nat) : (d.protection c a).mem = d.mem := by simp [Dev.protection]
@[simp] theorem Dev.protection_clients (c a : Nat) : (d.protection c a).clients = d.clients := by simp [Dev.protection]
@[simp] theorem Dev.protection_cal (c a : Nat) : (d.protection c a).cal = d.cal := by simp [Dev.protection]
@[simp] theorem Dev.protection_ing (c a : Nat) : (d.protection c a).ing = d.ing := by simp [Dev.protection]
@[simp] theorem Dev.protection_lau (c a : Nat) : (d.protection c a).lau = d.lau := by simp [Dev.protection]
@[simp] theorem Dev.protection_aet (c a : Nat) : (d.protection c a).aet = d.aet := by simp [Dev.protection]
@[simp] theorem Dev.protection_trg (c a : Nat) : (d.protection c a).trg = d.trg := by simp [Dev.protection]
@[simp] theorem Dev.protection_sad (c a : Nat) : (d.protection c a).sad = d.sad := by simp [Dev.protection]
@[simp] theorem Dev.protection_qps (c a : Nat) : (d.protection c a).qps = d.qps := by simp [Dev.protection]
@[simp] theorem Dev.protection_lpe (c a : Nat) : (d.protection c a).lpe = d.lpe := by simp [Dev.protection]
@[simp] theorem Dev.protection_thm (c a : Nat) : (d.protection c a).thm = d.thm := by simp [Dev.protection]
@[simp] theorem Dev.protection_mgt (c a : Nat) : (d.protection c a).mgt = d.mgt := by simp [Dev.protection]
@[simp] theorem Dev.protection_dbg (c a : Nat) : (d.protection c a).dbg = d.dbg := by simp [Dev.protection]

/-! ### An entry of the Cadence log -/

@[simp] theorem Dev.cadLog_beat (k r i a : Nat) : (d.cadLog k r i a).beat = d.beat := by simp only [Dev.cadLog]; split <;> simp
@[simp] theorem Dev.cadLog_free (k r i a : Nat) : (d.cadLog k r i a).free = d.free := by simp only [Dev.cadLog]; split <;> simp
@[simp] theorem Dev.cadLog_hi (k r i a : Nat) : (d.cadLog k r i a).hi = d.hi := by simp only [Dev.cadLog]; split <;> simp
@[simp] theorem Dev.cadLog_snaps (k r i a : Nat) : (d.cadLog k r i a).snaps = d.snaps := by simp only [Dev.cadLog]; split <;> simp
@[simp] theorem Dev.cadLog_armWrite (k r i a : Nat) : (d.cadLog k r i a).armWrite = d.armWrite := by simp only [Dev.cadLog]; split <;> simp
@[simp] theorem Dev.cadLog_flashUndef (k r i a : Nat) : (d.cadLog k r i a).flashUndef = d.flashUndef := by simp only [Dev.cadLog]; split <;> simp
@[simp] theorem Dev.cadLog_out (k r i a : Nat) : (d.cadLog k r i a).out = d.out := by simp only [Dev.cadLog]; split <;> simp
@[simp] theorem Dev.cadLog_pw (k r i a : Nat) : (d.cadLog k r i a).pw = d.pw := by simp only [Dev.cadLog]; split <;> simp
@[simp] theorem Dev.cadLog_rst (k r i a : Nat) : (d.cadLog k r i a).rst = d.rst := by simp only [Dev.cadLog]; split <;> simp
@[simp] theorem Dev.cadLog_boot (k r i a : Nat) : (d.cadLog k r i a).boot = d.boot := by simp only [Dev.cadLog]; split <;> simp
@[simp] theorem Dev.cadLog_st (k r i a : Nat) : (d.cadLog k r i a).st = d.st := by simp only [Dev.cadLog]; split <;> simp
@[simp] theorem Dev.cadLog_cad (k r i a : Nat) : (d.cadLog k r i a).cad = d.cad := by simp only [Dev.cadLog]; split <;> simp
@[simp] theorem Dev.cadLog_sq (k r i a : Nat) : (d.cadLog k r i a).sq = d.sq := by simp only [Dev.cadLog]; split <;> simp
@[simp] theorem Dev.cadLog_opt (k r i a : Nat) : (d.cadLog k r i a).opt = d.opt := by simp only [Dev.cadLog]; split <;> simp
@[simp] theorem Dev.cadLog_mem (k r i a : Nat) : (d.cadLog k r i a).mem = d.mem := by simp only [Dev.cadLog]; split <;> simp
@[simp] theorem Dev.cadLog_clients (k r i a : Nat) : (d.cadLog k r i a).clients = d.clients := by simp only [Dev.cadLog]; split <;> simp
@[simp] theorem Dev.cadLog_cal (k r i a : Nat) : (d.cadLog k r i a).cal = d.cal := by simp only [Dev.cadLog]; split <;> simp
@[simp] theorem Dev.cadLog_ing (k r i a : Nat) : (d.cadLog k r i a).ing = d.ing := by simp only [Dev.cadLog]; split <;> simp
@[simp] theorem Dev.cadLog_lau (k r i a : Nat) : (d.cadLog k r i a).lau = d.lau := by simp only [Dev.cadLog]; split <;> simp
@[simp] theorem Dev.cadLog_aet (k r i a : Nat) : (d.cadLog k r i a).aet = d.aet := by simp only [Dev.cadLog]; split <;> simp
@[simp] theorem Dev.cadLog_trg (k r i a : Nat) : (d.cadLog k r i a).trg = d.trg := by simp only [Dev.cadLog]; split <;> simp
@[simp] theorem Dev.cadLog_sad (k r i a : Nat) : (d.cadLog k r i a).sad = d.sad := by simp only [Dev.cadLog]; split <;> simp
@[simp] theorem Dev.cadLog_qps (k r i a : Nat) : (d.cadLog k r i a).qps = d.qps := by simp only [Dev.cadLog]; split <;> simp
@[simp] theorem Dev.cadLog_lpe (k r i a : Nat) : (d.cadLog k r i a).lpe = d.lpe := by simp only [Dev.cadLog]; split <;> simp
@[simp] theorem Dev.cadLog_thm (k r i a : Nat) : (d.cadLog k r i a).thm = d.thm := by simp only [Dev.cadLog]; split <;> simp
@[simp] theorem Dev.cadLog_ras (k r i a : Nat) : (d.cadLog k r i a).ras = d.ras := by simp only [Dev.cadLog]; split <;> simp
@[simp] theorem Dev.cadLog_mgt (k r i a : Nat) : (d.cadLog k r i a).mgt = d.mgt := by simp only [Dev.cadLog]; split <;> simp
@[simp] theorem Dev.cadLog_dbg (k r i a : Nat) : (d.cadLog k r i a).dbg = d.dbg := by simp only [Dev.cadLog]; split <;> simp

/-! ### A function's configuration -/

@[simp] theorem Dev.setFn_beat (f : Nat) (x : Fn) : (d.setFn f x).beat = d.beat := rfl
@[simp] theorem Dev.setFn_free (f : Nat) (x : Fn) : (d.setFn f x).free = d.free := rfl
@[simp] theorem Dev.setFn_regs (f : Nat) (x : Fn) : (d.setFn f x).regs = d.regs := rfl
@[simp] theorem Dev.setFn_hi (f : Nat) (x : Fn) : (d.setFn f x).hi = d.hi := rfl
@[simp] theorem Dev.setFn_snaps (f : Nat) (x : Fn) : (d.setFn f x).snaps = d.snaps := rfl
@[simp] theorem Dev.setFn_armWrite (f : Nat) (x : Fn) : (d.setFn f x).armWrite = d.armWrite := rfl
@[simp] theorem Dev.setFn_flashUndef (f : Nat) (x : Fn) : (d.setFn f x).flashUndef = d.flashUndef := rfl
@[simp] theorem Dev.setFn_out (f : Nat) (x : Fn) : (d.setFn f x).out = d.out := rfl
@[simp] theorem Dev.setFn_pw (f : Nat) (x : Fn) : (d.setFn f x).pw = d.pw := rfl
@[simp] theorem Dev.setFn_rst (f : Nat) (x : Fn) : (d.setFn f x).rst = d.rst := rfl
@[simp] theorem Dev.setFn_boot (f : Nat) (x : Fn) : (d.setFn f x).boot = d.boot := rfl
@[simp] theorem Dev.setFn_st (f : Nat) (x : Fn) : (d.setFn f x).st = d.st := rfl
@[simp] theorem Dev.setFn_cad (f : Nat) (x : Fn) : (d.setFn f x).cad = d.cad := rfl
@[simp] theorem Dev.setFn_sq (f : Nat) (x : Fn) : (d.setFn f x).sq = d.sq := rfl
@[simp] theorem Dev.setFn_opt (f : Nat) (x : Fn) : (d.setFn f x).opt = d.opt := rfl
@[simp] theorem Dev.setFn_mem (f : Nat) (x : Fn) : (d.setFn f x).mem = d.mem := rfl
@[simp] theorem Dev.setFn_clients (f : Nat) (x : Fn) : (d.setFn f x).clients = d.clients := rfl
@[simp] theorem Dev.setFn_cal (f : Nat) (x : Fn) : (d.setFn f x).cal = d.cal := rfl
@[simp] theorem Dev.setFn_ing (f : Nat) (x : Fn) : (d.setFn f x).ing = d.ing := rfl
@[simp] theorem Dev.setFn_lau (f : Nat) (x : Fn) : (d.setFn f x).lau = d.lau := rfl
@[simp] theorem Dev.setFn_aet (f : Nat) (x : Fn) : (d.setFn f x).aet = d.aet := rfl
@[simp] theorem Dev.setFn_trg (f : Nat) (x : Fn) : (d.setFn f x).trg = d.trg := rfl
@[simp] theorem Dev.setFn_sad (f : Nat) (x : Fn) : (d.setFn f x).sad = d.sad := rfl
@[simp] theorem Dev.setFn_qps (f : Nat) (x : Fn) : (d.setFn f x).qps = d.qps := rfl
@[simp] theorem Dev.setFn_lpe (f : Nat) (x : Fn) : (d.setFn f x).lpe = d.lpe := rfl
@[simp] theorem Dev.setFn_thm (f : Nat) (x : Fn) : (d.setFn f x).thm = d.thm := rfl
@[simp] theorem Dev.setFn_ras (f : Nat) (x : Fn) : (d.setFn f x).ras = d.ras := rfl
@[simp] theorem Dev.setFn_mgt (f : Nat) (x : Fn) : (d.setFn f x).mgt = d.mgt := rfl
@[simp] theorem Dev.setFn_dbg (f : Nat) (x : Fn) : (d.setFn f x).dbg = d.dbg := rfl

/-! ### The rings of a client -/

@[simp] theorem Dev.setClient_beat (c : Nat) (x : Client) : (d.setClient c x).beat = d.beat := rfl
@[simp] theorem Dev.setClient_free (c : Nat) (x : Client) : (d.setClient c x).free = d.free := rfl
@[simp] theorem Dev.setClient_regs (c : Nat) (x : Client) : (d.setClient c x).regs = d.regs := rfl
@[simp] theorem Dev.setClient_hi (c : Nat) (x : Client) : (d.setClient c x).hi = d.hi := rfl
@[simp] theorem Dev.setClient_snaps (c : Nat) (x : Client) : (d.setClient c x).snaps = d.snaps := rfl
@[simp] theorem Dev.setClient_armWrite (c : Nat) (x : Client) : (d.setClient c x).armWrite = d.armWrite := rfl
@[simp] theorem Dev.setClient_flashUndef (c : Nat) (x : Client) : (d.setClient c x).flashUndef = d.flashUndef := rfl
@[simp] theorem Dev.setClient_out (c : Nat) (x : Client) : (d.setClient c x).out = d.out := rfl
@[simp] theorem Dev.setClient_pw (c : Nat) (x : Client) : (d.setClient c x).pw = d.pw := rfl
@[simp] theorem Dev.setClient_rst (c : Nat) (x : Client) : (d.setClient c x).rst = d.rst := rfl
@[simp] theorem Dev.setClient_boot (c : Nat) (x : Client) : (d.setClient c x).boot = d.boot := rfl
@[simp] theorem Dev.setClient_st (c : Nat) (x : Client) : (d.setClient c x).st = d.st := rfl
@[simp] theorem Dev.setClient_cad (c : Nat) (x : Client) : (d.setClient c x).cad = d.cad := rfl
@[simp] theorem Dev.setClient_sq (c : Nat) (x : Client) : (d.setClient c x).sq = d.sq := rfl
@[simp] theorem Dev.setClient_opt (c : Nat) (x : Client) : (d.setClient c x).opt = d.opt := rfl
@[simp] theorem Dev.setClient_mem (c : Nat) (x : Client) : (d.setClient c x).mem = d.mem := rfl
@[simp] theorem Dev.setClient_hif (c : Nat) (x : Client) : (d.setClient c x).hif = d.hif := rfl
@[simp] theorem Dev.setClient_cal (c : Nat) (x : Client) : (d.setClient c x).cal = d.cal := rfl
@[simp] theorem Dev.setClient_ing (c : Nat) (x : Client) : (d.setClient c x).ing = d.ing := rfl
@[simp] theorem Dev.setClient_lau (c : Nat) (x : Client) : (d.setClient c x).lau = d.lau := rfl
@[simp] theorem Dev.setClient_aet (c : Nat) (x : Client) : (d.setClient c x).aet = d.aet := rfl
@[simp] theorem Dev.setClient_trg (c : Nat) (x : Client) : (d.setClient c x).trg = d.trg := rfl
@[simp] theorem Dev.setClient_sad (c : Nat) (x : Client) : (d.setClient c x).sad = d.sad := rfl
@[simp] theorem Dev.setClient_qps (c : Nat) (x : Client) : (d.setClient c x).qps = d.qps := rfl
@[simp] theorem Dev.setClient_lpe (c : Nat) (x : Client) : (d.setClient c x).lpe = d.lpe := rfl
@[simp] theorem Dev.setClient_thm (c : Nat) (x : Client) : (d.setClient c x).thm = d.thm := rfl
@[simp] theorem Dev.setClient_ras (c : Nat) (x : Client) : (d.setClient c x).ras = d.ras := rfl
@[simp] theorem Dev.setClient_mgt (c : Nat) (x : Client) : (d.setClient c x).mgt = d.mgt := rfl
@[simp] theorem Dev.setClient_dbg (c : Nat) (x : Client) : (d.setClient c x).dbg = d.dbg := rfl

end Sys2Proof.Machine
end

