-- ==== Sys2Proof/Laws/Ops.lean ====
section
/-!
SUPPORT. What each shared operation can do: the three forms of a meaning, register reads after writes, the error
summary, the Cadence log and gated register writes.
-/

namespace Sys2Proof.Machine

/-! ### The forms of a meaning -/

@[simp] theorem onDev_eq (f : Dev → Dev) (s : State) : onDev f s = .next { s with dev := f s.dev } := rfl

@[simp] theorem onDevNv_eq (f : Nv → Dev → Dev) (s : State) : onDevNv f s = .next { s with dev := f s.nv s.dev } := rfl

@[simp] theorem onAll_eq (f : Nv → Dev → Nv × Dev) (s : State) :
    onAll f s = .next { s with nv := (f s.nv s.dev).1, dev := (f s.nv s.dev).2 } := rfl

@[simp] theorem unit_true (k : Host.Outcome State Fault Refusal) : unit true k = k := rfl

@[simp] theorem unit_false (k : Host.Outcome State Fault Refusal) : unit false k = .fault .noSuchUnit := rfl

/-- A command that changes the device alone gives what its device function gives. -/
theorem Gives.of_onDev {c : Instr} {s : State} {P : Dev → Prop} (f : Dev → Dev) (h : exec c s = onDev f s)
    (hp : P (f s.dev)) : Gives c s P := ⟨f s.dev, h, hp⟩

theorem Gives.of_unit {c : Instr} {s : State} {P : Dev → Prop} {ok : Bool} (f : Dev → Dev)
    (h : exec c s = unit ok (onDev f s)) (ho : ok = true) (hp : P (f s.dev)) : Gives c s P :=
  ⟨f s.dev, by rw [h, ho]; rfl, hp⟩

theorem Gives.of_onDevNv {c : Instr} {s : State} {P : Dev → Prop} (f : Nv → Dev → Dev) (h : exec c s = onDevNv f s)
    (hp : P (f s.nv s.dev)) : Gives c s P := ⟨f s.nv s.dev, h, hp⟩

theorem GivesNv.of_onAll {c : Instr} {s : State} {P : Nv → Dev → Prop} (f : Nv → Dev → Nv × Dev)
    (h : exec c s = onAll f s) (hp : P (f s.nv s.dev).1 (f s.nv s.dev).2) : GivesNv c s P := ⟨_, _, h, hp⟩

/-! ### Register fields -/

/-- A field reads by its bit address alone. -/
theorem Dev.rdi_def (d : Dev) (f : Fld) (i : Nat) : d.rdi f i = sget f.rst d.regs (f.key i) % 2 ^ f.w := rfl

/-- Devices with the same register table read the same. -/
theorem Dev.rdi_congr {d e : Dev} (h : e.regs = d.regs) (f : Fld) (i : Nat) : e.rdi f i = d.rdi f i := by
  simp [Dev.rdi, h]

theorem Dev.rdi_of_sfind {d e : Dev} {f : Fld} {i : Nat} (h : sfind e.regs (f.key i) = sfind d.regs (f.key i)) :
    e.rdi f i = d.rdi f i := by simp [Dev.rdi, sget, h]

theorem Dev.rdi_lt (d : Dev) (f : Fld) (i : Nat) : d.rdi f i < 2 ^ f.w := Nat.mod_lt _ (Nat.two_pow_pos _)

/-- A field reads back what was written, cut to its width. -/
@[simp] theorem Dev.rdi_wri_same (d : Dev) (f : Fld) (i v : Nat) : (d.wri f i v).rdi f i = v % 2 ^ f.w := by
  simp [Dev.rdi, Dev.wri]

theorem Dev.sfind_wri_ne (d : Dev) {f : Fld} {i k : Nat} (v : Nat) (h : k ≠ f.key i) :
    sfind (d.wri f i v).regs k = sfind d.regs k := sfind_sput_ne _ _ _ h

/-- A write leaves every field at another bit address alone. -/
theorem Dev.rdi_wri_ne (d : Dev) {f g : Fld} {i j : Nat} (v : Nat) (h : g.key j ≠ f.key i) :
    (d.wri f i v).rdi g j = d.rdi g j := Dev.rdi_of_sfind (d.sfind_wri_ne v h)

@[simp] theorem Dev.rdi_emit (d : Dev) (o : Out) (f : Fld) (i : Nat) : (d.emit o).rdi f i = d.rdi f i := rfl
@[simp] theorem Dev.rdi_setFn (d : Dev) (c : Nat) (x : Fn) (f : Fld) (i : Nat) : (d.setFn c x).rdi f i = d.rdi f i := rfl
@[simp] theorem Dev.rdi_setClient (d : Dev) (c : Nat) (x : Client) (f : Fld) (i : Nat) :
    (d.setClient c x).rdi f i = d.rdi f i := rfl

/-! ### Bits of words -/

theorem testBit_putBits_ge (v lo w x i : Nat) (h : lo + w ≤ i) : (putBits v lo w x).testBit i = v.testBit i := by
  have e : putBits v lo w x = 2 ^ (lo + w) * (v >>> (lo + w)) + ((v % 2 ^ lo) + (x % 2 ^ w) * 2 ^ lo) := by
    unfold putBits; ring
  have hlt : v % 2 ^ lo + x % 2 ^ w * 2 ^ lo < 2 ^ (lo + w) := by
    have h1 : v % 2 ^ lo < 2 ^ lo := Nat.mod_lt _ (Nat.two_pow_pos _)
    have h2 : x % 2 ^ w < 2 ^ w := Nat.mod_lt _ (Nat.two_pow_pos _)
    calc v % 2 ^ lo + x % 2 ^ w * 2 ^ lo < 2 ^ lo + x % 2 ^ w * 2 ^ lo := by omega
      _ = (x % 2 ^ w + 1) * 2 ^ lo := by ring
      _ ≤ 2 ^ w * 2 ^ lo := Nat.mul_le_mul_right _ h2
      _ = 2 ^ (lo + w) := by rw [pow_add]; ring
  rw [e, Nat.testBit_two_pow_mul_add _ hlt, if_neg (by omega), Nat.testBit_shiftRight]
  congr 1
  omega

/-! ### Frames of the register table -/

theorem RegsKept.refl (d : Dev) (ks : List Nat) : RegsKept d d ks := fun _ _ => rfl

/-- A write to a listed field keeps a frame. -/
theorem RegsKept.wri {d e : Dev} {ks : List Nat} (h : RegsKept d e ks) {f : Fld} {i : Nat} (v : Nat)
    (hk : f.key i ∈ ks) : RegsKept d (e.wri f i v) ks := fun k hn => by
  rw [Dev.sfind_wri_ne e v (fun he => hn (by rw [he]; exact hk))]; exact h k hn

/-- Only the register table matters to a frame. -/
theorem RegsKept.of_regs {d e e' : Dev} {ks : List Nat} (h : RegsKept d e ks) (he : e'.regs = e.regs) :
    RegsKept d e' ks := fun k hn => by rw [he]; exact h k hn

theorem RegsKept.ras {d e : Dev} {ks : List Nat} (h : RegsKept d e ks) : RegsKeptRas d e ks := fun k hn _ => h k hn

theorem RegsKept.cad {d e : Dev} {ks : List Nat} (h : RegsKept d e ks) : RegsKeptCad d e ks := fun k hn _ => h k hn

theorem RegsKeptRas.wri {d e : Dev} {ks : List Nat} (h : RegsKeptRas d e ks) {f : Fld} {i : Nat} (v : Nat)
    (hk : f.key i ∈ ks) : RegsKeptRas d (e.wri f i v) ks := fun k hn hr => by
  rw [Dev.sfind_wri_ne e v (fun he => hn (by rw [he]; exact hk))]; exact h k hn hr

theorem RegsKeptRas.of_regs {d e e' : Dev} {ks : List Nat} (h : RegsKeptRas d e ks) (he : e'.regs = e.regs) :
    RegsKeptRas d e' ks := fun k hn hr => by rw [he]; exact h k hn hr

theorem RegsKeptCad.wri {d e : Dev} {ks : List Nat} (h : RegsKeptCad d e ks) {f : Fld} {i : Nat} (v : Nat)
    (hk : f.key i ∈ ks) : RegsKeptCad d (e.wri f i v) ks := fun k hn hr => by
  rw [Dev.sfind_wri_ne e v (fun he => hn (by rw [he]; exact hk))]; exact h k hn hr

theorem RegsKeptCad.of_regs {d e e' : Dev} {ks : List Nat} (h : RegsKeptCad d e ks) (he : e'.regs = e.regs) :
    RegsKeptCad d e' ks := fun k hn hr => by rw [he]; exact h k hn hr

/-- A write off the keys of the error summary. -/
theorem Dev.sfind_wri_ras (d : Dev) {f : Fld} {i k : Nat} (v : Nat) (hf : rasKeys (f.key i) = true)
    (h : rasKeys k = false) : sfind (d.wri f i v).regs k = sfind d.regs k :=
  d.sfind_wri_ne v (fun he => by rw [he, hf] at h; exact absurd h (by decide))

theorem Dev.evt_regs (d : Dev) (c : Nat) : (d.evt c).regs = (d.wri R.HIF_EVT_PEND c 1).regs := rfl

/-- A PF event of one of the eight classes changes its own flag alone. -/
theorem Dev.sfind_evt (d : Dev) {c k : Nat} (hc : c < 8) (h : rasKeys k = false) :
    sfind (d.evt c).regs k = sfind d.regs k := by
  rw [Dev.evt_regs]
  refine d.sfind_wri_ras 1 ?_ h
  interval_cases c <;> rfl

theorem Dev.sfind_alert (d : Dev) (b : Nat) {k : Nat} (h : rasKeys k = false) :
    sfind (d.alert b).regs k = sfind d.regs k := by
  unfold Dev.alert
  split
  · exact d.sfind_wri_ras 1 (by decide) h
  · rfl

theorem rasKeys_log {f : Fld} {n : Nat} (hs : f.stride = 128) (hb : 0xa88000 ≤ f.bit ∧ f.bit < 0xa88080) (hn : n < 256) :
    rasKeys (f.key n) = true := by
  simp [rasKeys, Fld.key, hs]; omega

theorem Dev.sfind_rasWrite (d : Dev) (c b cl x : Nat) (m : Bool) {k : Nat} (h : rasKeys k = false) :
    sfind (d.rasWrite c b cl x m).regs k = sfind d.regs k := by
  have hn : d.rdi R.RAS_LOG_WR_NEXT 0 < 256 := d.rdi_lt _ _
  unfold Dev.rasWrite
  extract_lets n
  by_cases hc : (n + 1) % 256 = d.rd R.RAS_LOG_RD
  · rw [if_pos hc]; exact d.sfind_wri_ras _ (by decide) h
  · rw [if_neg hc]
    refine (Dev.sfind_alert _ _ h).trans ((Dev.sfind_evt _ (by decide) h).trans ?_)
    refine (Dev.sfind_wri_ras _ _ (by decide) h).trans ?_
    have hk : ∀ {f : Fld}, f.stride = 128 → (0xa88000 ≤ f.bit ∧ f.bit < 0xa88080) → rasKeys (f.key n) = true :=
      fun hs hb => rasKeys_log hs hb hn
    refine (Dev.sfind_wri_ras _ _ (hk rfl (by decide)) h).trans ?_
    refine (Dev.sfind_wri_ras _ _ (hk rfl (by decide)) h).trans ?_
    refine (Dev.sfind_wri_ras _ _ (hk rfl (by decide)) h).trans ?_
    refine (Dev.sfind_wri_ras _ _ (hk rfl (by decide)) h).trans ?_
    refine (Dev.sfind_wri_ras _ _ (hk rfl (by decide)) h).trans ?_
    exact Dev.sfind_wri_ras _ _ (hk rfl (by decide)) h

/-- An event of the error summary changes no register but those of the error summary and its notices. -/
theorem Dev.sfind_rasEvent (d : Dev) (c b cl x : Nat) (m : Bool) {k : Nat} (h : rasKeys k = false) :
    sfind (d.rasEvent c b cl x m).regs k = sfind d.regs k := by
  unfold Dev.rasEvent
  extract_lets d1 now r d2
  have h0 : sfind d2.regs k = sfind d.regs k := d.sfind_wri_ras _ (by decide) h
  split
  · exact (Dev.sfind_wri_ras _ _ (rasKeys_log rfl (by decide) (Nat.mod_lt _ (by decide))) h).trans h0
  · exact (Dev.sfind_rasWrite _ _ _ _ _ _ h).trans h0

theorem RegsKeptRas.rasEvent {d e : Dev} {ks : List Nat} (h : RegsKeptRas d e ks) (c b cl x : Nat) (m : Bool) :
    RegsKeptRas d (e.rasEvent c b cl x m) ks := fun k hn hr => by rw [Dev.sfind_rasEvent _ _ _ _ _ _ hr]; exact h k hn hr

theorem RegsKeptRas.evt {d e : Dev} {ks : List Nat} (h : RegsKeptRas d e ks) {c : Nat} (hc : c < 8) :
    RegsKeptRas d (e.evt c) ks := fun k hn hr => by rw [Dev.sfind_evt _ hc hr]; exact h k hn hr

theorem RegsKeptRas.alert {d e : Dev} {ks : List Nat} (h : RegsKeptRas d e ks) (b : Nat) :
    RegsKeptRas d (e.alert b) ks := fun k hn hr => by rw [Dev.sfind_alert _ _ hr]; exact h k hn hr

/-- Fields off the error summary read as before after an event. -/
theorem Dev.rdi_rasEvent (d : Dev) (c b cl x : Nat) (m : Bool) {f : Fld} {i : Nat} (h : rasKeys (f.key i) = false) :
    (d.rasEvent c b cl x m).rdi f i = d.rdi f i := Dev.rdi_of_sfind (Dev.sfind_rasEvent _ _ _ _ _ _ h)

theorem Dev.rdi_evt (d : Dev) {c : Nat} (hc : c < 8) {f : Fld} {i : Nat} (h : rasKeys (f.key i) = false) :
    (d.evt c).rdi f i = d.rdi f i := Dev.rdi_of_sfind (Dev.sfind_evt _ hc h)

theorem Dev.rdi_alert (d : Dev) (b : Nat) {f : Fld} {i : Nat} (h : rasKeys (f.key i) = false) :
    (d.alert b).rdi f i = d.rdi f i := Dev.rdi_of_sfind (Dev.sfind_alert _ _ h)

/-- An entry of the Cadence log changes no register but the log's and the PF event flags. -/
theorem Dev.sfind_cadLog (d : Dev) (kd row dir arg : Nat) {k : Nat} (h : cadKeys k = false) :
    sfind (d.cadLog kd row dir arg).regs k = sfind d.regs k := by
  have hn : d.rdi R.CAD_LOG_WR_NEXT 0 < 256 := d.rdi_lt _ _
  have hk : ∀ {f : Fld} {i : Nat} (e : Dev) (v : Nat), cadKeys (f.key i) = true →
      sfind (e.wri f i v).regs k = sfind e.regs k := fun e v hf =>
    e.sfind_wri_ne v (fun he => by rw [he, hf] at h; exact absurd h (by decide))
  have hl : ∀ {f : Fld}, f.stride = 128 → (0x308000 ≤ f.bit ∧ f.bit < 0x308080) →
      cadKeys (f.key (d.rdi R.CAD_LOG_WR_NEXT 0)) = true := fun hs hb => by simp [cadKeys, Fld.key, hs]; omega
  unfold Dev.cadLog
  extract_lets n
  by_cases hc : (n + 1) % 256 = d.rd R.CAD_LOG_RD
  · rw [if_pos hc]; exact hk _ _ (by decide)
  · rw [if_neg hc]
    show sfind ((((((((d.wri R.CAD_LOG_PHASE n d.phase).wri R.CAD_LOG_ROW n row).wri R.CAD_LOG_KIND n kd).wri
      R.CAD_LOG_DIR n dir).wri R.CAD_LOG_ARG n arg).wri R.CAD_LOG_WR_NEXT 0 (n + 1)).wri R.HIF_EVT_PEND 5 1).regs) k = _
    rw [hk (f := R.HIF_EVT_PEND) _ _ (by decide), hk (f := R.CAD_LOG_WR_NEXT) _ _ (by decide),
      hk (f := R.CAD_LOG_ARG) (i := n) _ _ (hl rfl (by decide)), hk (f := R.CAD_LOG_DIR) (i := n) _ _ (hl rfl (by decide)),
      hk (f := R.CAD_LOG_KIND) (i := n) _ _ (hl rfl (by decide)), hk (f := R.CAD_LOG_ROW) (i := n) _ _ (hl rfl (by decide)),
      hk (f := R.CAD_LOG_PHASE) (i := n) _ _ (hl rfl (by decide))]

theorem RegsKeptCad.cadLog {d e : Dev} {ks : List Nat} (h : RegsKeptCad d e ks) (kd row dir arg : Nat) :
    RegsKeptCad d (e.cadLog kd row dir arg) ks := fun k hn hr => by rw [Dev.sfind_cadLog _ _ _ _ _ hr]; exact h k hn hr

theorem Dev.rdi_cadLog (d : Dev) (kd row dir arg : Nat) {f : Fld} {i : Nat} (h : cadKeys (f.key i) = false) :
    (d.cadLog kd row dir arg).rdi f i = d.rdi f i := Dev.rdi_of_sfind (Dev.sfind_cadLog _ _ _ _ _ h)

end Sys2Proof.Machine
end

