-- ==== Sys2Proof/Laws/Mem.lean ====
section
/-!
SUPPORT. The memories keep their canonical form under every operation on them, and State.reset's have it.
-/

namespace Sys2Proof.Machine

/-- Every memory of the block is in its canonical form: rising addresses, and no byte of 0 listed where an unlisted
byte reads as 0. -/
def Mem.canonical (m : Mem) : Bool :=
  Memory.wf 0 m.stg && swf false m.stgMark && Memory.wf 0 m.tileAct && Memory.wf 0 m.tileSby && risingFrom 0 m.t1 &&
    risingFrom 0 m.t2 && risingFrom 0 m.t1Mark && risingFrom 0 m.t2Mark

theorem Mem.canonical_iff (m : Mem) : m.canonical = true ↔ Memory.wf 0 m.stg = true ∧ swf false m.stgMark = true ∧
    Memory.wf 0 m.tileAct = true ∧ Memory.wf 0 m.tileSby = true ∧ risingFrom 0 m.t1 = true ∧ risingFrom 0 m.t2 = true ∧
    risingFrom 0 m.t1Mark = true ∧ risingFrom 0 m.t2Mark = true := by
  simp only [Mem.canonical, Bool.and_eq_true, and_assoc]

theorem State.reset_mem_canonical : State.reset.dev.mem.canonical = true := by decide

theorem Dev.putByte_canonical (d : Dev) (space a b : Nat) (h : d.mem.canonical = true) :
    (d.putByte space a b).mem.canonical = true := by
  rw [Mem.canonical_iff] at *
  obtain ⟨h1, h2, h3, h4, h5, h6, h7, h8⟩ := h
  unfold Dev.putByte
  split
  · split
    · exact ⟨Memory.wf_mput _ _ h1, h2, h3, h4, h5, h6, h7, h8⟩
    · exact ⟨h1, h2, h3, h4, risingFrom_sins h5 (Nat.zero_le _), h6, h7, h8⟩
    · exact ⟨h1, h2, h3, h4, h5, risingFrom_sins h6 (Nat.zero_le _), h7, h8⟩
  · exact ⟨h1, h2, h3, h4, h5, h6, h7, h8⟩

theorem Dev.putBytes_canonical (space : Nat) (bs : List Nat) : ∀ (d : Dev) (a : Nat), d.mem.canonical = true →
    (d.putBytes space a bs).mem.canonical = true := by
  induction bs with
  | nil => exact fun _ _ h => h
  | cons b r ih => exact fun d a h => ih _ _ (d.putByte_canonical space a b h)

theorem Dev.putMarks_canonical (d : Dev) (space a n : Nat) (p : Bool) (h : d.mem.canonical = true) :
    (d.putMarks space a n p).mem.canonical = true := by
  unfold Dev.putMarks
  generalize List.range ((a + n + 63) / 64 - a / 64) = l
  induction l generalizing d with
  | nil => exact h
  | cons i l ih =>
    refine ih _ ?_
    rw [Mem.canonical_iff] at *
    obtain ⟨h1, h2, h3, h4, h5, h6, h7, h8⟩ := h
    dsimp only
    split
    · exact ⟨h1, swf_sput h2, h3, h4, h5, h6, h7, h8⟩
    · exact ⟨h1, h2, h3, h4, h5, h6, risingFrom_sins h7 (Nat.zero_le _), h8⟩
    · exact ⟨h1, h2, h3, h4, h5, h6, h7, risingFrom_sins h8 (Nat.zero_le _)⟩

/-- A store keeps the canonical form. -/
theorem Dev.store_canonical (d : Dev) (space a : Nat) (bs : List Nat) (poison : Bool) (h : d.mem.canonical = true) :
    (d.store space a bs poison).mem.canonical = true := by
  have h' := Dev.putMarks_canonical _ space a bs.length poison (Dev.putBytes_canonical space bs d a h)
  simp only [Dev.store]
  split
  · exact h'
  · exact h'

theorem Dev.stgZero_canonical (d : Dev) (a n : Nat) (h : d.mem.canonical = true) :
    (d.stgZero a n).mem.canonical = true := by
  rw [Mem.canonical_iff] at *
  obtain ⟨h1, h2, h3, h4, h5, h6, h7, h8⟩ := h
  exact ⟨Memory.wf_mclear _ _ h1, by simpa only [Dev.stgZero] using swf_skeep _ h2, h3, h4, h5, h6, h7, h8⟩

/-- Writing a byte changes memory alone. -/
theorem Dev.putByte_outside (d : Dev) (space a b : Nat) : (d.putByte space a b) =
    { d with mem := (d.putByte space a b).mem } := by
  unfold Dev.putByte
  split
  · split <;> rfl
  · rfl

/-- Writing bytes changes memory alone. -/
theorem Dev.putBytes_outside (space : Nat) (bs : List Nat) : ∀ (d : Dev) (a : Nat),
    ∃ m, d.putBytes space a bs = { d with mem := m } := by
  induction bs with
  | nil => exact fun d _ => ⟨d.mem, rfl⟩
  | cons b r ih =>
    intro d a
    obtain ⟨m, hm⟩ := ih (d.putByte space a b) (a + 1)
    refine ⟨m, hm.trans ?_⟩
    rw [d.putByte_outside space a b]

/-- A byte written where its memory works reads back. -/
theorem Dev.memByte_putByte_same (d : Dev) (space a b : Nat) (hs : space < 3) (hw : d.byteWorks space a = true)
    (hb : b < 256) : (d.putByte space a b).memByte space a = b := by
  have hb' : b % 256 = b := Nat.mod_eq_of_lt hb
  interval_cases space <;> simp [Dev.putByte, hw, Dev.memByte, hb']

/-- It leaves every other byte of the three spaces alone. -/
theorem Dev.memByte_putByte_ne (d : Dev) (space sp a b j : Nat) (hs : space < 3) (hp : sp < 3) (h : sp ≠ space ∨ j ≠ a) :
    (d.putByte space a b).memByte sp j = d.memByte sp j := by
  unfold Dev.putByte
  split
  · interval_cases space <;> interval_cases sp <;> simp at h <;>
      simp [Dev.memByte, mget_mput_ne, sfind_sins_ne, h]
  · rfl

end Sys2Proof.Machine
end

