-- ==== Sys2Proof/Laws/PerInstr.lean ====
section
/-!
SUPPORT. The family Wf: a well-formed command names only units that the block has. One lemma for each constructor.
-/

namespace Sys2Proof.Laws.Wf

/-- A well-formed command names only units of the block. -/
def Statement (i : Instr) : Prop := i.wf = true → i.unitOk = true

/-- Well-formedness includes that the named units exist. -/
theorem of_wf (i : Instr) : Statement i := fun h => (Bool.and_eq_true _ _ ▸ h).1

theorem vauxValid : Statement (.vauxValid) := of_wf _
theorem vauxLoss : Statement (.vauxLoss) := of_wf _
theorem vin12Valid : Statement (.vin12Valid) := of_wf _
theorem brownOut : Statement (.brownOut) := of_wf _
theorem inputOc : Statement (.inputOc) := of_wf _
theorem railRampDone (rail : Nat) : Statement (.railRampDone rail) := of_wf _
theorem start (rail : Nat) : Statement (.start rail) := of_wf _
theorem railDischargeDone (rail : Nat) : Statement (.railDischargeDone rail) := of_wf _
theorem ov (rail : Nat) : Statement (.ov rail) := of_wf _
theorem uv (rail : Nat) : Statement (.uv rail) := of_wf _
theorem legComparatorTrip (leg cycle : Nat) (hard : Bool) : Statement (.legComparatorTrip leg cycle hard) := of_wf _
theorem legUnpark (rail leg : Nat) : Statement (.legUnpark rail leg) := of_wf _
theorem capacityFinding (rail : Nat) : Statement (.capacityFinding rail) := of_wf _
theorem pwrLegRelease (value : Nat) : Statement (.pwrLegRelease value) := of_wf _
theorem pwrCapWrite (m : Master) (value : Nat) : Statement (.pwrCapWrite m value) := of_wf _
theorem powerTelemetryWindow (mv cur power energy : Nat) (rails : List (Nat × Nat)) : Statement (.powerTelemetryWindow mv cur power energy rails) := of_wf _
theorem railRetry (req : SmbReq) : Statement (.railRetry req) := of_wf _
theorem railRetryUpDone : Statement (.railRetryUpDone) := of_wf _
theorem nrstInRecognised (high : Bool) : Statement (.nrstInRecognised high) := of_wf _
theorem perstNRecognised (high : Bool) : Statement (.perstNRecognised high) := of_wf _
theorem hostResetWarm (value : Nat) : Statement (.hostResetWarm value) := of_wf _
theorem hostResetDevice (value : Nat) : Statement (.hostResetDevice value) := of_wf _
theorem pcieHotReset : Statement (.pcieHotReset) := of_wf _
theorem pcieLinkDown : Statement (.pcieLinkDown) := of_wf _
theorem bootWatchdogExpiry : Statement (.bootWatchdogExpiry) := of_wf _
theorem fwWatchdogExpiry (core : Nat) : Statement (.fwWatchdogExpiry core) := of_wf _
theorem episodeHoldEnd : Statement (.episodeHoldEnd) := of_wf _
theorem otpSelect : Statement (.otpSelect) := of_wf _
theorem strapStep (bootSrc clkMode freq : Nat) : Statement (.strapStep bootSrc clkMode freq) := of_wf _
theorem strapRetry (bootSrc clkMode freq : Nat) : Statement (.strapRetry bootSrc clkMode freq) := of_wf _
theorem refclkLoss : Statement (.refclkLoss) := of_wf _
theorem bootRomStart (sfdpOk : Bool) : Statement (.bootRomStart sfdpOk) := of_wf _
theorem episodeEnd : Statement (.episodeEnd) := of_wf _
theorem bootStageRun (burnOk : Nat) : Statement (.bootStageRun burnOk) := of_wf _
theorem fwReady (ms : Nat) : Statement (.fwReady ms) := of_wf _
theorem fallbackRecordWrite (readBack : Bool) : Statement (.fallbackRecordWrite readBack) := of_wf _
theorem autoConfirm (readBack : Bool) : Statement (.autoConfirm readBack) := of_wf _
theorem recoveryGo : Statement (.recoveryGo) := of_wf _
theorem recoveryBundleChecked (bundle : List Nat) : Statement (.recoveryBundleChecked bundle) := of_wf _
theorem functionReach (vf : Nat) : Statement (.functionReach vf) := of_wf _
theorem functionReachEnd (vf : Nat) : Statement (.functionReachEnd vf) := of_wf _
theorem blockResetGo (m : Master) (value : Nat) : Statement (.blockResetGo m value) := of_wf _
theorem blockIdleReached (hot : Bool) : Statement (.blockIdleReached hot) := of_wf _
theorem blockIdleTimeout (hot : Bool) (inFlight : Nat) : Statement (.blockIdleTimeout hot inFlight) := of_wf _
theorem blockResetEnd (hot : Bool) : Statement (.blockResetEnd hot) := of_wf _
theorem opticalLaserRampEnd (missing : List (Nat × Nat)) (engineDead : List Nat) : Statement (.opticalLaserRampEnd missing engineDead) := of_wf _
theorem ringLockEnd (unlocked : List (Nat × Nat)) : Statement (.ringLockEnd unlocked) := of_wf _
theorem quickCalPass (sweeps : List RowSweep) : Statement (.quickCalPass sweeps) := of_wf _
theorem readySet (ms : Nat) : Statement (.readySet ms) := of_wf _
theorem tier1Trained (failed : Nat) : Statement (.tier1Trained failed) := of_wf _
theorem tier2Trained (sizes : List (Option Nat)) : Statement (.tier2Trained sizes) := of_wf _
theorem cadAcquireStart : Statement (.cadAcquireStart) := of_wf _
theorem encoderEdge (pinB forward : Bool) (stamp : Nat) : Statement (.encoderEdge pinB forward stamp) := of_wf _
theorem encoderIndex : Statement (.encoderIndex) := of_wf _
theorem rateWindowEnd : Statement (.rateWindowEnd) := of_wf _
theorem tframeReceived (codeOk : Bool) (chars : List Nat) : Statement (.tframeReceived codeOk chars) := of_wf _
theorem tframeTimeout : Statement (.tframeTimeout) := of_wf _
theorem pulseEdge : Statement (.pulseEdge) := of_wf _
theorem setpEdge (stamp : Nat) : Statement (.setpEdge stamp) := of_wf _
theorem syncInEdge (rising : Bool) : Statement (.syncInEdge rising) := of_wf _
theorem phaseBeat : Statement (.phaseBeat) := of_wf _
theorem motionStall : Statement (.motionStall) := of_wf _
theorem hwmSet (m : Master) (value : Nat) : Statement (.hwmSet m value) := of_wf _
theorem frameStartRow (row : Nat) : Statement (.frameStartRow row) := of_wf _
theorem winOpen (row : Nat) : Statement (.winOpen row) := of_wf _
theorem winClose (row : Nat) : Statement (.winClose row) := of_wf _
theorem loopSample (row : Nat) : Statement (.loopSample row) := of_wf _
theorem decStrobe (row : Nat) : Statement (.decStrobe row) := of_wf _
theorem planArmRow (row : Nat) : Statement (.planArmRow row) := of_wf _
theorem sadSync (row : Nat) : Statement (.sadSync row) := of_wf _
theorem heldLoopSample : Statement (.heldLoopSample) := of_wf _
theorem unanchoredFrameStart : Statement (.unanchoredFrameStart) := of_wf _
theorem frameBoundary : Statement (.frameBoundary) := of_wf _
theorem frameEnd : Statement (.frameEnd) := of_wf _
theorem seamDrain (bad : Nat) : Statement (.seamDrain bad) := of_wf _
theorem weightSwap : Statement (.weightSwap) := of_wf _
theorem remapBeat : Statement (.remapBeat) := of_wf _
theorem fetchItem (item : Nat) : Statement (.fetchItem item) := of_wf _
theorem fetchDataArrived (item : Nat) (ecc : EccResult) : Statement (.fetchDataArrived item ecc) := of_wf _
theorem storeItem (item : Nat) : Statement (.storeItem item) := of_wf _
theorem tileItem (item : Nat) : Statement (.tileItem item) := of_wf _
theorem dmuItem (item : Nat) : Statement (.dmuItem item) := of_wf _
theorem vuItem (item : Nat) : Statement (.vuItem item) := of_wf _
theorem scanItem (item : Nat) : Statement (.scanItem item) := of_wf _
theorem quantItem (item : Nat) : Statement (.quantItem item) := of_wf _
theorem decideItem (item : Nat) : Statement (.decideItem item) := of_wf _
theorem buildItem (item : Nat) : Statement (.buildItem item) := of_wf _
theorem decisionBeat : Statement (.decisionBeat) := of_wf _
theorem decPulseEnd (line : Nat) : Statement (.decPulseEnd line) := of_wf _
theorem housekeepingSlot : Statement (.housekeepingSlot) := of_wf _
theorem doorbellRecordArrived (client : Nat) (bytes : List Nat) : Statement (.doorbellRecordArrived client bytes) := of_wf _
theorem descriptorArrived (client ring : Nat) (bytes : List Nat) : Statement (.descriptorArrived client ring bytes) := of_wf _
theorem hostCompletionArrived (client ring : Nat) (kind : CplKind) (bytes : List Nat) : Statement (.hostCompletionArrived client ring kind bytes) := of_wf _
theorem completionTimeout (client ring : Nat) : Statement (.completionTimeout client ring) := of_wf _
theorem nop (client ring : Nat) : Statement (.nop client ring) := of_wf _
theorem fence (client ring : Nat) : Statement (.fence client ring) := of_wf _
theorem loadTensor (client ring : Nat) : Statement (.loadTensor client ring) := of_wf _
theorem storeTensor (client ring : Nat) : Statement (.storeTensor client ring) := of_wf _
theorem tensorTransferStep (client ring beats : Nat) : Statement (.tensorTransferStep client ring beats) := of_wf _
theorem runSection (client ring : Nat) : Statement (.runSection client ring) := of_wf _
theorem sectionRun (client ring : Nat) (host : List (List Nat)) : Statement (.sectionRun client ring host) := of_wf _
theorem trainStep (client ring : Nat) : Statement (.trainStep client ring) := of_wf _
theorem trainCheckStep (client ring : Nat) : Statement (.trainCheckStep client ring) := of_wf _
theorem trainInitStep (client ring : Nat) : Statement (.trainInitStep client ring) := of_wf _
theorem trainRunStep (client ring : Nat) (host : List (List Nat)) : Statement (.trainRunStep client ring host) := of_wf _
theorem trainUpdateStep (client ring : Nat) : Statement (.trainUpdateStep client ring) := of_wf _
theorem trainCommitStep (client ring : Nat) : Statement (.trainCommitStep client ring) := of_wf _
theorem solveQp (client ring : Nat) : Statement (.solveQp client ring) := of_wf _
theorem readTrace (client ring : Nat) : Statement (.readTrace client ring) := of_wf _
theorem readStats (client ring : Nat) : Statement (.readStats client ring) := of_wf _
theorem readCurves (client ring : Nat) : Statement (.readCurves client ring) := of_wf _
theorem readMonitors (client ring : Nat) : Statement (.readMonitors client ring) := of_wf _
theorem recalRow (client ring : Nat) : Statement (.recalRow client ring) := of_wf _
theorem tableWrite (client ring : Nat) : Statement (.tableWrite client ring) := of_wf _
theorem planStage (ring : Nat) : Statement (.planStage ring) := of_wf _
theorem planStageStep (ring : Nat) (bytes : List Nat) : Statement (.planStageStep ring bytes) := of_wf _
theorem planArm (ring : Nat) : Statement (.planArm ring) := of_wf _
theorem fwChunk (ring : Nat) : Statement (.fwChunk ring) := of_wf _
theorem fwVerify (ring : Nat) : Statement (.fwVerify ring) := of_wf _
theorem fwActivate (ring : Nat) : Statement (.fwActivate ring) := of_wf _
theorem fwConfirm (ring : Nat) : Statement (.fwConfirm ring) := of_wf _
theorem flashOpStep (ok : Bool) : Statement (.flashOpStep ok) := of_wf _
theorem fuseBurnStep (pulses : Nat) : Statement (.fuseBurnStep pulses) := of_wf _
theorem otpOptionWrite (ring : Nat) : Statement (.otpOptionWrite ring) := of_wf _
theorem otpBurnStep (stuck : List Nat) : Statement (.otpBurnStep stuck) := of_wf _
theorem rngCtlEnable (client value : Nat) : Statement (.rngCtlEnable client value) := of_wf _
theorem cplRingEnable (client q value : Nat) : Statement (.cplRingEnable client q value) := of_wf _
theorem ringEnable (client s value : Nat) : Statement (.ringEnable client s value) := of_wf _
theorem ringDisable (client s value : Nat) : Statement (.ringDisable client s value) := of_wf _
theorem ringResume (client s value : Nat) : Statement (.ringResume client s value) := of_wf _
theorem ringStop (client s value : Nat) : Statement (.ringStop client s value) := of_wf _
theorem useRangeEnable (client value : Nat) : Statement (.useRangeEnable client value) := of_wf _
theorem vfEnableSet (numVfs : Nat) : Statement (.vfEnableSet numVfs) := of_wf _
theorem vfReady : Statement (.vfReady) := of_wf _
theorem vfEnableClear : Statement (.vfEnableClear) := of_wf _
theorem busMasterEnableChange (fn : Nat) (on : Bool) : Statement (.busMasterEnableChange fn on) := of_wf _
theorem pfPowerStateChange (d3hot : Bool) : Statement (.pfPowerStateChange d3hot) := of_wf _
theorem pcieLinkUp (speed width : Nat) : Statement (.pcieLinkUp speed width) := of_wf _
theorem unsupportedRequest (fn : Nat) (hdr : List Nat) : Statement (.unsupportedRequest fn hdr) := of_wf _
theorem tlpErrorReceived (err : LinkErr) (hdr : List Nat) : Statement (.tlpErrorReceived err hdr) := of_wf _
theorem msixUnmask (fn vec : Nat) : Statement (.msixUnmask fn vec) := of_wf _
theorem streamPortLinkUp (aet : Bool) (port : Nat) : Statement (.streamPortLinkUp aet port) := of_wf _
theorem streamPortLinkDown (aet : Bool) (port : Nat) : Statement (.streamPortLinkDown aet port) := of_wf _
theorem streamFrameArrived (port : Nat) (linkOk : Bool) (first fill : Nat) (frame : List Nat) : Statement (.streamFrameArrived port linkOk first fill frame) := of_wf _
theorem hitExtraction (die count : Nat) : Statement (.hitExtraction die count) := of_wf _
theorem hitExtractTimeout (die : Nat) : Statement (.hitExtractTimeout die) := of_wf _
theorem streamWindowTimeout (stream : Nat) : Statement (.streamWindowTimeout stream) := of_wf _
theorem windowFinal (stream : Nat) : Statement (.windowFinal stream) := of_wf _
theorem featureSetComplete : Statement (.featureSetComplete) := of_wf _
theorem lauFreeze (m : Master) (value : Nat) : Statement (.lauFreeze m value) := of_wf _
theorem lauUnfreeze (m : Master) (value : Nat) : Statement (.lauUnfreeze m value) := of_wf _
theorem lauRollback (m : Master) (value : Nat) : Statement (.lauRollback m value) := of_wf _
theorem lauRebase (m : Master) (value : Nat) : Statement (.lauRebase m value) := of_wf _
theorem lauCkpt (m : Master) (value : Nat) : Statement (.lauCkpt m value) := of_wf _
theorem lockinVisitEnd (tile index : Nat) (inWindow atEnd : Bool) : Statement (.lockinVisitEnd tile index inWindow atEnd) := of_wf _
theorem sweepEnd (sweep : RowSweep) : Statement (.sweepEnd sweep) := of_wf _
theorem m0Sample (engine : Nat) (powers : List Nat) : Statement (.m0Sample engine powers) := of_wf _
theorem monitorSample (tile : Nat) (readings : List Nat) : Statement (.monitorSample tile readings) := of_wf _
theorem engineBiasLimit (engine : Nat) : Statement (.engineBiasLimit engine) := of_wf _
theorem tier1Refresh (stack beats : Nat) : Statement (.tier1Refresh stack beats) := of_wf _
theorem tier2Refresh (channel beats : Nat) : Statement (.tier2Refresh channel beats) := of_wf _
theorem tier2MaintenanceWindow (channel : Nat) : Statement (.tier2MaintenanceWindow channel) := of_wf _
theorem dimmAlert (channel : Nat) : Statement (.dimmAlert channel) := of_wf _
theorem retentionCopyDone (path : Nat) : Statement (.retentionCopyDone path) := of_wf _
theorem pathTxOpportunity (path : Nat) : Statement (.pathTxOpportunity path) := of_wf _
theorem ackReceived (port : Nat) (frame : List Nat) : Statement (.ackReceived port frame) := of_wf _
theorem helloAckReceived (port : Nat) (frame : List Nat) : Statement (.helloAckReceived port frame) := of_wf _
theorem decisionReceived (port : Nat) (frame : List Nat) : Statement (.decisionReceived port frame) := of_wf _
theorem aetFrameDiscard (port : Nat) (frame : List Nat) : Statement (.aetFrameDiscard port frame) := of_wf _
theorem rtoExpiry (path : Nat) : Statement (.rtoExpiry path) := of_wf _
theorem giveupExpiry (path : Nat) : Statement (.giveupExpiry path) := of_wf _
theorem pfcReceived (port : Nat) (frame : List Nat) : Statement (.pfcReceived port frame) := of_wf _
theorem aetRxBufferLevel (port : Nat) (high : Bool) : Statement (.aetRxBufferLevel port high) := of_wf _
theorem sadWordDelivery (ch : Nat) (raw : Int) (ovr : Bool) : Statement (.sadWordDelivery ch raw ovr) := of_wf _
theorem sadSyncWrite (m : Master) (value : Nat) : Statement (.sadSyncWrite m value) := of_wf _
theorem sadCfgWrite (m : Master) (ch value : Nat) : Statement (.sadCfgWrite m ch value) := of_wf _
theorem sadUrgWrite (m : Master) (value : Nat) : Statement (.sadUrgWrite m value) := of_wf _
theorem urgentRequestAct (ch : Nat) : Statement (.urgentRequestAct ch) := of_wf _
theorem loopTimerSample : Statement (.loopTimerSample) := of_wf _
theorem loopOutputBeat : Statement (.loopOutputBeat) := of_wf _
theorem driveFault : Statement (.driveFault) := of_wf _
theorem swap (m : Master) (value : Nat) : Statement (.swap m value) := of_wf _
theorem clearTrip (m : Master) (value : Nat) (faultHigh : Bool) : Statement (.clearTrip m value faultHigh) := of_wf _
theorem lpeBankWrite (m : Master) (bank word value : Nat) : Statement (.lpeBankWrite m bank word value) := of_wf _
theorem traceArm (m : Master) (value : Nat) : Statement (.traceArm m value) := of_wf _
theorem qpSolveStart : Statement (.qpSolveStart) := of_wf _
theorem qpIterationEnd : Statement (.qpIterationEnd) := of_wf _
theorem qpDelivery : Statement (.qpDelivery) := of_wf _
theorem thermalSample (readings : List (Option Int)) (ref14 ref15 : Int) : Statement (.thermalSample readings ref14 ref15) := of_wf _
theorem heartbeatTimeout (core : Nat) : Statement (.heartbeatTimeout core) := of_wf _
theorem status (req : SmbReq) : Statement (.status req) := of_wf _
theorem telemetry (req : SmbReq) : Statement (.telemetry req) := of_wf _
theorem sensors (req : SmbReq) : Statement (.sensors req) := of_wf _
theorem errlog (req : SmbReq) : Statement (.errlog req) := of_wf _
theorem errclr (req : SmbReq) : Statement (.errclr req) := of_wf _
theorem identity (req : SmbReq) : Statement (.identity req) := of_wf _
theorem alertMask (req : SmbReq) : Statement (.alertMask req) := of_wf _
theorem resetDevice (req : SmbReq) : Statement (.resetDevice req) := of_wf _
theorem mgmtResetAssert : Statement (.mgmtResetAssert) := of_wf _
theorem reply : Statement (.reply) := of_wf _
theorem alertResponse : Statement (.alertResponse) := of_wf _
theorem smbusTimeout : Statement (.smbusTimeout) := of_wf _
theorem tapReset : Statement (.tapReset) := of_wf _
theorem boundaryScanInstruction (code cells : Nat) : Statement (.boundaryScanInstruction code cells) := of_wf _
theorem dbgChal : Statement (.dbgChal) := of_wf _
theorem dbgResp (bytes : List Nat) : Statement (.dbgResp bytes) := of_wf _
theorem dbgMem (update : Nat) : Statement (.dbgMem update) := of_wf _
theorem dbgCoreHalt (update : Nat) : Statement (.dbgCoreHalt update) := of_wf _
theorem dbgCoreResume (update : Nat) : Statement (.dbgCoreResume update) := of_wf _
theorem blockSnap (m : Master) (addr value : Nat) : Statement (.blockSnap m addr value) := of_wf _
theorem w1cWrite (m : Master) (addr value : Nat) : Statement (.w1cWrite m addr value) := of_wf _
theorem registerWrite (m : Master) (addr size value : Nat) : Statement (.registerWrite m addr size value) := of_wf _
theorem registerRead (m : Master) (addr size : Nat) : Statement (.registerRead m addr size) := of_wf _
theorem lvdsRegulatorInRegulation : Statement (.lvdsRegulatorInRegulation) := of_wf _
theorem ioDieStartChecks (passed : Bool) : Statement (.ioDieStartChecks passed) := of_wf _
theorem planStoreUncorrectableError (standby : Bool) : Statement (.planStoreUncorrectableError standby) := of_wf _
theorem controlCoreMemoryUe (core : Nat) : Statement (.controlCoreMemoryUe core) := of_wf _
theorem updateIr (code : Nat) : Statement (.updateIr code) := of_wf _

end Sys2Proof.Laws.Wf
end

