-- ==== Sys2Proof/Laws/Reset.lean ====
section
/-!
SUPPORT. What a reset reach does: the register fields it clears and keeps, the blocks it returns to reset, and how a
source starts or joins an episode.
-/

namespace Sys2Proof.Machine

/-- Clearing by a rule drops the entries of the fields that the rule names and keeps the others. -/
theorem Dev.sfind_clearRegs (d : Dev) (p : Nat → Fld → Bool) (k : Nat) (f : Fld) (hf : fldAt k = some f) :
    sfind (d.clearRegs p).regs k = if p k f then none else sfind d.regs k := by
  simp only [Dev.clearRegs, sfind_skeep, hf]
  cases p k f <;> simp

/-- Outside an episode a source sets its cause bit, is held asserted when it is a level, and starts an episode. -/
theorem Dev.assertSrc_none (d : Dev) (src : Src) (r : Reach) (level : Bool) (h : d.rst.ep = none) :
    d.assertSrc src r level = (let d' := d.cause src
      let d' := if level then { d' with rst := { d'.rst with asserted := src :: d'.rst.asserted.filter (· ≠ src) } } else d'
      d'.startEpisode src r) := by
  simp only [Dev.assertSrc]
  cases level <;> simp [Dev.cause, h]

/-- Writing a word of one-bit fields leaves every other field alone. -/
theorem Dev.sfind_setWord_ne (d : Dev) (v : Nat) (f : Fld) (k : Nat) (h : ∀ i, i < f.count → k ≠ f.key i) :
    sfind (d.setWord f v).regs k = sfind d.regs k := by
  have : ∀ (l : List Nat) (e : Dev), (∀ i ∈ l, i < f.count) →
      sfind (l.foldl (fun a i => a.wri f i (bits v i 1)) e).regs k = sfind e.regs k := by
    intro l
    induction l with
    | nil => intros; rfl
    | cons a l ih =>
      intro e hl
      simp only [List.foldl_cons]
      rw [ih _ (fun i hi => hl i (List.mem_cons_of_mem _ hi)), Dev.sfind_wri_ne _ _ (h a (hl a (List.mem_cons_self)))]
  exact this _ _ (fun i hi => List.mem_range.mp hi)

/-- Each field of the word reads its bit. -/
theorem Dev.rdi_setWord_same (d : Dev) (f : Fld) (v : Nat) (i : Nat) (hi : i < f.count) (hinj : ∀ i j, f.key i = f.key j → i = j) :
    (d.setWord f v).rdi f i = bits v i 1 % 2 ^ f.w := by
  have : ∀ (l : List Nat) (e : Dev), l.Nodup → i ∈ l →
      (l.foldl (fun a i => a.wri f i (bits v i 1)) e).rdi f i = bits v i 1 % 2 ^ f.w := by
    intro l
    induction l with
    | nil => intro e _ h; cases h
    | cons a l ih =>
      intro e hn hm
      simp only [List.foldl_cons]
      by_cases hml : i ∈ l
      · exact ih _ (List.nodup_cons.mp hn).2 hml
      · have hai : i = a := by cases hm with
          | head => rfl
          | tail _ h => exact absurd h hml
        subst hai
        have : ∀ (l : List Nat) (e : Dev), i ∉ l → (l.foldl (fun a i => a.wri f i (bits v i 1)) e).rdi f i = e.rdi f i := by
          intro l
          induction l with
          | nil => intros; rfl
          | cons b l ih =>
            intro e hb
            simp only [List.foldl_cons]
            rw [ih _ (fun h => hb (List.mem_cons_of_mem _ h)), Dev.rdi_wri_ne _ _ (fun he => hb (by rw [hinj _ _ he]; exact List.mem_cons_self))]
        rw [this l _ hml]; simp
  exact this _ _ List.nodup_range (List.mem_range.mpr hi)

theorem Dev.regs_only_trans {d e f : Dev} (h1 : e = { d with regs := e.regs }) (h2 : f = { e with regs := f.regs }) : f = { d with regs := f.regs } := by
  generalize f.regs = rf at h2 ⊢
  generalize e.regs = re at h1
  subst h1; subst h2; rfl

/-- A fold of changes that touch registers only touches registers only. -/
theorem Dev.foldl_regs_only {α : Type} (g : Dev → α → Dev) (hg : ∀ e a, g e a = { e with regs := (g e a).regs }) (l : List α) (d : Dev) :
    l.foldl g d = { d with regs := (l.foldl g d).regs } := by
  induction l generalizing d with
  | nil => rfl
  | cons a l ih => simp only [List.foldl_cons]; exact Dev.regs_only_trans (hg d a) (ih (g d a))

theorem Dev.setWord_regs_only (d : Dev) (f : Fld) (v : Nat) : d.setWord f v = { d with regs := (d.setWord f v).regs } :=
  Dev.foldl_regs_only _ (fun _ _ => rfl) _ _

theorem Dev.applyReach_regs (d : Dev) (r : Reach) :
    (d.applyReach r).regs = ((d.clearRegs (fun _ f => f.cls.clearedBy r)).unparkAll).regs := by simp only [Dev.applyReach]

theorem Dev.sfind_alertChange (d : Dev) (was) (k) (h : k ≠ R.MGT_STATUS_ALERT.key 0) :
    sfind (d.alertChange was).regs k = sfind d.regs k := by
  simp only [Dev.alertChange]; split
  · rfl
  · simp only [Dev.alert]; split
    · exact Dev.sfind_wri_ne _ _ h
    · rfl

theorem reachKeys_eq_false {k : Nat} (h : reachKeys k = false) : k ≠ R.RST_CAUSE.key 0 ∧ k ≠ R.MGT_STATUS_ALERT.key 0 ∧
    ∀ i, i < 34 → k ≠ R.PWR_LEG_PARK.key i := by
  simp [reachKeys] at h
  exact ⟨h.1.1, h.1.2, h.2⟩

/-- A reach returns the fields that it clears to reset and keeps the others. -/
theorem Dev.sfind_applyReach (d : Dev) (r : Reach) (k : Nat) (f : Fld) (hf : fldAt k = some f) (h : ∀ i, i < 34 → k ≠ R.PWR_LEG_PARK.key i) :
    sfind (d.applyReach r).regs k = if f.cls.clearedBy r then none else sfind d.regs k := by
  rw [Dev.applyReach_regs, Dev.unparkAll, Dev.sfind_setWord_ne _ _ _ _ h, Dev.sfind_clearRegs _ _ _ _ hf]

/-- The same, with the alert bit that the reach may set left aside. -/
theorem Dev.sfind_takeReach (d : Dev) (r : Reach) (k : Nat) (f : Fld) (hf : fldAt k = some f) (h : ∀ i, i < 34 → k ≠ R.PWR_LEG_PARK.key i)
    (ha : k ≠ R.MGT_STATUS_ALERT.key 0) :
    sfind (d.takeReach r).regs k = if f.cls.clearedBy r then none else sfind d.regs k := by
  simp only [Dev.takeReach]; split
  · exact Dev.sfind_applyReach _ _ _ _ hf h
  · rw [Dev.sfind_alertChange _ _ _ ha, Dev.sfind_applyReach _ _ _ _ hf h]

theorem Dev.applyReach_unparks (d : Dev) (r : Reach) (i : Nat) (hi : i < 34) : (d.applyReach r).rdi R.PWR_LEG_PARK i = 0 := by
  have : (d.applyReach r).rdi R.PWR_LEG_PARK i = ((d.clearRegs (fun _ f => f.cls.clearedBy r)).unparkAll).rdi R.PWR_LEG_PARK i :=
    Dev.rdi_congr (Dev.applyReach_regs d r) _ _
  rw [this, Dev.unparkAll, Dev.rdi_setWord_same _ _ _ _ hi]
  · simp [bits]
  · intro i j h; simp [Fld.key, R.PWR_LEG_PARK] at h; exact h

theorem Dev.takeReach_unparks (d : Dev) (r : Reach) (i : Nat) (hi : i < 34) : (d.takeReach r).rdi R.PWR_LEG_PARK i = 0 := by
  simp only [Dev.takeReach]; split
  · exact Dev.applyReach_unparks _ _ _ hi
  · rw [← Dev.applyReach_unparks d r i hi]
    refine Dev.rdi_of_sfind (Dev.sfind_alertChange _ _ _ ?_)
    simp [Fld.key, R.PWR_LEG_PARK, R.MGT_STATUS_ALERT]; omega

/-- A change of the alert bits writes registers only. -/
theorem Dev.alertChange_regs_only (d : Dev) (was) : d.alertChange was = { d with regs := (d.alertChange was).regs } := by
  simp only [Dev.alertChange]; split
  · rfl
  · simp only [Dev.alert]; split <;> rfl

theorem Dev.alertChange_frame (d : Dev) (was) : (d.alertChange was).beat = d.beat ∧ (d.alertChange was).free = d.free ∧ (d.alertChange was).out = d.out ∧
   (d.alertChange was).rst = d.rst ∧ (d.alertChange was).boot = d.boot ∧ (d.alertChange was).cad = d.cad ∧ (d.alertChange was).sq = d.sq ∧ (d.alertChange was).hif = d.hif ∧ (d.alertChange was).clients = d.clients ∧
   (d.alertChange was).ing = d.ing ∧ (d.alertChange was).lau = d.lau ∧ (d.alertChange was).aet = d.aet ∧ (d.alertChange was).trg = d.trg ∧ (d.alertChange was).qps = d.qps ∧ (d.alertChange was).pw = d.pw := by
  rw [Dev.alertChange_regs_only]; simp

/-- A reach takes no time and emits nothing. -/
theorem Dev.applyReach_time (d : Dev) (r : Reach) : (d.applyReach r).beat = d.beat ∧ (d.applyReach r).free = d.free ∧ (d.applyReach r).out = d.out := by
  simp only [Dev.applyReach, Dev.unparkAll]; rw [Dev.setWord_regs_only]; simp [Dev.clearRegs]

/-- A reach leaves the target of a download in progress undefined (R229). -/
theorem Dev.applyReach_flash (d : Dev) (r : Reach) : (d.applyReach r).flashUndef = d.flashTorn := by
  simp only [Dev.applyReach, Dev.unparkAll]; rw [Dev.setWord_regs_only]; simp [Dev.clearRegs, Dev.flashTorn]

/-- After a reach the hidden state of the blocks and clients is as after reset. -/
theorem Dev.applyReach_blocks (d : Dev) (r : Reach) : (d.applyReach r).boot = {} ∧ (d.applyReach r).cad = {} ∧ (d.applyReach r).sq = {} ∧ (d.applyReach r).hif = {} ∧ (d.applyReach r).clients = [] ∧
   (d.applyReach r).ing = {} ∧ (d.applyReach r).lau = {} ∧ (d.applyReach r).aet = {} ∧ (d.applyReach r).trg = {} ∧ (d.applyReach r).qps = {} := by
  simp only [Dev.applyReach, and_self]

theorem Dev.applyReach_asserted (d : Dev) (r : Reach) : (d.applyReach r).rst.asserted = (if r = Reach.full then d.rst.asserted.filter (fun s => s ≠ .regFault && s ≠ .therm)
                         else d.rst.asserted) := by
  simp only [Dev.applyReach, Dev.unparkAll]; rw [Dev.setWord_regs_only]; simp [Dev.clearRegs]

theorem Dev.takeReach_cases (d : Dev) (r : Reach) : d.takeReach r = d.applyReach r ∨ d.takeReach r = (d.applyReach r).alertChange d.alertBits := by
  simp only [Dev.takeReach]; split <;> simp

/-- What a reach leaves besides registers, memories and blocks outside it. -/
theorem Dev.takeReach_parts (d : Dev) (r : Reach) : (d.takeReach r).beat = d.beat ∧ (d.takeReach r).free = d.free ∧ (d.takeReach r).out = d.out ∧ (d.takeReach r).boot = {} ∧ (d.takeReach r).cad = {} ∧ (d.takeReach r).sq = {} ∧ (d.takeReach r).hif = {} ∧ (d.takeReach r).clients = [] ∧
   (d.takeReach r).ing = {} ∧ (d.takeReach r).lau = {} ∧ (d.takeReach r).aet = {} ∧ (d.takeReach r).trg = {} ∧ (d.takeReach r).qps = {} ∧ (d.takeReach r).rst = (d.applyReach r).rst ∧ (d.takeReach r).pw = (d.applyReach r).pw := by
  rcases Dev.takeReach_cases d r with h | h <;> rw [h]
  · simp [Dev.applyReach_time, Dev.applyReach_blocks]
  · simp [Dev.alertChange_frame, Dev.applyReach_time, Dev.applyReach_blocks]

theorem fldAt_RST_CAUSE : fldAt (R.RST_CAUSE.key 0) = some R.RST_CAUSE := by decide

/-- A reach keeps RST_CAUSE. -/
theorem Dev.takeReach_cause (d : Dev) (r : Reach) : (d.takeReach r).rdi R.RST_CAUSE 0 = d.rdi R.RST_CAUSE 0 := by
  refine Dev.rdi_of_sfind ?_
  rw [Dev.sfind_takeReach _ _ _ _ fldAt_RST_CAUSE (by simp [Fld.key, R.RST_CAUSE, R.PWR_LEG_PARK]; omega) (by decide)]
  cases r <;> simp [R.RST_CAUSE, Cls.clearedBy]

theorem putBit_lt {v i w : Nat} (hv : v < 2 ^ w) (hi : i < w) (b : Bool) : putBit v i b < 2 ^ w := by
  apply Nat.lt_pow_two_of_testBit
  intro j hj
  rw [putBit, testBit_putBits_ge _ _ _ _ _ (by omega)]
  exact Nat.testBit_lt_two_pow (lt_of_lt_of_le hv (Nat.pow_le_pow_right (by decide) hj))

theorem Src.bit_lt (s : Src) : s.bit < 12 := by cases s <;> decide

/-- A source sets its own cause bit. -/
theorem Dev.cause_rd (d : Dev) (s : Src) : (d.cause s).rdi R.RST_CAUSE 0 = putBit (d.rdi R.RST_CAUSE 0) s.bit true := by
  simp only [Dev.cause, Dev.wr_eq, Dev.rdi_wri_same, Dev.rd_eq]
  exact Nat.mod_eq_of_lt (putBit_lt (d.rdi_lt _ _) (Src.bit_lt s) _)

theorem Dev.sfind_cause (d : Dev) (s : Src) (k : Nat) (h : k ≠ R.RST_CAUSE.key 0) : sfind (d.cause s).regs k = sfind d.regs k :=
  Dev.sfind_wri_ne _ _ h

/-- Abandoning a boot changes the boot status and the alert bit only. -/
theorem Dev.sfind_abandonBoot (d : Dev) (k) (h : k ≠ R.MGT_STATUS_ALERT.key 0) (h1 : k ≠ R.BTP_STATUS_STEP.key 0) (h2 : k ≠ R.BTP_STATUS_BOOTED.key 0) :
   sfind d.abandonBoot.regs k = sfind d.regs k := by
  simp only [Dev.abandonBoot]
  rw [Dev.sfind_alertChange _ _ _ h]
  show sfind ((d.wri R.BTP_STATUS_STEP 0 0).wri R.BTP_STATUS_BOOTED 0 3).regs k = _
  exact (Dev.sfind_wri_ne _ _ h2).trans (Dev.sfind_wri_ne _ _ h1)

theorem Dev.abandonBoot_frame (d : Dev) : d.abandonBoot.beat = d.beat ∧ d.abandonBoot.free = d.free ∧ d.abandonBoot.out = d.out ∧ d.abandonBoot.pw = d.pw ∧ d.abandonBoot.rst = d.rst := by
  simp only [Dev.abandonBoot, Dev.alertChange_frame]; simp

/-- In an episode the source joins it. -/
theorem Dev.assertSrc_some (d : Dev) (src : Src) (r : Reach) (level : Bool) (p : Episode) (h : d.rst.ep = some p) :
    d.assertSrc src r level = (let d' := d.cause src
      let d' := if level then { d' with rst := { d'.rst with asserted := src :: d'.rst.asserted.filter (· ≠ src) } } else d'
      d'.joinEpisode p src r) := by
  simp only [Dev.assertSrc]
  cases level <;> simp [Dev.cause, h]

/-- Joining an episode keeps RST_CAUSE. -/
theorem Dev.joinEpisode_cause (d : Dev) (p : Episode) (src : Src) (r : Reach) : (d.joinEpisode p src r).rdi R.RST_CAUSE 0 = d.rdi R.RST_CAUSE 0 := by
  have : (d.joinEpisode p src r).rdi R.RST_CAUSE 0 = (if r.wider p.reach then d.takeReach r else d.abandonBoot).rdi R.RST_CAUSE 0 := rfl
  rw [this]
  split
  · exact Dev.takeReach_cause _ _
  · exact Dev.rdi_of_sfind (Dev.sfind_abandonBoot _ _ (by decide) (by decide) (by decide))

end Sys2Proof.Machine
end

