-- ==== Sys2Proof/Tests/Slice0.lean ====
section
/-!
SUPPORT. Tests: the well-formedness checks, one command at a time on the worked examples of the spec, and for each
statement a state and operands that meet its hypotheses.
-/

set_option Elab.async false

open Sys2Proof Sys2Proof.Machine

namespace Sys2Proof.Tests

/-! ### Well-formedness -/

/-- Commands that name a unit the block does not have. -/
def badUnits1 : List Instr :=
  [.railRampDone 4, .start 4, .railDischargeDone 4, .ov 4, .uv 4, .legComparatorTrip 34 0 false, .legUnpark 4 0,
   .legUnpark 0 34, .capacityFinding 4, .fwWatchdogExpiry 4, .functionReach 257, .functionReach 0,
   .functionReachEnd 257, .functionReachEnd 0, .frameStartRow 1024, .winOpen 1024, .winClose 1024, .loopSample 1024,
   .decStrobe 1024, .planArmRow 1024, .sadSync 1024, .decPulseEnd 8, .doorbellRecordArrived 257 [],
   .descriptorArrived 0 8 [], .descriptorArrived 257 0 [], .hostCompletionArrived 257 0 .data [],
   .hostCompletionArrived 0 9 .data [], .completionTimeout 257 0, .completionTimeout 0 9, .nop 0 8, .nop 257 0,
   .fence 0 8, .fence 257 0, .loadTensor 0 8, .loadTensor 257 0, .storeTensor 0 8, .storeTensor 257 0,
   .tensorTransferStep 0 8 0, .tensorTransferStep 257 0 0, .runSection 0 8]

/-- Commands that name a unit the block does not have. -/
def badUnits2 : List Instr :=
  [.runSection 257 0, .sectionRun 0 8 [], .sectionRun 257 0 [], .trainStep 0 8, .trainStep 257 0,
   .trainCheckStep 0 8, .trainCheckStep 257 0, .trainInitStep 0 8, .trainInitStep 257 0, .trainRunStep 0 8 [],
   .trainRunStep 257 0 [], .trainUpdateStep 0 8, .trainUpdateStep 257 0, .trainCommitStep 0 8,
   .trainCommitStep 257 0, .solveQp 0 8, .solveQp 257 0, .readTrace 0 8, .readTrace 257 0, .readStats 0 8,
   .readStats 257 0, .readCurves 0 8, .readCurves 257 0, .readMonitors 0 8, .readMonitors 257 0, .recalRow 0 8,
   .recalRow 257 0, .tableWrite 0 8, .tableWrite 257 0, .planStage 8, .planStageStep 8 [], .planArm 8, .fwChunk 8,
   .fwVerify 8, .fwActivate 8, .fwConfirm 8, .otpOptionWrite 8, .rngCtlEnable 257 0, .cplRingEnable 0 8 0,
   .cplRingEnable 257 0 0]

/-- Commands that name a unit the block does not have. -/
def badUnits3 : List Instr :=
  [.ringEnable 0 8 0, .ringEnable 257 0 0, .ringDisable 0 8 0, .ringDisable 257 0 0, .ringResume 0 8 0,
   .ringResume 257 0 0, .ringStop 0 8 0, .ringStop 257 0 0, .useRangeEnable 257 0, .busMasterEnableChange 257 false,
   .unsupportedRequest 257 [], .msixUnmask 257 0, .msixUnmask 0 64, .msixUnmask 1 8, .streamPortLinkUp false 16,
   .streamPortLinkDown false 16, .streamFrameArrived 16 false 0 0 [], .hitExtraction 2 0, .hitExtractTimeout 2,
   .streamWindowTimeout 16, .windowFinal 16, .lockinVisitEnd 16 0 false false, .lockinVisitEnd 0 16512 false false,
   .sweepEnd ⟨16, 0, [], 0, 0⟩, .m0Sample 2 [], .monitorSample 16 [], .engineBiasLimit 2, .tier1Refresh 6 0,
   .tier2Refresh 8 0, .tier2MaintenanceWindow 8, .dimmAlert 8, .retentionCopyDone 32, .pathTxOpportunity 32,
   .ackReceived 16 [], .helloAckReceived 16 [], .decisionReceived 16 [], .aetFrameDiscard 16 [], .rtoExpiry 32,
   .giveupExpiry 32, .pfcReceived 16 []]

/-- Commands that name a unit the block does not have. -/
def badUnits4 : List Instr :=
  [.aetRxBufferLevel 16 false, .sadWordDelivery 16 0 false, .sadCfgWrite .pf 16 0, .urgentRequestAct 12,
   .lpeBankWrite .pf 2 0 0, .lpeBankWrite .pf 0 96 0, .heartbeatTimeout 4, .boundaryScanInstruction 6 0,
   .boundaryScanInstruction 2 0, .controlCoreMemoryUe 5]

/-- Commands with an operand outside its range. -/
def badOperands1 : List Instr :=
  [.pwrLegRelease (2 ^ 32), .pwrCapWrite .pf (2 ^ 32), .pwrCapWrite (.vf 0) 0, .railRetry ⟨[256], true⟩,
   .hostResetWarm (2 ^ 32), .hostResetDevice (2 ^ 32), .strapStep 4 0 0, .strapStep 0 4 0, .strapRetry 4 0 0,
   .strapRetry 0 4 0, .recoveryBundleChecked [256], .blockResetGo .pf (2 ^ 32), .blockResetGo (.vf 0) 0,
   .tier1Trained (2 ^ 6), .tframeReceived false [256], .hwmSet .pf (2 ^ 32), .hwmSet (.vf 0) 0, .seamDrain (2 ^ 16),
   .doorbellRecordArrived 0 (256 :: List.replicate 63 7), .doorbellRecordArrived 0 [],
   .descriptorArrived 0 0 (256 :: List.replicate 63 7), .descriptorArrived 0 0 [],
   .hostCompletionArrived 0 0 .data [256], .sectionRun 0 0 [[256]], .trainRunStep 0 0 [[256]],
   .planStageStep 0 [256], .rngCtlEnable 0 (2 ^ 32), .cplRingEnable 0 0 (2 ^ 32), .ringEnable 0 0 (2 ^ 32),
   .ringDisable 0 0 (2 ^ 32), .ringResume 0 0 (2 ^ 32), .ringStop 0 0 (2 ^ 32), .useRangeEnable 0 (2 ^ 32),
   .vfEnableSet (2 ^ 16), .unsupportedRequest 0 [256], .tlpErrorReceived .receiver [256],
   .streamFrameArrived 0 false 0 0 [256], .lauFreeze .pf (2 ^ 32), .lauFreeze (.vf 0) 0, .lauUnfreeze .pf (2 ^ 32)]

/-- Commands with an operand outside its range. -/
def badOperands2 : List Instr :=
  [.lauUnfreeze (.vf 0) 0, .lauRollback .pf (2 ^ 32), .lauRollback (.vf 0) 0, .lauRebase .pf (2 ^ 32),
   .lauRebase (.vf 0) 0, .lauCkpt .pf (2 ^ 32), .lauCkpt (.vf 0) 0, .sweepEnd ⟨0, 257, List.replicate 256 0, 0, 0⟩,
   .sweepEnd ⟨0, 0, [], 0, 0⟩, .sweepEnd ⟨0, 0, List.replicate 256 65536, 0, 0⟩, .ackReceived 0 [256],
   .helloAckReceived 0 [256], .decisionReceived 0 [256], .aetFrameDiscard 0 [256], .pfcReceived 0 [256],
   .sadSyncWrite .pf (2 ^ 32), .sadSyncWrite (.vf 0) 0, .sadCfgWrite .pf 0 (2 ^ 32), .sadCfgWrite (.vf 0) 0 0,
   .sadUrgWrite .pf (2 ^ 32), .sadUrgWrite (.vf 0) 0, .swap .pf (2 ^ 32), .swap (.vf 0) 0,
   .clearTrip .pf (2 ^ 32) false, .clearTrip (.vf 0) 0 false, .lpeBankWrite .pf 0 0 (2 ^ 32),
   .lpeBankWrite (.vf 0) 0 0 0, .traceArm .pf (2 ^ 32), .traceArm (.vf 0) 0, .status ⟨[256], true⟩,
   .telemetry ⟨[256], true⟩, .sensors ⟨[256], true⟩, .errlog ⟨[256], true⟩, .errclr ⟨[256], true⟩,
   .identity ⟨[256], true⟩, .alertMask ⟨[256], true⟩, .resetDevice ⟨[256], true⟩, .boundaryScanInstruction (2 ^ 8) 0,
   .boundaryScanInstruction 0 (2 ^ 84), .dbgResp (256 :: List.replicate 194 7)]

/-- Commands with an operand outside its range. -/
def badOperands3 : List Instr :=
  [.dbgResp [], .dbgMem (2 ^ 64), .dbgCoreHalt (2 ^ 64), .dbgCoreResume (2 ^ 64), .blockSnap .pf 0 (2 ^ 32),
   .blockSnap (.vf 0) 0 0, .w1cWrite .pf 0 (2 ^ 32), .w1cWrite (.vf 0) 0 0, .registerWrite .pf 0 1 (2 ^ 64),
   .registerWrite (.vf 0) 0 1 0, .registerWrite .pf 0 3 0, .registerRead (.vf 0) 0 1, .registerRead .pf 0 3,
   .updateIr (2 ^ 8)]

/-- Commands of the same constructors with operands in range. -/
def goodOnes1 : List Instr :=
  [.railRampDone 0, .start 0, .railDischargeDone 0, .ov 0, .uv 0, .legComparatorTrip 0 0 false, .legUnpark 0 0,
   .capacityFinding 0, .fwWatchdogExpiry 0, .functionReach 1, .functionReachEnd 1, .frameStartRow 0, .winOpen 0,
   .winClose 0, .loopSample 0, .decStrobe 0, .planArmRow 0, .sadSync 0, .decPulseEnd 0,
   .doorbellRecordArrived 0 (List.replicate 64 7), .descriptorArrived 0 0 (List.replicate 64 7),
   .hostCompletionArrived 0 0 .data [], .completionTimeout 0 0, .nop 0 0, .fence 0 0, .loadTensor 0 0,
   .storeTensor 0 0, .tensorTransferStep 0 0 0, .runSection 0 0, .sectionRun 0 0 [], .trainStep 0 0,
   .trainCheckStep 0 0, .trainInitStep 0 0, .trainRunStep 0 0 [], .trainUpdateStep 0 0, .trainCommitStep 0 0,
   .solveQp 0 0, .readTrace 0 0, .readStats 0 0, .readCurves 0 0]

/-- Commands of the same constructors with operands in range. -/
def goodOnes2 : List Instr :=
  [.readMonitors 0 0, .recalRow 0 0, .tableWrite 0 0, .planStage 0, .planStageStep 0 [], .planArm 0, .fwChunk 0,
   .fwVerify 0, .fwActivate 0, .fwConfirm 0, .otpOptionWrite 0, .rngCtlEnable 0 0, .cplRingEnable 0 0 0,
   .ringEnable 0 0 0, .ringDisable 0 0 0, .ringResume 0 0 0, .ringStop 0 0 0, .useRangeEnable 0 0,
   .busMasterEnableChange 0 false, .unsupportedRequest 0 [], .msixUnmask 0 0, .streamPortLinkUp false 0,
   .streamPortLinkDown false 0, .streamFrameArrived 0 false 0 0 [], .hitExtraction 0 0, .hitExtractTimeout 0,
   .streamWindowTimeout 0, .windowFinal 0, .lockinVisitEnd 0 0 false false,
   .sweepEnd ⟨0, 256, List.replicate 256 65535, 0, 0⟩, .m0Sample 0 [], .monitorSample 0 [], .engineBiasLimit 0,
   .tier1Refresh 0 0, .tier2Refresh 0 0, .tier2MaintenanceWindow 0, .dimmAlert 0, .retentionCopyDone 0,
   .pathTxOpportunity 0, .ackReceived 0 []]

/-- Commands of the same constructors with operands in range. -/
def goodOnes3 : List Instr :=
  [.helloAckReceived 0 [], .decisionReceived 0 [], .aetFrameDiscard 0 [], .rtoExpiry 0, .giveupExpiry 0,
   .pfcReceived 0 [], .aetRxBufferLevel 0 false, .sadWordDelivery 0 0 false, .sadCfgWrite .pf 0 0,
   .urgentRequestAct 0, .lpeBankWrite .pf 0 0 0, .heartbeatTimeout 0, .boundaryScanInstruction 3 0,
   .controlCoreMemoryUe 0, .pwrLegRelease 0, .pwrCapWrite .pf 0, .railRetry ⟨[], true⟩, .hostResetWarm 0,
   .hostResetDevice 0, .strapStep 0 0 0, .strapRetry 0 0 0, .recoveryBundleChecked [], .blockResetGo .pf 0,
   .tier1Trained 0, .tframeReceived false [], .hwmSet .pf 0, .seamDrain 0, .vfEnableSet 0,
   .tlpErrorReceived .receiver [], .lauFreeze .pf 0, .lauUnfreeze .pf 0, .lauRollback .pf 0, .lauRebase .pf 0,
   .lauCkpt .pf 0, .sadSyncWrite .pf 0, .sadUrgWrite .pf 0, .swap .pf 0, .clearTrip .pf 0 false, .traceArm .pf 0,
   .status ⟨[], true⟩]

/-- Commands of the same constructors with operands in range. -/
def goodOnes4 : List Instr :=
  [.telemetry ⟨[], true⟩, .sensors ⟨[], true⟩, .errlog ⟨[], true⟩, .errclr ⟨[], true⟩, .identity ⟨[], true⟩,
   .alertMask ⟨[], true⟩, .resetDevice ⟨[], true⟩, .dbgResp (List.replicate 195 7), .dbgMem 0, .dbgCoreHalt 0,
   .dbgCoreResume 0, .blockSnap .pf 0 0, .w1cWrite .pf 0 0, .registerWrite .pf 0 1 0, .registerRead .pf 0 1,
   .updateIr 0]

/-- Each check on a unit refuses the term that breaks it, and such a command stops with a fault by name. -/
theorem test_wf_refuses_units : (badUnits1 ++ badUnits2 ++ badUnits3 ++ badUnits4).all (fun c => !c.unitOk && !c.wf) = true := by decide +kernel

/-- Each check on an operand refuses the term that breaks it. -/
theorem test_wf_refuses_operands : (badOperands1 ++ badOperands2 ++ badOperands3).all (fun c => !c.operandsOk && !c.wf) = true := by decide +kernel

/-- The checks accept operands in range. -/
theorem test_wf_accepts : (goodOnes1 ++ goodOnes2 ++ goodOnes3 ++ goodOnes4).all (fun c => c.wf) = true := by decide +kernel

/-- The command stops by name on a rail that does not exist. -/
theorem test_no_such_unit : exec (.ov 4) State.reset = .fault .noSuchUnit := rfl

/-! ### Images, records and devices that the tests share -/

def tEnt (ty p arg off len : Nat) : List Nat :=
  [ty, p, 0, 0] ++ leBytes 4 off ++ leBytes 4 len ++ leBytes 4 0 ++ leBytes 4 arg ++ leBytes 8 0 ++ leBytes 4 0
def tTab (o : Nat) (l : List (Nat × Nat × Nat × List Nat)) : List Nat :=
  match l with
  | [] => []
  | (ty, p, arg, b) :: r => tEnt ty p arg o b.length ++ tTab (o + b.length) r
def tImg (secs : List (Nat × Nat × Nat × List Nat)) : List Nat :=
  (List.replicate 6 0 ++ leBytes 2 secs.length ++ List.replicate 24 0 ++ [0, 1, 2] ++ List.replicate 29 0) ++ tTab (64 + 32 * secs.length) secs ++ (secs.map (fun s => s.2.2.2)).flatten
/-- plan record: len vars start flags fullof tiles -/
def tPlan (len start flags : Nat) : List Nat := leBytes 4 len ++ [1, start, flags, 0] ++ leBytes 2 0xFFFF ++ List.replicate 22 0
def tSlot (start len kind client tiles vu units first count : Nat) : List Nat :=
  leBytes 4 start ++ leBytes 4 len ++ [kind, 0] ++ leBytes 2 client ++ leBytes 2 tiles ++ [vu, units] ++ leBytes 4 first ++ leBytes 4 count ++ leBytes 8 0
def tItem (start dur op unit a b o : Nat) (ops : List Nat) : List Nat :=
  leBytes 4 start ++ leBytes 2 dur ++ [op, unit] ++ leBytes 2 a ++ leBytes 2 b ++ leBytes 2 o ++ leBytes 2 0 ++ (ops ++ List.replicate 16 0).take 16
def tBud (e : Nat) (pk : List Nat) : List Nat := leBytes 4 e ++ leBytes 4 0 ++ (pk.map (fun p => leBytes 2 p ++ [1, 0] ++ leBytes 4 0)).flatten
def on : Dev := { beat := 100, pw := { vaux := true, vin12 := true, vin12Seen := true, rails := [.up,.up,.up,.up] } }

/-- What a register reads on PF BAR0. -/
def reg (d : Dev) (addr : Nat) : Nat := (d.readReg .pf addr 4).1

/-- The device that a command leaves. -/
def after (c : Instr) (s : State) : Dev :=
  match exec c s with
  | .next t => t.dev
  | _ => {}

/-! ### Worked examples of the spec: the expected values stand in its text -/

/-- 24_register_map, Worked example: GLB_ID of a Sheir 16-42 at stepping B1. -/
def idDev : Dev := (((on.wr R.GLB_ID_VARIANT 2).wr R.GLB_ID_STEPPING 0xB1).wr R.GLB_ID_STACKS 4).wr R.GLB_ID_IODIES 2
theorem test_glb_id : reg idDev 0x10 = 0x0024B102 := by decide +kernel

/-- 03_power_stages, Worked example: L30 and L31 parked; the capacity of 23 VCORE legs is 431.25 W. -/
theorem test_leg_park : reg ((on.wri R.PWR_LEG_PARK 30 1).wri R.PWR_LEG_PARK 31 1) 0x20018 = 0xC0000000 := by decide +kernel

/-- 04_reset, Worked example: the strap step with CLK_MODE 0 and 156.25 MHz gives RST_STRAP 0x10. -/
def strapDev : Dev := { on with rst := { ep := some { start := 0, reach := .device, joined := 0x204, phase := .strap } } }
theorem test_strap : reg (after (.strapStep 0 0 1562500000) { dev := strapDev }) 0x10030 = 0x10 := by decide +kernel

/-- 04_reset, Worked example: the end of the widened episode gives RST_EPISODE 0x02040302. -/
def endDev : Dev :=
  { (on.wr R.RST_EPISODE_COUNT 2) with
    boot := { sel := some 0, wdog := .running }
    rst := { ep := some { start := 0, reach := .device, joined := 0x204, phase := .rom, h := 8250000 } } }
theorem test_episode_end : reg (after .episodeEnd { dev := endDev }) 0x10004 = 0x02040302 := by decide +kernel

/-- 04_reset, Worked example: nRST_IN falls in a WARM episode of PERST, which widens to DEVICE. -/
def widenDev : Dev :=
  { (on.wr R.RST_CAUSE 0x200) with
    rst := { nrstHigh := true, ep := some { start := 0, reach := .warm, joined := 0x200, phase := .hold } } }
theorem test_widen : ((after (.nrstInRecognised false) { dev := widenDev }).rst.ep =
    some { start := 0, reach := .device, joined := 0x204, phase := .hold }) ∧
    reg (after (.nrstInRecognised false) { dev := widenDev }) 0x10000 = 0x204 := by decide +kernel

/-- 05_boot_update, Worked example: RST_HOST_CMD = 0x800001A5 is a WARM source; not under another key. -/
theorem test_host_cmd : ((after (.hostResetWarm 0x800001A5) { dev := on }).rst.ep.map (·.reach) = some .warm) ∧
    (after (.hostResetWarm 0x800001A4) { dev := on }).rst.ep = none := by decide +kernel

/-- 05_boot_update, Worked example: BTP_STATUS in the trial boot of slot B. -/
def trialDev : Dev :=
  ((((on.wr R.BTP_STATUS_STEP 3).wr R.BTP_STATUS_BOOTED 1).wr R.BTP_STATUS_TRIAL 1).wr R.BTP_STATUS_TRIALS_USED 1).wr
    R.BTP_STATUS_FW_READY 1
theorem test_btp_status : reg trialDev 0x50000 = 0x000100D3 := by decide +kernel

/-- 06_first_second, Worked example: GLB_START and GLB_START_TIME at READY, 800 ms after the origin. -/
def readyDev : Dev :=
  ((((on.wr R.BTP_STATUS_FW_READY 1).wr R.GLB_START_T1_TRAINED 1).wr R.GLB_START_T2_DONE 1).wr R.GLB_START_OPT_STAGE 4).wr
    R.GLB_START_TIME_FW_READY_MS 180
theorem test_ready : (after (.readySet 800) { dev := readyDev.wr R.GLB_START_STARTUP_TL 1 }).rd R.GLB_START_READY = 1 ∧
    reg (after (.readySet 800) { dev := readyDev.wr R.GLB_START_STARTUP_TL 1 }) 0x44 = 0x032000B4 := by decide +kernel

/-- 09_orchard, Worked example: the dot product -850 gives the ideal code -53 at S = 4 and 0 at S = 11. -/
theorem test_tile_code : dotProduct ([1, 0, 0, 0] ++ List.replicate 12 0 ++ [100, 206] ++ List.replicate 62 0) 0
    ([codeD 1 6 2, codeD 1 6 15] ++ List.replicate 62 (codeD 1 6 6)) = -850 ∧
    convertRow (-850) 4 0 = (-53, false) ∧ convertRow (-850) 11 0 = (0, false) := by decide +kernel

/-- 11_quantisation, Worked example, One tensor: the shifts found. -/
def qDesc : Desc :=
  { fmt := 0, tie := false, zp := 0, outlier := 2, headroom := 1, b32 := false, nearest := true, vary := false, salt := 0 }
def qIn : List FV := (List.range 64).map (fun i =>
  f16.decode (if i = 5 then 0x4680 else if i = 12 then 0xBA00 else if i = 20 then 0x3680 else if i = 27 then 0xC200 else 0))
theorem test_scan : scaleSearch qDesc qIn = (([-2, -24] : List Int), 0) := by decide +kernel

/-- The same example with nearest rounding, for which the text gives element 20 the code 2: the whole token. -/
theorem test_quant : (quantise qDesc 0 [-2, -24] 0 qIn).bytes =
    [0, 0, 0x80, 0, 0, 0, 0x0D, 0, 0, 0, 0x02, 0, 0, 0x90] ++ List.replicate 18 0 ++
    (leBytes 4 64 ++ leBytes 4 1 ++ leBytes 4 1 ++ leBytes 4 1 ++ leBytes 4 0 ++ leBytes 4 0 ++ [0xE8, 0xFE, 0, 0] ++
      leBytes 4 0) ++ [1, 0] ++ [0x80, 0x46, 0, 0] := by decide +kernel

/-- With g = 0x31C49A0E element 20 takes the code 1 (R514). -/
theorem test_quant_stochastic : (convert qDesc (f16.decode 0x3680) (-2) 0x31C49A0E true).code = 1 := by decide +kernel

/-- The expansion of that token (R529): 6.5 from the side list and -0.75. -/
theorem test_expand : ((expand qDesc (quantise qDesc 0 [-2, -24] 0 qIn).bytes [-2, -24] 64).1.map f16.encode).take 13 =
    [0, 0, 0, 0, 0, 0x4680, 0, 0, 0, 0, 0, 0, 0xBA00] := by decide +kernel

/-- 13_host_link, Worked example: 64 KiB take 264 beats of one HDMA step (14, RUN of the LOAD step). -/
theorem test_move_step : moveStep 300 65536 = (264, 65536) := by decide +kernel

/-- 16_coincidence_lau, Worked example: the trace 90 of age 3 halvings rises to 28; acc 40 is the feature 0.625. -/
def coHead : List Nat := List.replicate 20 0 ++ [10, 16, 32, 0] ++ List.replicate 40 0
theorem test_trace : traceNext coHead 90 0x1230 0x1290 0xC0000000 1 = (28, 0x1290) := by decide +kernel
theorem test_feature : featureOf coHead 40 = (0x3900, false) := by decide +kernel

/-- The same example: a step of 4.6875 with row word 0x2A3B4C5D is 4. -/
theorem test_delta : ruDelta [4, 1, 0, 255, 0, 0, 0xFF, 0x0F, 64, 0, 4, 0] { hits := 1, co := 1, e := 300, feature := true }
    28 0x2A3B4C5D = 4 := by decide +kernel

/-- 19_sensing_adc, Worked example, One word: the corrected code and the left- and right-aligned words. -/
theorem test_sad_word : sadCode true 0x123456 (-1024) 8392704 = (1192604, false) ∧
    resultWord true 1192604 (wordFlags false false true false false 0) = 0x12329C04 ∧
    resultWord false 1192604 (wordFlags false false true false false 0) = 0x0412329C := by decide +kernel

/-- 19_sensing_adc, Worked example, Timing: word 11 of converter 0 is delivered at beat 68,758. -/
def pairDev : Dev := (on.wri R.SAD_CFG_OSR 0 2).wri R.SAD_CFG_PAIR 0 1
theorem test_sad_due : pairDev.wordInstant 0 21 0 = 68750 ∧ pairDev.wordDue 0 21 0 = 68758 ∧ pairDev.wordDue 0 22 0 = 71883 ∧
    pairDev.wordDue 0 23 0 = 75008 := by decide +kernel

/-- 20_loop_engine, Worked example: the DAC words of the outputs 0x08000000 and 0x09000000. -/
def drv : List Nat := [24, 4, 16, 1, 5, 2, 3, 0] ++ leBytes 4 0x00300000 ++ List.replicate 20 0
theorem test_spi : spiWord drv 0x08000000 = 0x00388000 ∧ spiWord drv 0x09000000 = 0x00389000 := by decide +kernel

/-- The same example: m = 0.0625 is u_law 0x08000000. -/
theorem test_move : moveLaw 0x3D800000 = 0x08000000 := by decide +kernel

/-- 21_qp_solver, Worked example: T_min is 6,843 beats and the section 3,664 bytes. -/
def qpHead : List Nat :=
  leBytes 2 40 ++ leBytes 2 80 ++ leBytes 2 20 ++ [0, 0xFF] ++ leBytes 4 60 ++ leBytes 4 200 ++ leBytes 4 600 ++
    leBytes 4 2400 ++ leBytes 2 100 ++ leBytes 2 0 ++ [1, 2] ++ List.replicate 14 0 ++ leBytes 4 11492 ++ List.replicate 16 0 ++
    List.replicate 320 0 ++ (List.replicate 20 [1, 0, 0, 0, 0, 0, 0, 0]).flatten
theorem test_qp_min : qpMin qpHead = 6843 ∧ qpEnd qpHead = 3664 := by decide +kernel

/-- 22_retune, Worked example: the code 37 becomes 36, and an initialise step of 88 beats covers 16,384 elements. -/
def tiHead : List Nat :=
  List.replicate 8 0 ++ leBytes 4 0x3F000000 ++ leBytes 4 0x3F600000 ++ leBytes 4 0x3F700000 ++ leBytes 4 0x35800000 ++
    List.replicate 40 0
theorem test_update : (let x := updateElem tiHead 8 (f32.decode 0x40200000) (.fin false 0 0) (.fin false 0 0) 37
    newCode x.2.2.1 x.2.2.2 0x20000000) = (36, false, false) := by decide +kernel
theorem test_elem_step : elemStep 256 212 16384 = some (88, 16384) ∧ elemStep 128 300 16384 = some (152, 16384) := by
  decide +kernel

/-- 23_supervision, Worked example: the status record. -/
def hotDev : Dev :=
  ((((((((on.wr R.RST_CAUSE 0).wr R.BTP_STATUS_FW_READY 1).wr R.GLB_START_READY 1).wr R.MGT_STATUS_ALERT 1).wr R.THM_STATUS_STATE 2).wr
    R.RST_EPISODE_REACH 1).wr R.SEQ_STATUS_STATE 3).wr R.RAS_SUM 0x80).wr R.THM_STATUS_T 840
theorem test_status_record : hotDev.statusRecord =
    [0x23, 0, 2, 0, 0, 0, 1, 3, 0, 0, 0, 0, 0x80, 0, 0x48, 3] := by decide +kernel

/-- The published check value of CRC-32C, over the digits 1 to 9 (log entry 10). -/
theorem test_crc32c : crc32c [0x31, 0x32, 0x33, 0x34, 0x35, 0x36, 0x37, 0x38, 0x39] = 0xE3069283 := by decide +kernel

/-- 07_phase_timebase, Worked example: the positions of row 0 (DIV 2,000) are 0, 8,389, ...; of row 2 first 0x1C00; the
firing span of a reverse or forward crossing holds one position. -/
def startRow : List Nat := [0, 0, 0, 1] ++ leBytes 2 2000 ++ [1, 0, 0, 0, 0, 0] ++ leBytes 4 0
theorem test_positions : rowUpTo startRow 0 = 1 ∧ rowUpTo startRow 8388 = 1 ∧ rowUpTo startRow 8389 = 2 ∧
    rowsIn startRow (1000 * 2 ^ 24 + 8388) (1000 * 2 ^ 24 + 8389) = 1 := by decide +kernel

/-- The same example: the fraction stops at 0xA3F after count 40 of cycle 1,000. -/
def cadDev : Dev :=
  { (((on.wr R.CAD_ENC_N 262144).wr R.CAD_ENC_POS 40).wr R.CAD_STATUS_ENC_VALID 1) with
    beat := 782
    cad := { src := 1, acq := true, encMarks := [763, 744], encBeat := 763, encCycle := 1000,
             srcs := [{}, { motion := 0 }, {}, {}] } }
theorem test_interpolation : cadDev.srcWord 1 = 1000 * 2 ^ 24 + 0xA3F := by decide +kernel

/-- 12_memory, Worked example: channel 1 of I/O die 1 spans 0x14000000000 to 0x17FFFFFFFFF. -/
theorem test_channel : channelAt 0x14000000000 = 5 ∧ channelAt 0x17FFFFFFFFF = 5 ∧ channelAt 0x13FFFFFFFFF = 4 := by
  decide +kernel

/-- 10_holding_calibration, Worked example: the second M0 sample of line 17 below 2.0 mW flags it lost. -/
def litDev : Dev :=
  let d : Dev := ((on.wr R.GLB_START_OPT_STAGE 4).wri R.OPT_ENG_ON 0 1).wri R.OPT_ENG_ON 1 1
  { d with cal := { d.cal with m0Run := [(17, 1)] } }
def lostDev : Dev :=
  after (.m0Sample 0 (List.replicate 17 5000 ++ [300] ++ List.replicate 48 5000)) { dev := litDev }
theorem test_lost_line : reg litDev 0x80000 = 0x101 ∧ reg lostDev 0x80000 = 0x105 ∧ reg lostDev 0x90010 = 0x01117F7F := by
  decide +kernel

/-- 03_power_stages, Worked example: with L7 latched 23 legs give 431.25 W, below 440 W and above 300 W. -/
theorem test_capacity : (on.wri R.PWR_LEG_LATCH 7 1).capacity 0 = 431250 ∧
    (on.wri R.PWR_LEG_LATCH 7 1).overCapacity (tBud 6100000 [4400, 700, 660, 480]) 0 = true ∧
    (on.wri R.PWR_LEG_LATCH 7 1).overCapacity (tBud 4200000 [3000, 700, 660, 420]) 0 = false := by decide +kernel

/-- 15_stream_ingress, Worked example: a link up in E200, window 812 closed with status 0x04 and stamps in sync. -/
def stpDev : Dev :=
  (((on.wri R.STP_STATUS_LINK 3 2).wri R.STP_STATUS_MODE 3 2).wri R.STP_STATUS_SYNC 3 1).wri R.STP_STATUS_LAST 3 4
theorem test_stp_status : reg stpDev 0xE0160 = 0x48A := by decide +kernel

/-! ### Witnesses of the statements -/

/-- Obligations.StepRunsFrontCommand: a state whose queue is empty. -/
theorem witness_StepRunsFrontCommand : State.reset.pending = [] := rfl

/-- Obligations.SourceStartsEpisode: a device in no episode, and a level source that is not a rail or thermal fault. -/
theorem witness_SourceStartsEpisode : on.rst.ep = none ∧ true = true ∧ Src.pin ≠ .regFault ∧ Src.pin ≠ .therm := by decide

/-- Obligations.EpisodeWidens: a device in an episode. -/
theorem witness_EpisodeWidens : widenDev.rst.ep = some { start := 0, reach := .warm, joined := 0x200, phase := .hold } := by
  decide

/-- Non-volatile memories with a programmed flash byte and the identity of a Sheir 16-42. -/
def nvAt : Nv := { flash := [(0x20000, 5)], otp := [(16, 2), (17, 0xB1)] }

/-- Obligations.NvChangedBySevenCommands: a command that answers a next state. -/
theorem witness_NvChangedBySevenCommands : exec .inputOc { nv := nvAt } = .next { nv := nvAt } := rfl

/-- Obligations.OtpNeverUnburns: a step that answers a next state, with a burned bit. -/
theorem witness_OtpNeverUnburns : step { nv := nvAt, pending := [.inputOc] } = .next { nv := nvAt } ∧
    nvAt.burned 17 7 = true := ⟨rfl, by decide⟩

/-- Obligations.NvCanonicalKept: a canonical state whose step answers a next state. -/
theorem witness_NvCanonicalKept : nvAt.canonical = true ∧
    step { nv := nvAt, pending := [.inputOc] } = .next { nv := nvAt } := ⟨by decide, rfl⟩

/-- Obligations.EveryCommandAnswers: a command that names units of the block, and one that does not. -/
theorem witness_EveryCommandAnswers : Instr.unitOk (.ov 3) = true ∧ Instr.unitOk (.ov 4) = false := by decide


namespace Power

def up1 : Dev := { on with pw := { on.pw with rails := [.ramping, .off, .off, .off], seq := .rising false }, rst := { ep := some { start := 3, reach := .full, joined := 1, phase := .softStart } } }
def up4 : Dev := { up1 with pw := { on.pw with rails := [.up, .up, .ramping, .up], seq := .rising false } }
def dn : Dev := { on with pw := { on.pw with rails := [.up, .up, .discharging, .up], seq := .falling } }
def dn0 : Dev := { on with pw := { on.pw with rails := [.discharging, .off, .off, .off], seq := .falling }, rst := { ep := some { start := 3, reach := .full, joined := 1, phase := .softStart } } }

def wSupplyEvents1 : State := { dev := {rst := {nrstHigh := false}} }
def wSupplyEvents2 : State := { dev := on }
def wRailSequence1 : State := { dev := up1 }
def wRailSequence2 : State := { dev := dn }
def wRailSequence3 : State := { dev := {on with pw := {on.pw with retry := some 1}, rst := {asserted := [.regFault]}} }
def wRailFaults1 : State := { dev := on }
def wRailFaults2 : State := { dev := up1 }
def wRailFaults3 : State := { dev := up1 }
def wRailFaults4 : State := { dev := {} }
def wLegFaults1 : State := { dev := on }
def wLegFaults2 : State := { dev := {on with pw := {on.pw with lastCycle := [6], consec := [2], rebalancing := [0]}} }
def wLegFaults3 : State := { dev := ({on with pw := {on.pw with lastCycle := [6], consec := [2], rebalancing := [0]}}).wri R.PWR_LEG_PARK 4 1 }
def wLegFaults4 : State := { dev := ({on with pw := {on.pw with lastCycle := [6], consec := [2], rebalancing := [0]}}).wri R.PWR_LEG_LATCH 4 1 }
def wPowerRegisters1 : State := { dev := on.wr R.PWR_CAP_LOCK 1 }

/-- States and operands that meet the hypotheses of each clause of Obligations.SupplyEvents. -/
theorem witness_SupplyEvents :
    (wSupplyEvents2.dev.pw.vin12 = true ∧ wSupplyEvents2.dev.pw.vaux = true ∧ wSupplyEvents2.dev.pw.vin12Seen = true) ∧
    (wSupplyEvents1.dev.pw.vaux = false) := by
  decide +kernel

/-- States and operands that meet the hypotheses of each clause of Obligations.RailSequence. -/
theorem witness_RailSequence :
    (0 < 4 ∧ wRailSequence1.dev.pw.rails.length = 4 ∧ wRailSequence1.dev.rail 0 = RailState.ramping) ∧
    (2 < 4 ∧ wRailSequence2.dev.pw.rails.length = 4 ∧ wRailSequence2.dev.rail 2 = RailState.discharging) ∧
    (0 < 4 ∧ wRailSequence3.dev.pw.rails.length = 4 ∧ wRailSequence3.dev.railsUp = true ∧
      wRailSequence3.dev.pw.retry.isSome = true) := by
  decide +kernel

/-- States and operands that meet the hypotheses of each clause of Obligations.RailFaults. -/
theorem witness_RailFaults :
    (1 < 4 ∧ wRailFaults3.dev.allDown = false) ∧
    (1 < 4 ∧ wRailFaults3.dev.rail 1 = RailState.off) ∧
    (1 < 4 ∧ (wRailFaults1.dev.rail 1 = RailState.up ∨ wRailFaults1.dev.rail 1 = RailState.ramping)) ∧
    (1 < 4 ∧ wRailFaults1.dev.rail 1 = RailState.up) ∧
    (0 < 4 ∧ wRailFaults2.dev.rail 0 = RailState.ramping) ∧
    (3 < 4 ∧ wRailFaults4.dev.allDown = true) := by
  decide +kernel

/-- States and operands that meet the hypotheses of each clause of Obligations.LegFaults. -/
theorem witness_LegFaults :
    ((0 < 34 ∧ 0 < 4 ∧ wLegFaults2.dev.isSeti R.PWR_LEG_LATCH 0 = false ∧
       wLegFaults2.dev.isSeti R.PWR_LEG_PARK 0 = false ∧ wLegFaults2.dev.rail (railOf 0) ≠ RailState.off ∧
       wLegFaults2.dev.shortPartner 0 = none ∧ 1 < wLegFaults2.dev.inService (railOf 0) ∧
       nth 0 wLegFaults2.dev.pw.lastCycle 0 + 1 = 7 ∧ nth 0 wLegFaults2.dev.pw.lastCycle 0 ≠ 0 ∧
       nth 0 wLegFaults2.dev.pw.consec 0 = 2) ∧
     (0 < 34 ∧ 0 < 4 ∧ 0 ∈ wLegFaults2.dev.pw.rebalancing ∧ wLegFaults2.dev.planActive = false) ∧
     (3 < 34 ∧ 0 < 4 ∧ wLegFaults1.dev.isSeti R.PWR_LEG_LATCH 3 = false ∧
       wLegFaults1.dev.isSeti R.PWR_LEG_PARK 3 = false ∧ wLegFaults1.dev.rail (railOf 3) ≠ RailState.off ∧
       wLegFaults1.dev.shortPartner 3 = none ∧ nth 0 wLegFaults1.dev.pw.lastCycle 3 + 2 ≤ 7) ∧
     (4 < 34 ∧ 0 < 4 ∧ railOf 4 ∈ wLegFaults3.dev.pw.rebalancing ∧ wLegFaults3.dev.isSeti R.PWR_LEG_PARK 4 = true)) ∧
    (4 < 34 ∧ 0 < 4 ∧ wLegFaults4.dev.running = true ∧ wLegFaults4.dev.lostWrite 131104 = false ∧
      bitAt 2147483652 31 = true ∧ bits 2147483652 0 6 = 4 ∧ wLegFaults4.dev.isSeti R.PWR_LEG_LATCH 4 = true ∧
      wLegFaults4.dev.retired 4 = false) :=
  ⟨by decide +kernel, by decide +kernel⟩

/-- States and operands that meet the hypotheses of each clause of Obligations.PowerRegisters. -/
theorem witness_PowerRegisters :
    (wPowerRegisters1.dev.planActive = false) ∧
    (masterVf Master.pf = false ∧ masterHost Master.pf = true ∧ wPowerRegisters1.dev.lostWrite 131120 = false ∧
      wPowerRegisters1.dev.rd R.PWR_CAP_LOCK = 1) := by
  decide +kernel

end Power

namespace Capacity

def bimg := tImg [(5,0,0,tBud 5 [3000,3000,3000,3000]), (5,1,0, tBud 1 [100,100,100,100]), (1,0,0,tPlan 1000 0 0)]
def pa (d : Dev) : Dev := { (d.wr R.SEQ_STATUS_ACTIVE 1) with sq := { d.sq with active := bimg, plan := 0, actForms := [0,1,1] } }

def wPowerRegisters1 : State := { dev := pa on }
def wCapacityShortfall1 : State := { dev := (({pa on with pw := {on.pw with rebalancing := [2]}}).wri R.PWR_LEG_LATCH 28 1) }
def wCapacityShortfall2 : State := { dev := ({pa on with pw := {on.pw with rebalancing := [0]}}).wri R.PWR_LEG_LATCH 3 1 }

/-- States and operands that meet the hypotheses of each clause of Obligations.CapacityShortfall. -/
theorem witness_CapacityShortfall :
    (2 < 4 ∧ 2 ∈ wCapacityShortfall1.dev.pw.rebalancing ∧ wCapacityShortfall1.dev.planActive = true ∧
      wCapacityShortfall1.dev.safeRuns = false ∧ wCapacityShortfall1.dev.isSet R.SEQ_STATUS_SAFE_PENDING = false ∧
      wCapacityShortfall1.dev.overCapacity (planBudget wCapacityShortfall1.dev.sq.active wCapacityShortfall1.dev.sq.plan) 2 = true ∧
      wCapacityShortfall1.dev.safeShortRail = none) ∧
    (0 < 4 ∧ 0 ∈ wCapacityShortfall2.dev.pw.rebalancing ∧ wCapacityShortfall2.dev.planActive = true ∧
      wCapacityShortfall2.dev.safeRuns = false ∧ wCapacityShortfall2.dev.isSet R.SEQ_STATUS_SAFE_PENDING = false ∧
      wCapacityShortfall2.dev.overCapacity (planBudget wCapacityShortfall2.dev.sq.active wCapacityShortfall2.dev.sq.plan) 0 = false) := by
  decide +kernel

/-- States and operands that meet the hypotheses of each clause of Obligations.PowerRegisters. -/
theorem witness_PowerRegisters_Capacity :
    (masterVf Master.pf = false ∧ wPowerRegisters1.dev.running = true ∧
      (masterHost Master.pf = true → wPowerRegisters1.dev.lostWrite 131120 = false) ∧
      wPowerRegisters1.dev.rd R.PWR_CAP_LOCK = 0) ∧
    (wPowerRegisters1.dev.planActive = true ∧
      11 * budEIn (planBudget wPowerRegisters1.dev.sq.active wPowerRegisters1.dev.sq.plan) * 250000 < 10 * 4 * 1000 * planLen wPowerRegisters1.dev.sq.active wPowerRegisters1.dev.sq.plan) := by
  decide +kernel

end Capacity

namespace Sources

def ep (r : Reach) (p : EpPhase) : Rst := { ep := some {start := 7, reach := r, joined := 4, phase := p} }
def p0 (r : Reach) (p : EpPhase) : Episode := {start := 7, reach := r, joined := 4, phase := p}
def oslot (g : Nat) : List Nat := let b := leBytes 2 0x4F70 ++ leBytes 2 g ++ leBytes 2 (65535-g) ++ List.replicate 246 0; b ++ leBytes 4 (crc32c b)
def onv : Nv := { otp := mputs 0 (mputs 0 [] (0x800+256) (oslot 4)) (0x800+1024) (oslot 4) }

def wResetSources1 : State := { dev := on }
def wResetSources2 : State := { dev := {on with rst := {perstSeen := true}, boot := {wdog := .running, cores := true}, mgt := {resetDue := true}} }
def wResetSources3 : State := { dev := ({on with rst := {ep .warm .romWait with perstSeen := true, opt := [0,0,0,0,0,0,0,0,1]}, boot := {wdog := .running, cores := true}, mgt := {resetDue := true}}).wr R.BTP_SEAL 1 }
def wResetSources4 : State := { dev := {on with rst := {opt := [0,0,0,0,0,0,0,0,8]}} }
def wLinkResets1 : State := { dev := on }
def wLinkResets2 : State := { dev := ({on with rst := {opt := [0,0,0,0,0,0,0,0,2], hot := some .inReset}, hif := {dlSeen := true}}).wr R.HIF_LINK_DL_UP 1 }
def wLinkResets3 : State := { dev := ({on with rst := {opt := [0,0,0,0,0,0,0,0,6], hot := some .inReset}, hif := {dlSeen := true}}).wr R.HIF_LINK_DL_UP 1 }
def wExitSequence1 : State := { dev := {on with rst := ep .warm .hold} }
def wExitSequence2 : Episode := p0 .warm .hold
def wExitSequence3 : State := { dev := {on with rst := {ep .device .hold with asserted := [.pin]}} }
def wExitSequence4 : Episode := p0 .device .hold
def wExitSequence5 : State := { dev := {on with rst := ep .device .otp} }
def wExitSequence6 : Episode := p0 .device .otp
def wExitSequence7 : State := {dev := {on with rst := ep .device .otp}, nv := onv}
def wExitSequence8 : Episode := p0 .device .otp
def wExitSequence9 : State := { dev := {on with rst := ep .device .strap} }
def wExitSequence10 : Episode := p0 .device .strap
def wExitSequence11 : State := { dev := ({on with rst := {ep .device .strapHalted with refWatch := true}}).wr R.GLB_ID_VARIANT 2 }
def wExitSequence12 : Episode := p0 .device .strapHalted
def wExitSequence13 : State := { dev := {on with rst := {refWatch := true}} }

/-- States and operands that meet the hypotheses of each clause of Obligations.ResetSources. -/
theorem witness_ResetSources :
    ((wResetSources2.dev.pw.vaux = true ∧ Src.pin ∉ wResetSources2.dev.rst.asserted) ∧
     (wResetSources2.dev.pw.vaux = true ∧ Src.perst ∉ wResetSources2.dev.rst.asserted ∧
       wResetSources2.dev.rst.perstSeen = true) ∧
     (wResetSources2.dev.running = true ∧ wResetSources2.dev.lostWrite 65552 = false ∧ bitAt 2147484325 31 = true ∧
       wResetSources2.dev.optBit 8 3 = false ∧ bits 2147484325 0 8 = 165 ∧ bits 2147484325 8 2 = 2) ∧
     (wResetSources2.dev.boot.wdog = Wdog.running) ∧
     (wResetSources2.dev.mgt.resetDue = true) ∧
     (wResetSources1.dev.pw.vaux = true ∧ Src.perst ∉ wResetSources1.dev.rst.asserted ∧
       wResetSources1.dev.rst.perstSeen = false) ∧
     (wResetSources1.dev.running = true ∧ wResetSources1.dev.lostWrite 65552 = false ∧ bitAt 2147484069 31 = true ∧
       wResetSources1.dev.optBit 8 3 = false ∧ bits 2147484069 0 8 = 165 ∧ bits 2147484069 8 2 = 1) ∧
     (wResetSources1.dev.mgt.resetDue = false)) ∧
    ((2 < 4 ∧ wResetSources3.dev.isSet R.BTP_SEAL = true ∧ wResetSources3.dev.boot.cores = true ∧
       bitAt (wResetSources3.dev.rd R.MGT_DBG_HALTED) 2 = false) ∧
     (wResetSources4.dev.running = true ∧ wResetSources4.dev.lostWrite 65552 = false ∧ bitAt 2147484069 31 = true ∧
       (wResetSources4.dev.optBit 8 3 = true ∨ bits 2147484069 0 8 ≠ 165 ∨ bits 2147484069 8 2 = 0 ∨ bits 2147484069 8 2 = 3))) :=
  ⟨by decide +kernel, by decide +kernel⟩

/-- States and operands that meet the hypotheses of each clause of Obligations.LinkResets. -/
theorem witness_LinkResets :
    (wLinkResets1.dev.pw.vaux = true ∧ wLinkResets1.dev.optBit 8 1 = false ∧ wLinkResets1.dev.rst.ep = none) ∧
    (wLinkResets1.dev.isSet R.HIF_LINK_DL_UP = false) ∧
    (wLinkResets2.dev.pw.vaux = true ∧ wLinkResets2.dev.optBit 8 1 = true) ∧
    (wLinkResets2.dev.isSet R.HIF_LINK_DL_UP = true ∧ wLinkResets2.dev.hif.dlSeen = true ∧
      wLinkResets2.dev.optBit 8 2 = false ∧ wLinkResets2.dev.rst.ep = none) ∧
    (wLinkResets3.dev.isSet R.HIF_LINK_DL_UP = true ∧ wLinkResets3.dev.hif.dlSeen = true ∧
      wLinkResets3.dev.optBit 8 2 = true) := by
  decide +kernel

/-- States and operands that meet the hypotheses of each clause of Obligations.ExitSequence. -/
theorem witness_ExitSequence :
    ((wExitSequence1.dev.rst.ep = some wExitSequence2 ∧ wExitSequence2.phase = EpPhase.hold ∧
       wExitSequence1.dev.rst.asserted = [] ∧ wExitSequence2.reach ≠ Reach.full) ∧
     (wExitSequence1.dev.rst.refWatch = false) ∧
     (ioDiesOf wExitSequence1.dev.variant = 1) ∧
     (wExitSequence11.dev.rst.ep = some wExitSequence12 ∧ wExitSequence12.phase = EpPhase.strapHalted) ∧
     (wExitSequence11.dev.rst.ep = some wExitSequence12 ∧ wExitSequence12.reach ≠ Reach.warm ∧
       wExitSequence12.phase ≠ EpPhase.hold ∧ wExitSequence11.dev.rst.refWatch = true) ∧
     (ioDiesOf wExitSequence11.dev.variant = 2) ∧
     (wExitSequence3.dev.rst.ep = some wExitSequence4 ∧ wExitSequence4.phase = EpPhase.hold ∧
       wExitSequence3.dev.rst.asserted ≠ []) ∧
     (wExitSequence5.dev.rst.ep = some wExitSequence6 ∧ wExitSequence6.phase = EpPhase.otp ∧
       (∀ i < 8, optValid (optSlot wExitSequence5.nv i) = false)) ∧
     (wExitSequence7.dev.rst.ep = some wExitSequence8 ∧ wExitSequence8.phase = EpPhase.otp ∧ 1 < 8 ∧
       optValid (optSlot wExitSequence7.nv 1) = true ∧
       (∀ j < 8, optValid (optSlot wExitSequence7.nv j) = true → optGen (optSlot wExitSequence7.nv j) ≤ optGen (optSlot wExitSequence7.nv 1) ∧
       (optGen (optSlot wExitSequence7.nv j) = optGen (optSlot wExitSequence7.nv 1) → 1 ≤ j))) ∧
     (wExitSequence9.dev.rst.ep = some wExitSequence10 ∧ wExitSequence10.phase = EpPhase.strap)) ∧
    (wExitSequence13.dev.rst.ep = none ∧ wExitSequence13.dev.rst.refWatch = true) :=
  ⟨by decide +kernel, by decide +kernel⟩

end Sources

namespace Boot

def ep' (r : Reach) (p : EpPhase) : Rst := { ep := some {start := 7, reach := r, joined := 4, phase := p} }
def p0' (r : Reach) (p : EpPhase) : Episode := {start := 7, reach := r, joined := 4, phase := p}

def wBootRomAndHandOver1 : State := { dev := {on with rst := ep' .warm .romWait} }
def wBootRomAndHandOver2 : State := { dev := ({on with rst := ep' .warm .romWait}).wr R.RST_STRAP_BOOT_SRC 1 }
def wBootRomAndHandOver3 : State := { dev := ({on with rst := {ep' .warm .rom with asserted := [.pin]}}).wr R.RST_STRAP_BOOT_SRC 2 }
def wBootRomAndHandOver4 : Episode := p0' .warm .rom
def wBootRomAndHandOver5 : State := { dev := ({on with rst := ep' .warm .rom, boot := {sel := some 0}}).wr R.RST_STRAP_BOOT_SRC 2 }
def wBootRomAndHandOver6 : Episode := p0' .warm .rom
def wBootRomAndHandOver7 : State := { dev := ({on with rst := ep' .warm .rom, boot := {sel := some 0}}).wr R.BTP_STATUS_STEP 4 }
def wBootRomAndHandOver8 : State := { dev := ({on with rst := ep' .warm .rom, boot := {rcvBusy := true}}).wr R.BTP_STATUS_STEP 4 }
def wBootStageAndFirmware1 : State := { dev := ({on with boot := {wdog := .running, sel := some 1}}).wr R.BTP_STATUS_STEP 1 }
def wBootStageAndFirmware2 : State := { dev := ({on with rst := {opt := [0,0,0,0,0,0,0,0,0,0,1]}, boot := {wdog := .running, sel := some 1}}).wr R.BTP_STATUS_STEP 3 }
def wBootRecords1 : State := { dev := ({on with boot := {wdog := .running, sel := some 1, fallbackDue := true, cores := true}}).wr R.BTP_STATUS_STEP 3 }
def wBootRecords2 : State := { dev := (({on with rst := {opt := [0,0,0,0,0,0,0,0,0,1,1]}}).wr R.BTP_STATUS_TRIAL 1).wr R.GLB_START_READY 1 }

/-- States and operands that meet the hypotheses of each clause of Obligations.BootRomAndHandOver. -/
theorem witness_BootRomAndHandOver :
    (wBootRomAndHandOver1.dev.epPhase = some EpPhase.romWait ∧ true = true ∧
      wBootRomAndHandOver1.dev.rd R.RST_STRAP_BOOT_SRC ≠ 2) ∧
    (wBootRomAndHandOver1.dev.rd R.BTP_STATUS_STEP ≠ 4) ∧
    (wBootRomAndHandOver2.dev.epPhase = some EpPhase.romWait ∧
      (wBootRomAndHandOver2.dev.rd R.RST_STRAP_BOOT_SRC = 2 ∨ false = false ∧
      wBootRomAndHandOver2.dev.rd R.RST_STRAP_BOOT_SRC = 1)) ∧
    (wBootRomAndHandOver3.dev.rst.ep = some wBootRomAndHandOver4 ∧ wBootRomAndHandOver3.dev.rst.asserted ≠ []) ∧
    (wBootRomAndHandOver5.dev.rst.ep = some wBootRomAndHandOver6 ∧ wBootRomAndHandOver6.phase = EpPhase.rom ∧
      wBootRomAndHandOver5.dev.rst.asserted = [] ∧ wBootRomAndHandOver5.dev.rst.refLost = false ∧
      wBootRomAndHandOver5.dev.rd R.BTP_STATUS_STEP = 0 ∧ wBootRomAndHandOver5.dev.boot.sel.isSome = true) ∧
    (wBootRomAndHandOver7.dev.rd R.BTP_STATUS_STEP = 4 ∧ wBootRomAndHandOver7.dev.boot.rcvBusy = false) ∧
    (wBootRomAndHandOver8.dev.rd R.BTP_STATUS_STEP = 4 ∧ wBootRomAndHandOver8.dev.boot.rcvBusy = true) := by
  decide +kernel

/-- States and operands that meet the hypotheses of each clause of Obligations.BootStageAndFirmware. -/
theorem witness_BootStageAndFirmware :
    (wBootStageAndFirmware1.dev.rd R.BTP_STATUS_STEP = 1 ∧ wBootStageAndFirmware1.dev.rst.ep = none ∧
      wBootStageAndFirmware1.dev.boot.wdog = Wdog.running) ∧
    ((wBootStageAndFirmware1.dev.rd R.BTP_STATUS_STEP ≠ 3 ∨ wBootStageAndFirmware1.dev.fwReady = true ∨ wBootStageAndFirmware1.dev.boot.fallbackDue = true)) ∧
    (wBootStageAndFirmware2.dev.rd R.BTP_STATUS_STEP ≠ 1) ∧
    (wBootStageAndFirmware2.dev.rd R.BTP_STATUS_STEP = 3 ∧ wBootStageAndFirmware2.dev.fwReady = false ∧
      wBootStageAndFirmware2.dev.boot.fallbackDue = false ∧ wBootStageAndFirmware2.dev.rd R.GLB_START_OPT_STAGE ≠ 4) := by
  decide +kernel

/-- States and operands that meet the hypotheses of each clause of Obligations.BootRecords. -/
theorem witness_BootRecords :
    (wBootRecords1.dev.boot.fallbackDue = true ∧ wBootRecords1.dev.boot.cores = true) ∧
    (wBootRecords1.dev.optBit 9 0 = false) ∧
    (wBootRecords2.dev.boot.fallbackDue = false) ∧
    (wBootRecords2.dev.optBit 9 0 = true ∧ wBootRecords2.dev.isSet R.BTP_STATUS_TRIAL = true ∧
      wBootRecords2.dev.isSet R.GLB_START_READY = true ∧ wBootRecords2.dev.boot.job = none) := by
  decide +kernel

end Boot

namespace StartUp

def g5 : RowSweep := { tile := 3, row := 37, curve := (List.range 256).map (fun i => (i * 128 + 65536 - 16384) % 65536), gain := 9000, rms := 100 }
def v5 : Dev := {on with hif := {vfEnable := true, numVfs := 4, vfReady := true}}

def wOpticalStart1 : State := { dev := on }
def wOpticalStart2 : State := { dev := on.wr R.GLB_START_OPT_STAGE 1 }
def wOpticalStart3 : State := { dev := on.wr R.GLB_START_OPT_STAGE 2 }
def wOpticalStart4 : State := { dev := {on.wr R.GLB_START_OPT_STAGE 3 with st := {passes := 2}} }
def wOpticalStart5 : State := { dev := {on.wr R.GLB_START_OPT_STAGE 3 with st := {passes := 16}} }
def wOpticalStart6 : State := { dev := (((((on.wr R.GLB_START_OPT_STAGE 4).wr R.BTP_STATUS_FW_READY 1).wr R.GLB_START_T1_TRAINED 1).wri R.CAL_TILE_STATE 3 1).wr R.GLB_START_PHASE_VALID 1) }
def wMemoryEvents1 : State := { dev := on.wr R.BTP_STATUS_FW_READY 1 }
def wMemoryEvents2 : State := { dev := ((on.wr R.BTP_STATUS_FW_READY 1).wri R.MEM_T1_STATUS_TRAINED 1 1).wri R.MEM_T2_STATUS_ACTIVE 2 1 }
def wBlockResets1 : State := { dev := on }
def wBlockResets2 : State := { dev := on.wr R.RST_BLK_STATUS_BUSY 1 }
def wBlockResets3 : State := { dev := on.wr R.SEQ_STATUS_ACTIVE 1 }
def wBlockResets4 : State := { dev := on.wr R.RST_BLK_MODE 0x8 }
def wBlockResets5 : State := { dev := {on with beat := 10000000, rst := {blk := some (9, .requested)}} }
def wBlockResets6 : State := { dev := {on with rst := {blk := some (10, .requested)}} }
def wBlockResets7 : State := { dev := {on with rst := {blk := some (12, .inReset)}} }
def wBlockResets8 : State := { dev := {on with beat := 300, rst := {blk := some (12, .inReset)}} }
def wFunctionReaches1 : State := { dev := (v5.wri (R.VMSIX_MASK.page 3) 1 0).wri R.ENT_T1_BASE 3 4096 }
def wFunctionReaches2 : State := { dev := {v5 with rst := {blk := some (6, .inReset), flrDue := [2]}} }
def wFunctionReaches3 : State := { dev := {v5 with rst := {flr := [2,3]}} }

/-- States and operands that meet the hypotheses of each clause of Obligations.OpticalStart. -/
theorem witness_OpticalStart :
    ((wOpticalStart1.dev.fwReady = false ∨ wOpticalStart1.dev.isSet R.GLB_START_T1_TRAINED = false ∨ wOpticalStart1.dev.rd R.GLB_START_OPT_STAGE ≠ 4)) ∧
    (wOpticalStart1.dev.rd R.GLB_START_OPT_STAGE = 0) ∧
    (wOpticalStart2.dev.rd R.GLB_START_OPT_STAGE = 1 ∧ 1 < 2 ∧ wOpticalStart2.dev.isSeti R.OPT_ENG_FAIL 1 = false ∧
      wOpticalStart2.dev.planActive = false) ∧
    (wOpticalStart2.dev.rd R.GLB_START_OPT_STAGE = 1 ∧ wOpticalStart2.dev.spareCh false 0 64 = 127) ∧
    (wOpticalStart3.dev.rd R.GLB_START_OPT_STAGE = 2 ∧ 3 < 16 ∧ 16000 < 16448 ∧
      wOpticalStart3.dev.rdi R.CAL_TILE_STATE 3 = 0) ∧
    (wOpticalStart4.dev.rd R.GLB_START_OPT_STAGE = 3 ∧ g5.tile < 16 ∧ g5.row / 16 = wOpticalStart4.dev.st.passes ∧
      sweepOk g5 = true ∧ wOpticalStart4.dev.st.passes < 16) ∧
    (wOpticalStart5.dev.rd R.GLB_START_OPT_STAGE = 3 ∧ wOpticalStart5.dev.st.passes = 16) ∧
    (wOpticalStart6.dev.isSet R.GLB_START_READY = false ∧ wOpticalStart6.dev.fwReady = true ∧
      wOpticalStart6.dev.isSet R.GLB_START_T1_TRAINED = true ∧ wOpticalStart6.dev.rd R.GLB_START_OPT_STAGE = 4) := by
  decide +kernel

/-- States and operands that meet the hypotheses of each clause of Obligations.MemoryEvents. -/
theorem witness_MemoryEvents :
    (wMemoryEvents2.dev.fwReady = true ∧ wMemoryEvents2.dev.isSet R.GLB_START_T1_TRAINED = false ∧
      wMemoryEvents2.dev.word R.MEM_T1_STATUS_FAILED = 0) ∧
    (wMemoryEvents2.dev.fwReady = true ∧ wMemoryEvents2.dev.isSet R.GLB_START_T2_DONE = false) ∧
    (1 < 6 ∧ wMemoryEvents2.dev.isSeti R.MEM_T1_STATUS_TRAINED 1 = true) ∧
    (2 < 8 ∧ wMemoryEvents2.dev.isSeti R.MEM_T2_STATUS_ACTIVE 2 = true ∧
      wMemoryEvents2.dev.isSeti R.MEM_T2_STATUS_FAILED 2 = false) ∧
    (2 < 8 ∧ wMemoryEvents1.dev.isSeti R.MEM_T2_STATUS_ACTIVE 2 = false) := by
  decide +kernel

/-- States and operands that meet the hypotheses of each clause of Obligations.BlockResets. -/
theorem witness_BlockResets :
    ((wBlockResets5.dev.rst.blk = some (9, BlkPhase.requested) ∧ (9 = 2 ∨ 9 = 7 ∨ 9 = 9 ∨ 9 = 10) ∧
       wBlockResets5.dev.rst.blkAt + 250 * wBlockResets5.dev.rd R.RST_BLK_IDLE_TO ≤ wBlockResets5.dev.beat) ∧
     (masterVf Master.armature = false ∧ masterHost Master.armature = false ∧ wBlockResets1.dev.running = true ∧
       bitAt 2147483663 31 = true ∧ 13 < bits 2147483663 0 4) ∧
     (masterVf Master.armature = false ∧ masterHost Master.armature = false ∧ wBlockResets2.dev.running = true ∧
       bitAt 2147483651 31 = true ∧ bits 2147483651 0 4 ≤ 13 ∧ wBlockResets2.dev.isSet R.RST_BLK_STATUS_BUSY = true) ∧
     (masterVf Master.armature = false ∧ masterHost Master.armature = false ∧ wBlockResets3.dev.running = true ∧
       bitAt 2147483651 31 = true ∧ bits 2147483651 0 4 < 6 ∧ wBlockResets3.dev.isSet R.RST_BLK_STATUS_BUSY = false ∧
       wBlockResets3.dev.planActive = true)) ∧
    ((masterVf Master.armature = false ∧ masterHost Master.armature = false ∧ wBlockResets4.dev.running = true ∧
       bitAt 2147483651 31 = true ∧ bits 2147483651 0 4 ≤ 13 ∧ wBlockResets4.dev.isSet R.RST_BLK_STATUS_BUSY = false ∧
       wBlockResets4.dev.planActive = false ∧
       bitAt (wBlockResets4.dev.rd R.RST_BLK_MODE) (bits 2147483651 0 4) = true) ∧
     (wBlockResets6.dev.rst.blk = some (10, BlkPhase.requested) ∧
       wBlockResets6.dev.beat < wBlockResets6.dev.rst.blkAt + 250 * wBlockResets6.dev.rd R.RST_BLK_IDLE_TO) ∧
     (wBlockResets7.dev.rst.blk = some (12, BlkPhase.inReset) ∧
       wBlockResets7.dev.beat < wBlockResets7.dev.rst.blkAt + 256) ∧
     (wBlockResets8.dev.rst.blk = some (12, BlkPhase.inReset) ∧ (12 = 2 ∨ 12 = 9 ∨ 12 = 12) ∧
       wBlockResets8.dev.rst.blkAt + 256 ≤ wBlockResets8.dev.beat)) :=
  ⟨by decide +kernel, by decide +kernel⟩

/-- States and operands that meet the hypotheses of each clause of Obligations.FunctionReaches. -/
theorem witness_FunctionReaches :
    (1 ≤ 3 ∧ 3 ≤ 256 ∧ wFunctionReaches1.dev.running = true ∧ wFunctionReaches1.dev.hif.vfEnable = true ∧
      3 ≤ wFunctionReaches1.dev.hif.numVfs ∧ wFunctionReaches1.dev.hif.vfReady = true ∧
      wFunctionReaches1.dev.inReset 6 = false) ∧
    (1 ≤ 3 ∧ 3 ≤ 256 ∧ wFunctionReaches1.dev.rst.flr.contains 3 = false) ∧
    (1 ≤ 3 ∧ 3 ≤ 256 ∧ wFunctionReaches2.dev.running = true ∧ wFunctionReaches2.dev.hif.vfEnable = true ∧
      3 ≤ wFunctionReaches2.dev.hif.numVfs ∧ wFunctionReaches2.dev.hif.vfReady = true ∧
      wFunctionReaches2.dev.inReset 6 = true) ∧
    (1 ≤ 3 ∧ 3 ≤ 256 ∧ wFunctionReaches3.dev.rst.flr.contains 3 = true ∧ wFunctionReaches3.dev.inReset 6 = false) := by
  decide +kernel

end StartUp

namespace Cadence

def con : Dev := {on with cad := {acq := true}}
def good : List Nat := let c := [1,0] ++ [5,0,0,0,0] ++ [1,2,3] ++ [0,0]; c ++ leBytes 4 (crc32c c)
def img6 (loopr trg : List Nat) := tImg [(1,0,0,leBytes 4 5000 ++ [1,1,0,0] ++ leBytes 2 0xFFFF ++ List.replicate 6 0 ++ leBytes 4 1000 ++ List.replicate 12 0), (14,0,0,loopr), (8,0,0,[2] ++ List.replicate 15 0 ++ [0] ++ List.replicate 63 0 ++ [1] ++ List.replicate 63 0), (12,0,0,trg)]
def pl6 : Dev := { (con.wr R.SEQ_STATUS_ACTIVE 1) with sq := { active := img6 ([0,1] ++ List.replicate 400 0) (List.replicate 64 0 ++ [2,9,0,0,0,0,0,0] ++ [2,9,0,0,0,0,0,0] ++ List.replicate 300 0), actForms := [0,1,1] } }
def fr (act arg : Nat) (fwd : Bool) : Fired := {row := 5, beat := 90, fwd := fwd, bytes := [0,0,0,act,0,0,1,0,0,0,0,0] ++ leBytes 4 arg}
def wf (f : Fired) : Dev := {pl6 with cad := {pl6.cad with fired := [f]}}
def noArm : Arm := {ring := 0, seqNo := 0, target := 0, wait := 2}

def wCadenceInputs1 : State := { dev := on }
def wCadenceInputs2 : State := { dev := con }
def wCadenceInputs3 : State := { dev := {con with cad := {con.cad with encEdge := some (false, 995), encRate := 1, setpEdge := some 900, edges := [{eff := 3, kind := .count true false 995}]}} }
def wTimingFrames1 : State := { dev := con }
def wTimingFrames2 : State := { dev := (({con with beat := 10000000, cad := {con.cad with src := 1, encRateEnd := 70, srcs := [{}, {motion := 0}, {},{}]}}).wr R.CAD_STATUS_ENC_VALID 1).wr R.CAD_STATUS_TF_VALID 1 }
def wPhaseBeat1 : State := { dev := {on with beat := 249999} }
def wPhaseBeat2 : State := { dev := ({con with cad := {con.cad with noFire := false, tmBeat := 10, table := [(3, leBytes 3 700 ++ [1] ++ leBytes 2 1 ++ [1,0,0,0,0,0,0,0,0,0])]}}.wr R.GLB_START_EVENTS_ON 1).wr R.CAD_PHASE 671 }
def wPhaseBeat3 : List Nat := leBytes 3 700 ++ [1] ++ leBytes 2 1 ++ [1,0,0,0,0,0,0,0,0,0]
def wRowActions1 : State := { dev := (wf (fr 1 0 true)).wr R.CAD_FSTART_EN 1 }
def wRowActions2 : Fired := fr 1 0 true
def wRowActions3 : State := { dev := let d := (wf (fr 6 0 true)); {d with sq := {d.sq with arm := some noArm}} }
def wRowActions4 : Fired := fr 6 0 true
def wRowActions5 : State := { dev := (wf (fr 2 2 false)) }
def wRowActions6 : Fired := fr 2 2 false
def wRowActions7 : State := { dev := (wf (fr 2 1 true)) }
def wRowActions8 : Fired := fr 2 1 true
def wRowActions9 : State := { dev := let d := (wf (fr 3 1 true)); d.setStream 0 (fun t => {t with wins := [{num := 4, openAt := 3, openPhase := 3, startWp := 0, set := none, mark := 0}]}) }
def wRowActions10 : Fired := fr 3 1 true
def wRowActions11 : State := { dev := (wf (fr 4 2 true)).wr R.LPE_STATUS_STATE 1 }
def wRowActions12 : Fired := fr 4 2 true
def wRowActions13 : State := { dev := let d := ((wf (fr 4 2 true)).wr R.LPE_STATUS_STATE 1).wr R.CAD_STATUS_HOLD_TIMING 1; {d with cad := {d.cad with holdF := 50, holdAt := 60, fired := []}} }
def wRowActions14 : State := { dev := let d := (wf (fr 5 2 true)); {d with trg := {d.trg with held := d.trg.held.set 1 (some true)}} }
def wRowActions15 : Fired := fr 5 2 true
def wRowActions16 : State := { dev := (wf (fr 7 2 true)) }
def wRowActions17 : Fired := fr 7 2 true

/-- States and operands that meet the hypotheses of each clause of Obligations.CadenceInputs. -/
theorem witness_CadenceInputs :
    (wCadenceInputs1.dev.works 0 = true ∧ wCadenceInputs1.dev.cad.acq = false ∧ wCadenceInputs1.dev.cad.src = 0) ∧
    (wCadenceInputs1.dev.cadOn = false) ∧
    (wCadenceInputs2.dev.cad.acq = true) ∧
    (wCadenceInputs2.dev.cadOn = true ∧ wCadenceInputs2.dev.cad.encEdge = none) ∧
    (wCadenceInputs3.dev.cadOn = true ∧ wCadenceInputs3.dev.cad.encEdge = some (false, 995) ∧ false ≠ true ∧
      1000 < 995 + 10 ∧ 995 < 1000 + 10) := by
  decide +kernel

/-- States and operands that meet the hypotheses of each clause of Obligations.TimingFrames. -/
theorem witness_TimingFrames :
    (wTimingFrames1.dev.cadOn = true ∧ tframeGood good = true) ∧
    (wTimingFrames1.dev.beat < wTimingFrames1.dev.cad.tfBeat + 250 * wTimingFrames1.dev.rd R.CAD_TF_CFG_TO_US) ∧
    (wTimingFrames1.dev.cadOn = true ∧
      wTimingFrames1.dev.cad.encRateEnd ≤ wTimingFrames1.dev.rd R.CAD_ENC_CFG_MAXRATE) ∧
    (wTimingFrames1.dev.stallDue wTimingFrames1.dev.cad.src = false) ∧
    (wTimingFrames2.dev.cadOn = true ∧ tframeGood [1, 2] = false) ∧
    (wTimingFrames2.dev.cadOn = true ∧
      wTimingFrames2.dev.cad.tfBeat + 250 * wTimingFrames2.dev.rd R.CAD_TF_CFG_TO_US ≤ wTimingFrames2.dev.beat) ∧
    (wTimingFrames2.dev.cadOn = true ∧
      wTimingFrames2.dev.rd R.CAD_ENC_CFG_MAXRATE < wTimingFrames2.dev.cad.encRateEnd) ∧
    (wTimingFrames2.dev.cadOn = true ∧ wTimingFrames2.dev.stallDue wTimingFrames2.dev.cad.src = true) := by
  decide +kernel

/-- States and operands that meet the hypotheses of each clause of Obligations.PhaseBeat. -/
theorem witness_PhaseBeat :
    (masterVf Master.armature = false ∧ masterHost Master.armature = false ∧ wPhaseBeat2.dev.running = true ∧
      wPhaseBeat2.dev.inReset 0 = false ∧ wPhaseBeat2.dev.planActive = false ∧ bitAt 25 3 = true) ∧
    (wPhaseBeat2.dev.cadOn = true ∧ wPhaseBeat2.dev.cad.src = 0 ∧ wPhaseBeat2.dev.cad.edges = [] ∧
      wPhaseBeat2.dev.planActive = false ∧ wPhaseBeat2.dev.cad.noFire = false ∧
      wPhaseBeat2.dev.isSet R.GLB_START_EVENTS_ON = true ∧ wPhaseBeat2.dev.cad.table = [(3, wPhaseBeat3)] ∧
      wPhaseBeat2.dev.cad.fired = [] ∧ wPhaseBeat2.dev.sq.arm = none ∧
      beyond wPhaseBeat2.dev.timerNext (wPhaseBeat2.dev.rd R.CAD_PHASE) = true ∧ rowAction wPhaseBeat3 ≠ 8 ∧
      0 < (wPhaseBeat2.dev.rowCross wPhaseBeat3 (wPhaseBeat2.dev.rd R.CAD_PHASE) wPhaseBeat2.dev.timerNext).1 ∧
      rowAction wPhaseBeat3 ≠ 2 ∧ rowAction wPhaseBeat3 ≠ 3) ∧
    (wPhaseBeat1.dev.cadOn = false ∧ wPhaseBeat1.dev.planActive = false) := by
  decide +kernel

/-- States and operands that meet the hypotheses of each clause of Obligations.RowActions. -/
theorem witness_RowActions :
    ((5 < 1024 ∧ wRowActions13.dev.heldDue = true) ∧
     (5 < 1024 ∧ wRowActions13.dev.cad.fired = []) ∧
     (5 < 1024 ∧ wRowActions11.dev.acting 5 4 = some wRowActions12 ∧
       (wRowActions11.dev.acted.loopTiming wRowActions12).2 = true) ∧
     (5 < 1024 ∧ wRowActions11.dev.acting 5 4 = some wRowActions12 ∧ wRowActions11.dev.loopPhase = true ∧
       wRowActions11.dev.isSet R.CAD_STATUS_HOLD_TIMING = false ∧ wRowActions11.dev.lpeOn = true ∧
       wRowActions11.dev.lpe.pend = [] ∧ wRowActions11.dev.lpe.lastS = none) ∧
     (5 < 1024 ∧ wRowActions1.dev.acting 5 1 = some wRowActions2 ∧ wRowActions1.dev.planActive = true ∧
       wRowActions1.dev.isSet R.CAD_FSTART_EN = true ∧ wRowActions1.dev.cad.due = none ∧
       wRowActions1.dev.cad.targetGate = none) ∧
     (5 < 1024 ∧ wRowActions3.dev.acting 5 6 = some wRowActions4 ∧ wRowActions3.dev.sq.arm = some noArm ∧
       noArm.wait = 2)) ∧
    ((5 < 1024 ∧ wRowActions5.dev.acting 5 2 = some wRowActions6 ∧ wRowActions5.dev.planActive = true ∧
       wRowActions6.fwd = false) ∧
     (5 < 1024 ∧ wRowActions7.dev.acting 5 2 = some wRowActions8 ∧ wRowActions7.dev.cad.fired = [wRowActions8] ∧
       wRowActions7.dev.planActive = true ∧ wRowActions8.fwd = true ∧ 0 < 16 ∧
       wRowActions7.dev.ing.streams.length = 16 ∧ rowArg wRowActions8.bytes = 2 ^ 0 ∧
       (wRowActions7.dev.streamRec 0).isEmpty = false ∧ (wRowActions7.dev.stream 0).openWin = none) ∧
     (5 < 1024 ∧ wRowActions9.dev.acting 5 3 = some wRowActions10 ∧ wRowActions9.dev.cad.fired = [wRowActions10] ∧
       wRowActions9.dev.planActive = true ∧ 0 < 16 ∧ rowArg wRowActions10.bytes = 2 ^ 0 ∧
       wRowActions9.dev.ing.streams.length = 16)) ∧
    ((5 < 1024 ∧ wRowActions14.dev.acting 5 5 = some wRowActions15 ∧ wRowActions14.dev.decOn = true ∧ 1 < 8 ∧
       rowArg wRowActions15.bytes = 2 ^ 1 ∧ lnMode (tgLine wRowActions14.dev.tgSec 1) = 2 ∧
       nth none wRowActions14.dev.trg.pulses 1 = none ∧ nth none wRowActions14.dev.trg.held 1 = some true) ∧
     (5 < 1024 ∧ wRowActions16.dev.acting 5 7 = some wRowActions17)) :=
  ⟨by decide +kernel, by decide +kernel, by decide +kernel⟩

end Cadence

namespace Frames

def fon : Dev := on.wr R.BTP_STATUS_FW_READY 1
def img7 (st : Nat) := tImg [(1,0,0,leBytes 4 5000 ++ [1,st,0,0] ++ leBytes 2 0xFFFF ++ List.replicate 6 0 ++ leBytes 4 1000 ++ List.replicate 12 0), (2,0,0, tSlot 0 24 3 0 0 0 0 0 0 ++ tSlot 24 4000 1 0 0 0 0 0 0)]
def pl7 (st : Nat) : Dev := { (fon.wr R.SEQ_STATUS_ACTIVE 1) with sq := { active := img7 st, actForms := [0,1,1] } }
def fr (d : Dev) : Dev := {d with sq := {d.sq with frameAt := some 20, tokens := [(0,.invalid)], status := 0}}
def slot7 : Slot := match {fr fon with beat := 20}.seamNow with | some k => k | none => {start := 0, len := 0, kind := 0, client := 0, tiles := 0, vu := 0, units := 0, itemFirst := 0, itemCount := 0, res := 0}
def slot8 : Slot := match {fr (pl7 1) with beat := 20}.seamNow with | some k => k | none => slot7

def wFrameBoundaries1 : State := { dev := {fon with sq := {fon.sq with frameEnd := 101}} }
def wFrameBoundaries2 : State := { dev := fon }
def wFrameBoundaries3 : State := { dev := pl7 0 }
def wFrameBoundaries4 : State := { dev := pl7 1 }
def wFrameBoundaries5 : State := { dev := {(pl7 1) with sq := {(pl7 1).sq with haltPending := true}} }
def wFrameEnds1 : State := { dev := fr fon }
def wFrameEnds2 : State := { dev := {fr fon with beat := 2520} }
def wFrameEnds3 : State := { dev := {fr (pl7 1) with beat := 5020} }
def wFrameEnds4 : State := { dev := {fr (pl7 1) with beat := 5020, sq := {(fr (pl7 1)).sq with moving := true, seamAt := some 44, status := 16}} }
def wSeamBeats1 : State := { dev := {fr fon with beat := 20} }
def wSeamBeats2 : State := { dev := {fr (pl7 1) with beat := 20} }
def wSeamBeats3 : State := { dev := {fr (pl7 1) with beat := 37, sq := {(fr (pl7 1)).sq with seamAt := some 20}, opt := {fon.opt with shadow := fon.opt.shadow.set 1 (some [1,2])}} }
def wSeamBeats4 : State := { dev := {fr (pl7 1) with beat := 41, sq := {(fr (pl7 1)).sq with seamAt := some 20}} }
def wSeamBeats5 : State := { dev := {fr (pl7 1) with beat := 20, sq := {(fr (pl7 1)).sq with seamAt := some 20}} }

/-- States and operands that meet the hypotheses of each clause of Obligations.FrameBoundaries. -/
theorem witness_FrameBoundaries :
    (((wFrameBoundaries1.dev.sqOn = false ∨ wFrameBoundaries1.dev.sq.frameAt.isSome = true ∨ wFrameBoundaries1.dev.beat < wFrameBoundaries1.dev.sq.frameEnd)) ∧
     (wFrameBoundaries1.dev.beat < wFrameBoundaries1.dev.sq.frameEnd + wFrameBoundaries1.dev.rd R.CAD_FSTART_TOL) ∧
     (wFrameBoundaries5.dev.sqOn = true ∧ wFrameBoundaries5.dev.sq.frameAt = none ∧
       wFrameBoundaries5.dev.sq.frameEnd ≤ wFrameBoundaries5.dev.beat ∧ wFrameBoundaries5.dev.planActive = true ∧
       wFrameBoundaries5.dev.sq.haltPending = true ∧ wFrameBoundaries5.dev.sq.changes = [] ∧
       wFrameBoundaries5.dev.clients = []) ∧
     (wFrameBoundaries2.dev.sqOn = true ∧ wFrameBoundaries2.dev.sq.frameAt = none ∧
       wFrameBoundaries2.dev.sq.frameEnd ≤ wFrameBoundaries2.dev.beat ∧ wFrameBoundaries2.dev.planActive = false ∧
       wFrameBoundaries2.dev.sq.moving = false ∧ wFrameBoundaries2.dev.sq.arm = none ∧
       wFrameBoundaries2.dev.sq.coolPending = false ∧ wFrameBoundaries2.dev.sq.changes = [] ∧
       wFrameBoundaries2.dev.cad.srcPending = false)) ∧
    ((wFrameBoundaries3.dev.sqOn = true ∧ wFrameBoundaries3.dev.sq.frameAt = none ∧
       wFrameBoundaries3.dev.sq.frameEnd ≤ wFrameBoundaries3.dev.beat ∧ wFrameBoundaries3.dev.planActive = true ∧
       wFrameBoundaries3.dev.sq.moving = false ∧ wFrameBoundaries3.dev.sq.haltPending = false ∧
       wFrameBoundaries3.dev.sq.arm = none ∧ wFrameBoundaries3.dev.sq.coolPending = false ∧
       wFrameBoundaries3.dev.frameDue = true) ∧
     (wFrameBoundaries4.dev.sqOn = true ∧ wFrameBoundaries4.dev.sq.frameAt = none ∧
       wFrameBoundaries4.dev.planActive = true ∧ wFrameBoundaries4.dev.sq.moving = false ∧
       wFrameBoundaries4.dev.sq.haltPending = false ∧ wFrameBoundaries4.dev.sq.arm = none ∧
       wFrameBoundaries4.dev.sq.coolPending = false ∧
       planStart wFrameBoundaries4.dev.sq.active wFrameBoundaries4.dev.sq.plan = 1 ∧
       wFrameBoundaries4.dev.cad.due = none ∧ wFrameBoundaries4.dev.cad.targetGate = none ∧
       wFrameBoundaries4.dev.sq.frameEnd + wFrameBoundaries4.dev.rd R.CAD_FSTART_TOL ≤ wFrameBoundaries4.dev.beat)) :=
  ⟨by decide +kernel, by decide +kernel⟩

/-- States and operands that meet the hypotheses of each clause of Obligations.FrameEnds. -/
theorem witness_FrameEnds :
    ((wFrameEnds1.dev.sqOn = false ∨ wFrameEnds1.dev.sq.frameAt = none ∨ wFrameEnds1.dev.beat < wFrameEnds1.dev.frameStop)) ∧
    (wFrameEnds1.dev.sq.moving = false ∧ wFrameEnds1.dev.sq.frameAt = some 20) ∧
    (wFrameEnds1.dev.planActive = false) ∧
    (wFrameEnds2.dev.sqOn = true ∧ wFrameEnds2.dev.sq.frameAt.isSome = true ∧
      wFrameEnds2.dev.frameStop ≤ wFrameEnds2.dev.beat ∧ wFrameEnds2.dev.planActive = false ∧
      wFrameEnds2.dev.lau.sets = []) ∧
    (wFrameEnds3.dev.sqOn = true ∧ wFrameEnds3.dev.sq.frameAt.isSome = true ∧
      wFrameEnds3.dev.frameStop ≤ wFrameEnds3.dev.beat ∧ wFrameEnds3.dev.planActive = true ∧
      wFrameEnds3.dev.lau.sets = [] ∧ wFrameEnds3.dev.sq.moving = false ∧ wFrameEnds3.dev.sq.status = 0) ∧
    (wFrameEnds4.dev.sqOn = true ∧ wFrameEnds4.dev.sq.frameAt.isSome = true ∧
      wFrameEnds4.dev.frameStop ≤ wFrameEnds4.dev.beat ∧ wFrameEnds4.dev.planActive = true ∧
      wFrameEnds4.dev.lau.sets = [] ∧ wFrameEnds4.dev.sq.moving = true) := by
  decide +kernel

/-- States and operands that meet the hypotheses of each clause of Obligations.SeamBeats. -/
theorem witness_SeamBeats :
    ((∀ (b : Nat), wSeamBeats1.dev.sq.seamAt = some b → wSeamBeats1.dev.beat < b + 16 ∨ b + 20 < wSeamBeats1.dev.beat)) ∧
    ((∀ (b : Nat), wSeamBeats1.dev.sq.seamAt = some b → wSeamBeats1.dev.beat ≠ b + 21)) ∧
    ((wSeamBeats1.dev.seamNow = some slot7 ∧ wSeamBeats1.dev.sq.seamAt ≠ some wSeamBeats1.dev.beat ∧
       wSeamBeats1.dev.safeRuns = false ∧ wSeamBeats1.dev.pw.returning = [] ∧ wSeamBeats1.dev.cal.repls = [] ∧
       wSeamBeats1.dev.cal.recal = [] ∧ wSeamBeats1.dev.planActive = false) ∧
     (wSeamBeats4.dev.seamNow = none) ∧
     (wSeamBeats4.dev.works 1 = true ∧ wSeamBeats4.dev.sq.seamAt = some 20 ∧
       wSeamBeats4.dev.beat = 20 + 21) ∧
     (wSeamBeats2.dev.seamNow = some slot8 ∧ wSeamBeats2.dev.sq.seamAt ≠ some wSeamBeats2.dev.beat ∧
       wSeamBeats2.dev.safeRuns = false ∧ wSeamBeats2.dev.pw.returning = [] ∧ wSeamBeats2.dev.planActive = true) ∧
     (wSeamBeats3.dev.works 1 = true ∧ wSeamBeats3.dev.sq.seamAt = some 20 ∧
       20 + 16 ≤ wSeamBeats3.dev.beat ∧ wSeamBeats3.dev.beat ≤ 20 + 20 ∧ 1 < 16 ∧
       wSeamBeats3.dev.opt.shadow.length = 16 ∧ wSeamBeats3.dev.opt.act.length = 16) ∧
     (wSeamBeats5.dev.sq.seamAt = some wSeamBeats5.dev.beat)) :=
  ⟨(fun _ h => nomatch (h.symm.trans (by decide +kernel : wSeamBeats1.dev.sq.seamAt = none))), (fun _ h => nomatch (h.symm.trans (by decide +kernel : wSeamBeats1.dev.sq.seamAt = none))), by decide +kernel⟩

end Frames

namespace Items

def fon : Dev := on.wr R.BTP_STATUS_FW_READY 1
def img8 (items : List (List Nat)) := tImg [(1,0,0,leBytes 4 5000 ++ [1,0,0,0] ++ leBytes 2 0xFFFF ++ List.replicate 6 0 ++ leBytes 4 1000 ++ List.replicate 12 0), (2,0,0, tSlot 0 24 3 0 0 0 0 0 0 ++ tSlot 24 4000 0 0 0xFFFF 0xFF 0 0 items.length),
 (3,0,0,items.flatten),
 (18,0,0, leBytes 2 1 ++ leBytes 2 8 ++ [0,0,0,0] ++ List.replicate 8 0 ++ (leBytes 4 0x100 ++ leBytes 4 256 ++ [6] ++ List.replicate 7 0) ++ List.replicate 16 0)]
def pl8 (items : List (List Nat)) : Dev := { (fon.wr R.SEQ_STATUS_ACTIVE 1) with beat := 300, sq := { active := img8 items, actForms := [0,1,1], frameAt := some 20 } }
def N := noTok
def its : List (List Nat) := [tItem 30 20 1 0 N N 0 (leBytes 8 0x2000 ++ leBytes 4 64 ++ [0,0,0,0]), tItem 100 20 3 2 0 N 1 [1,0,0,0,0,0,1,0,0,0],
  tItem 100 20 4 0 0 0 2 (leBytes 2 1 ++ leBytes 2 1 ++ leBytes 4 2 ++ [0,0,1,0]), tItem 110 20 5 3 0 N 3 ([1,0] ++ leBytes 2 N ++ leBytes 4 8 ++ [0,0,0,0,0,0,0,0]), tItem 120 20 7 0 0 N 4 (leBytes 4 32 ++ [0,0]),
  tItem 140 20 6 0 0 4 5 (leBytes 4 32 ++ [0,0]), tItem 150 50 2 0 0 N N (leBytes 8 0x4000 ++ leBytes 4 64 ++ [0,0,0,0])]
def it (i : Nat) : Item := itemAt its.flatten i
def rr (d : Dev) (i : Nat) : Run := match d.resCtx.take d.resRun (it i).out d.frameBeat with | some r => r | none => d.resRun
def tk (l : List (Nat × TokenState)) : Dev := let d := pl8 its; {d with sq := {d.sq with tokens := l, slots := l.map (fun e => (e.1, e.1+1))}}
def stg0 (d : Dev) : Dev := (d.store 0 0x2000 (List.range 64) false).store 0 0x100 ((List.range 64).map (· + 5)) false
def v := TokenState.valid
def iv := TokenState.invalid

def wItemsRunOnce1 : State := { dev := tk [(0,v),(4,v)] }
def wItemsRunOnce2 : Run := rr (tk [(0,v),(4,v)]) 0
def wItemsRunOnce3 : State := { dev := tk [(0,v),(4,v)] }
def wItemsRunOnce4 : Run := rr (tk [(0,v),(4,v)]) 1
def wItemsRunOnce5 : State := { dev := tk [(0,v),(4,v)] }
def wItemsRunOnce6 : Run := rr (tk [(0,v),(4,v)]) 2
def wItemsRunOnce7 : State := { dev := tk [(0,v),(4,v)] }
def wItemsRunOnce8 : Run := rr (tk [(0,v),(4,v)]) 3
def wItemsRunOnce9 : State := { dev := tk [(0,v),(4,v)] }
def wItemsRunOnce10 : Run := rr (tk [(0,v),(4,v)]) 4
def wItemsRunOnce11 : State := { dev := tk [(0,v),(4,v)] }
def wItemsRunOnce12 : Run := rr (tk [(0,v),(4,v)]) 5
def wItemsRunOnce13 : State := { dev := tk [(0,v),(4,v)] }
def wTokenValidity1 : State := { dev := tk [(0,v),(4,v)] }
def wTokenValidity2 : Run := rr (tk [(0,v),(4,v)]) 2
def wTokenValidity3 : State := { dev := tk [(0,v),(4,v)] }
def wTokenValidity4 : Run := rr (tk [(0,v),(4,v)]) 3
def wTokenValidity5 : State := { dev := tk [(0,v),(4,v)] }
def wTokenValidity6 : Run := rr (tk [(0,v),(4,v)]) 4
def wTokenValidity7 : State := { dev := tk [(0,v),(4,v)] }
def wTokenValidity8 : Run := rr (tk [(0,v),(4,v)]) 5
def wFetchAndStore1 : State := { dev := let d := tk []; stg0 {d with sq := {d.sq with inflight := [(0,0)], slots := [(0,2)]}} }
def wFetchAndStore2 : State := { dev := let d := tk [(0,v)]; stg0 {d with sq := {d.sq with slots := [(0,1)]}} }

/-- States and operands that meet the hypotheses of each clause of Obligations.ItemsRunOnce. -/
theorem witness_ItemsRunOnce :
    ((wItemsRunOnce1.dev.itemNow 0 1 = some (it 0)) ∧
     (wItemsRunOnce1.dev.itemNow 0 2 = none) ∧
     (wItemsRunOnce1.dev.itemNow 0 3 = none) ∧
     (wItemsRunOnce1.dev.itemNow 0 4 = none) ∧
     (wItemsRunOnce1.dev.itemNow 0 5 = none) ∧
     (wItemsRunOnce1.dev.itemNow 0 6 = none) ∧
     (wItemsRunOnce1.dev.itemNow 0 7 = none) ∧
     (wItemsRunOnce1.dev.resCtx.take wItemsRunOnce1.dev.resRun (it 0).out wItemsRunOnce1.dev.frameBeat = some wItemsRunOnce2 ∧
       wItemsRunOnce1.dev.itemNow 0 1 = some (it 0) ∧ wItemsRunOnce1.dev.fetchBehind 0 (it 0) = false) ∧
     (wItemsRunOnce1.dev.resCtx.take wItemsRunOnce1.dev.resRun (it 0).out wItemsRunOnce1.dev.frameBeat = some wItemsRunOnce2 ∧
       sfind wItemsRunOnce2.slot (it 0).out = some 1 ∧ 1 ≠ (it 0).out) ∧
     (wItemsRunOnce1.dev.resCtx.take wItemsRunOnce1.dev.resRun (it 0).out wItemsRunOnce1.dev.frameBeat = some wItemsRunOnce2 ∧
       sfind wItemsRunOnce2.slot (it 0).out = some 1 ∧
       (0, 1) ∈ wItemsRunOnce1.dev.sq.slots ∧
       tokBuf (wItemsRunOnce1.dev.sec 18) 0 = tokBuf (wItemsRunOnce1.dev.sec 18) (it 0).out) ∧
     (wItemsRunOnce3.dev.itemNow 1 1 = none) ∧
     (wItemsRunOnce3.dev.resCtx.take wItemsRunOnce3.dev.resRun (it 1).out wItemsRunOnce3.dev.frameBeat = some wItemsRunOnce4 ∧
       (it 1).out ≠ noTok ∧ wItemsRunOnce3.dev.itemNow 1 3 = some (it 1)) ∧
     (wItemsRunOnce5.dev.resCtx.take wItemsRunOnce5.dev.resRun (it 2).out wItemsRunOnce5.dev.frameBeat = some wItemsRunOnce6 ∧
       (it 2).out ≠ noTok ∧ wItemsRunOnce5.dev.itemNow 2 4 = some (it 2))) ∧
    ((wItemsRunOnce7.dev.resCtx.take wItemsRunOnce7.dev.resRun (it 3).out wItemsRunOnce7.dev.frameBeat = some wItemsRunOnce8 ∧
       (it 3).out ≠ noTok ∧ wItemsRunOnce7.dev.itemNow 3 5 = some (it 3)) ∧
     (wItemsRunOnce9.dev.resCtx.take wItemsRunOnce9.dev.resRun (it 4).out wItemsRunOnce9.dev.frameBeat = some wItemsRunOnce10 ∧
       (it 4).out ≠ noTok ∧ wItemsRunOnce9.dev.itemNow 4 7 = some (it 4)) ∧
     (wItemsRunOnce11.dev.resCtx.take wItemsRunOnce11.dev.resRun (it 5).out wItemsRunOnce11.dev.frameBeat = some wItemsRunOnce12 ∧
       (it 5).out ≠ noTok ∧ wItemsRunOnce11.dev.itemNow 5 6 = some (it 5)) ∧
     ((it 6).out = noTok ∧ wItemsRunOnce13.dev.itemNow 6 2 = some (it 6))) :=
  ⟨by decide +kernel, by decide +kernel⟩

/-- States and operands that meet the hypotheses of each clause of Obligations.TokenValidity. -/
theorem witness_TokenValidity :
    (wTokenValidity1.dev.sec 10 = [] ∧ (it 2).out ≠ noTok ∧
      wTokenValidity1.dev.resCtx.take wTokenValidity1.dev.resRun (it 2).out wTokenValidity1.dev.frameBeat = some wTokenValidity2 ∧
      (true = (it 2).ins.all fun t => decide (sfind wTokenValidity1.dev.sq.tokens t = some TokenState.valid)) ∧
      wTokenValidity1.dev.itemNow 2 4 = some (it 2)) ∧
    (wTokenValidity3.dev.sec 10 = [] ∧ (it 3).out ≠ noTok ∧
      wTokenValidity3.dev.resCtx.take wTokenValidity3.dev.resRun (it 3).out wTokenValidity3.dev.frameBeat = some wTokenValidity4 ∧
      (true = (it 3).ins.all fun t => decide (sfind wTokenValidity3.dev.sq.tokens t = some TokenState.valid)) ∧
      wTokenValidity3.dev.itemNow 3 5 = some (it 3) ∧ (it 3).unit < 8) ∧
    (wTokenValidity5.dev.sec 10 = [] ∧ (it 4).out ≠ noTok ∧
      wTokenValidity5.dev.resCtx.take wTokenValidity5.dev.resRun (it 4).out wTokenValidity5.dev.frameBeat = some wTokenValidity6 ∧
      (true = (it 4).ins.all fun t => decide (sfind wTokenValidity5.dev.sq.tokens t = some TokenState.valid)) ∧
      wTokenValidity5.dev.itemNow 4 7 = some (it 4)) ∧
    (wTokenValidity7.dev.sec 10 = [] ∧ (it 5).out ≠ noTok ∧
      wTokenValidity7.dev.resCtx.take wTokenValidity7.dev.resRun (it 5).out wTokenValidity7.dev.frameBeat = some wTokenValidity8 ∧
      (true = (it 5).ins.all fun t => decide (sfind wTokenValidity7.dev.sq.tokens t = some TokenState.valid)) ∧
      wTokenValidity7.dev.itemNow 5 6 = some (it 5)) := by
  decide +kernel

/-- States and operands that meet the hypotheses of each clause of Obligations.FetchAndStore. -/
theorem witness_FetchAndStore :
    (((it 0).mSeq = false ∧ (it 0).mAppend = false ∧ (it 0).mSpace < 3 ∧
       (List.find? (fun e => e.1 == 0) wFetchAndStore1.dev.sq.inflight = some (0, 0)) ∧
       (List.find? (fun e => e.1 == 0) wFetchAndStore1.dev.variantItems = some (0, it 0)) ∧ (it 0).op = 1 ∧
       (it 0).out ≠ noTok ∧ wFetchAndStore1.dev.reachesFailed (it 0).mSpace (it 0).mAddr (it 0).mLen = false ∧
       wFetchAndStore1.dev.poisoned (it 0).mSpace (it 0).mAddr (it 0).mLen = false) ∧
     ((it 0).mSeq = false ∧ (it 0).mAppend = false ∧ (it 0).mSpace < 3 ∧
       (List.find? (fun e => e.1 == 0) wFetchAndStore1.dev.sq.inflight = some (0, 0)) ∧
       (List.find? (fun e => e.1 == 0) wFetchAndStore1.dev.variantItems = some (0, it 0)) ∧ (it 0).op = 1 ∧
       (it 0).out ≠ noTok ∧ (it 0).mAddr + 3 < 2 ^ 41) ∧
     ((it 6).mSeq = false ∧ (it 6).mAppend = false ∧ (it 6).mSpace < 3 ∧
       ((wFetchAndStore2.dev.sq.inflight.all fun e => e.1 != 6) = true))) ∧
    ((it 6).mSeq = false ∧ (it 6).mAppend = false ∧ (it 6).mSpace < 3 ∧
      wFetchAndStore2.dev.itemNow 6 2 = some (it 6) ∧ (it 6).out = noTok ∧ wFetchAndStore2.dev.sec 10 = []) :=
  ⟨by decide +kernel, by decide +kernel⟩

end Items

namespace Records

def fon : Dev := on.wr R.BTP_STATUS_FW_READY 1
def img8 (items : List (List Nat)) (trg : List Nat) := tImg [(1,0,0,leBytes 4 5000 ++ [1,0,0,0] ++ leBytes 2 0xFFFF ++ List.replicate 2 0 ++ leBytes 4 1000 ++ List.replicate 16 0), (2,0,0, tSlot 0 24 3 0 0 0 0 0 0 ++ tSlot 24 4000 0 0 0xFFFF 0xFF 0 0 items.length ++ tSlot 4100 300 4 0 0 0 0 0 0),
 (3,0,0,items.flatten),
 (18,0,0, leBytes 2 1 ++ leBytes 2 8 ++ [0,0,0,0] ++ List.replicate 8 0 ++ (leBytes 4 0x100 ++ leBytes 4 256 ++ [6] ++ List.replicate 7 0) ++ List.replicate 16 0)] ++ []
def N := noTok
def its : List (List Nat) := [tItem 100 20 8 0 0 N 1 [], tItem 200 90 9 0 N N N []]
def trgS (lag bld : Nat) : List Nat := [lag,1,1,4,1,0,0,0,0,0,0,0,0,bld] ++ List.replicate 50 0 ++ [1,9,1,0,0,0,0,0] ++ [2,9,1,0,0,0,0,0] ++ List.replicate 48 0 ++ [3,0,0,0] ++ List.replicate 252 0
def im (lag bld : Nat) : List Nat := tImg [(1,0,0,leBytes 4 5000 ++ [1,0,0,0] ++ leBytes 2 0xFFFF ++ List.replicate 2 0 ++ leBytes 4 1000 ++ List.replicate 16 0), (2,0,0, tSlot 0 24 3 0 0 0 0 0 0 ++ tSlot 24 4000 0 0 0xFFFF 0xFF 0 0 2 ++ tSlot 4100 300 4 0 0 0 0 0 0),
 (3,0,0,its.flatten), (12,0,0,trgS lag bld), (13,0,0,[0,1,0,0] ++ List.replicate 12 0 ++ List.replicate 8 0 ++ leBytes 8 0x1000 ++ leBytes 8 0x1000 ++ List.replicate 8 0),
 (18,0,0, leBytes 2 1 ++ leBytes 2 8 ++ [0,0,0,0] ++ List.replicate 8 0 ++ (leBytes 4 0x100 ++ leBytes 4 256 ++ [6] ++ List.replicate 7 0) ++ List.replicate 16 0)]
def pl9 (lag bld : Nat) (l : List (Nat × TokenState)) : Dev := { (fon.wr R.SEQ_STATUS_ACTIVE 1) with beat := 320, sq := { active := im lag bld, actForms := [0,1,1], frameAt := some 20, frameNo := 1, tokens := l, slots := l.map (fun e => (e.1, e.1+1)) } }
def it (i : Nat) : Item := itemAt its.flatten i
def rr (d : Dev) (i : Nat) : Run := match d.resCtx.take d.resRun (it i).out d.frameBeat with | some r => r | none => d.resRun
def dd (v : Bool) : Decided := {rec_ := List.replicate 64 0, lines := 3, accepted := v, valid := v, early := false}
def qq : QSet := {decFrame := none, rec_ := List.replicate 64 0, planId := 1, event := 0, unanch := false, streams := 0, ledger := [], setFrame := none}
def pq : Dev := let d := pl9 0 1 []; {d with trg := {d.trg with queue := [qq]}}
def dec (v : Bool) : Dev := let d := pl9 0 0 []; {d with beat := 1020, trg := {d.trg with decided := some (dd v)}}
def cl (k : Cmd) : Client := {cmds := [k], nextSeq := 5, polling := true}
def kk : Cmd := {ring := 1, index := 7, seqNo := 4}
def kl : Cmd := {kk with phase := .running, desc := [2] ++ List.replicate 63 0, awaiting := 4, pos := 64, total := 64}

def wTriggerDecides1 : State := { dev := on }
def wTriggerDecides2 : State := { dev := pl9 0 0 [(0,.valid)] }
def wTriggerDecides3 : Run := rr (pl9 0 0 [(0,.valid)]) 0
def wTriggerDecides4 : State := { dev := pq }
def wTriggerDecides5 : State := { dev := dec true }
def wTriggerDecides6 : State := { dev := dec false }
def wRecordsAndDescriptors1 : State := { dev := on.setClient 3 (cl kk) }
def wRecordsAndDescriptors2 : List Nat := List.replicate 64 0
def wRecordsAndDescriptors3 : State := { dev := (on.setRing 3 1 1).setClient 3 (cl kk) }
def wRecordsAndDescriptors4 : List Nat := List.replicate 64 9
def wRecordsAndDescriptors5 : State := { dev := on.setClient 3 (cl kl) }
def wRecordsAndDescriptors6 : State := { dev := {on with pw := {}} }

/-- States and operands that meet the hypotheses of each clause of Obligations.TriggerDecides. -/
theorem witness_TriggerDecides :
    ((wTriggerDecides1.dev.itemNow 0 8 = none) ∧
     (wTriggerDecides1.dev.itemNow 0 9 = none) ∧
     ((wTriggerDecides1.dev.frameBeat ≠ planLatDec wTriggerDecides1.dev.sq.active wTriggerDecides1.dev.sq.plan ∨ wTriggerDecides1.dev.trg.decided = none))) ∧
    (0 < 8 ∧ wTriggerDecides1.dev.trg.pulses.length = 8 ∧
      (∀ (b : Nat), nth none wTriggerDecides1.dev.trg.pulses 0 = some b → wTriggerDecides1.dev.beat < b)) ∧
    ((wTriggerDecides5.dev.itemNow 1 9 = some (it 1) ∧ (it 1).out = noTok ∧
       (tgBuild wTriggerDecides5.dev.tgSec = false ∨ wTriggerDecides5.dev.trg.queue = [])) ∧
     (wTriggerDecides5.dev.framing = true ∧ wTriggerDecides5.dev.decOn = true ∧
       wTriggerDecides5.dev.frameBeat = planLatDec wTriggerDecides5.dev.sq.active wTriggerDecides5.dev.sq.plan ∧
       wTriggerDecides5.dev.trg.decided = some (dd true) ∧ (dd true).valid = true ∧
       tgBuild wTriggerDecides5.dev.tgSec = false ∧ 0 < 8 ∧ bitAt (dd true).lines 0 = true ∧
       wTriggerDecides5.dev.trg.pulses.length = 8 ∧ wTriggerDecides5.dev.trg.held.length = 8) ∧
     (wTriggerDecides2.dev.sec 10 = [] ∧ (it 0).out ≠ noTok ∧
       wTriggerDecides2.dev.resCtx.take wTriggerDecides2.dev.resRun (it 0).out wTriggerDecides2.dev.frameBeat = some wTriggerDecides3 ∧
       (true = (it 0).ins.all fun t => decide (sfind wTriggerDecides2.dev.sq.tokens t = some TokenState.valid)) ∧
       wTriggerDecides2.dev.itemNow 0 8 = some (it 0))) ∧
    ((wTriggerDecides4.dev.itemNow 1 9 = some (it 1) ∧ (it 1).out = noTok ∧
       tgBuild wTriggerDecides4.dev.tgSec = true ∧ wTriggerDecides4.dev.works 9 = true ∧
       wTriggerDecides4.dev.trg.queue = [qq] ∧ qq.streams = 0 ∧ wTriggerDecides4.dev.trg.bld = { } ∧ 18 ≤ (it 1).dur ∧
       128 ≤ wTriggerDecides4.dev.aetSpace (tgDest wTriggerDecides4.dev.tgSec)) ∧
     (wTriggerDecides6.dev.framing = true ∧ wTriggerDecides6.dev.decOn = true ∧
       wTriggerDecides6.dev.frameBeat = planLatDec wTriggerDecides6.dev.sq.active wTriggerDecides6.dev.sq.plan ∧
       wTriggerDecides6.dev.trg.decided = some (dd false) ∧ (dd false).valid = false ∧
       tgKeep wTriggerDecides6.dev.tgSec = 0)) :=
  ⟨by decide +kernel, ⟨by decide +kernel, by decide +kernel, (fun _ h => nomatch (h.symm.trans (by decide +kernel : nth none wTriggerDecides1.dev.trg.pulses 0 = none)))⟩, by decide +kernel, by decide +kernel⟩

/-- States and operands that meet the hypotheses of each clause of Obligations.RecordsAndDescriptors. -/
theorem witness_RecordsAndDescriptors :
    ((3 ≤ 256 ∧ 1 < 8 ∧ wRecordsAndDescriptors5.dev.onTheWay 3 1 = none) ∧
     (3 ≤ 256 ∧ 1 < 8 ∧
       (wRecordsAndDescriptors5.dev.firstHkp = none ∨ wRecordsAndDescriptors5.dev.sqOn = false ∨ wRecordsAndDescriptors5.dev.sq.frameAt = none ∨ wRecordsAndDescriptors5.dev.sq.hkpDone = true)) ∧
     (3 ≤ 256 ∧ 1 < 8 ∧ wRecordsAndDescriptors5.dev.running = true ∧
       (wRecordsAndDescriptors5.dev.client 3).polling = true) ∧
     (3 ≤ 256 ∧ 1 < 8 ∧ wRecordsAndDescriptors5.dev.running = true ∧
       wRecordsAndDescriptors5.dev.waitingRead 3 1 = some kl ∧ wRecordsAndDescriptors5.dev.cmds 3 = [kl] ∧
       kl.op = opLoad ∧ kl.phase = CmdPhase.running ∧ [1, 2, 3, 4].length = kl.awaiting ∧ kl.pos = kl.total ∧
       wRecordsAndDescriptors5.dev.noSolve = true) ∧
     (3 ≤ 256 ∧ 1 < 8 ∧ (wRecordsAndDescriptors6.dev.client 3).polling = false)) ∧
    ((3 ≤ 256 ∧ 1 < 8 ∧ wRecordsAndDescriptors6.dev.running = false) ∧
     (3 ≤ 256 ∧ 1 < 8 ∧ wRecordsAndDescriptors1.dev.running = true ∧
       wRecordsAndDescriptors1.dev.waitingRead 3 1 = none) ∧
     (3 ≤ 256 ∧ 1 < 8 ∧ wRecordsAndDescriptors1.dev.onTheWay 3 1 = some kk ∧
       wRecordsAndDescriptors1.dev.ringState 3 1 ≠ 3 ∧
       malformed (wRecordsAndDescriptors1.dev.pset 3 R.RNG_CTL_CRC_REQ) wRecordsAndDescriptors2 = false) ∧
     (3 ≤ 256 ∧ 1 < 8 ∧ wRecordsAndDescriptors3.dev.onTheWay 3 1 = some kk ∧
       wRecordsAndDescriptors3.dev.ringState 3 1 ≠ 3 ∧
       malformed (wRecordsAndDescriptors3.dev.pset 3 R.RNG_CTL_CRC_REQ) wRecordsAndDescriptors4 = true)) :=
  ⟨by decide +kernel, by decide +kernel⟩

end Records

namespace Commands

def fon : Dev := on.wr R.BTP_STATUS_FW_READY 1
def leB (n v : Nat) := leBytes n v
/-- descriptor: op tag b8 half10 src dest len params -/
def dsc (op tag b8 h10 src dest len : Nat) (par : List Nat) : List Nat := [op,0,0,0] ++ leB 4 tag ++ [b8,0] ++ leB 2 h10 ++ leB 4 0 ++ leB 8 src ++ leB 8 dest ++ leB 8 len ++ (par ++ List.replicate 24 0).take 24
def cmdr (d : List Nat) : Cmd := {ring := 1, index := 0, seqNo := 3, desc := d, phase := .ready}
def im10 : List Nat := tImg [(1,0,0,leBytes 4 5000 ++ [1,0,0,0] ++ leBytes 2 0xFFFF ++ List.replicate 2 0 ++ leBytes 4 1000 ++ List.replicate 16 0), (2,0,0, tSlot 0 24 3 0 0 0 0 0 0 ++ tSlot 24 2000 2 0 0xFFFF 0xFF 3 0 0 ++ tSlot 2024 1000 2 5 0xFFFF 0xFF 3 0 0  ++ tSlot 4100 300 4 0 0 0 0 0 0),
 (18,0,0, leBytes 2 1 ++ leBytes 2 8 ++ [0,0,0,0] ++ List.replicate 8 0 ++ (leBytes 4 0x100 ++ leBytes 4 256 ++ [6] ++ List.replicate 7 0) ++ List.replicate 16 0)]
def base10 : Dev := { (fon.wr R.SEQ_STATUS_ACTIVE 1) with beat := 400, sq := { active := im10, actForms := [0,1,1], frameAt := some 20, frameNo := 1} , hif := {fon.hif with fns := [(0,{bme := true}),(5,{bme := true})]} }
def cfgC (d : Dev) (c : Nat) (rights : Nat) : Dev :=
  let d := ((d.wri R.ENT_T1_SIZE c 0x100000).wri R.ENT_HOST_BASE c 0x100000).wri R.ENT_HOST_SIZE c 0x10000000
  let d := d.wri R.ENT_RIGHTS c rights
  let d := ((d.pwr c R.HIF_USE_CTL_EN 1).pwr c R.HIF_USE_BASE 0x100000).pwr c R.HIF_USE_SIZE 0x10000000
  d.setRing c 1 1
def st (c : Nat) (rights : Nat) (k : Cmd) : Dev := (cfgC base10 c rights).setClient c {cmds := [k], nextSeq := 9}
def T (c : Nat) (d : List Nat) := st c 0xFF (cmdr d)
def ld := dsc 2 0 0 0 0x100000 (2^62 + 0x40) 128 []
def ld0 := dsc 2 0 0 0 0x100000 (2^62 + 0x40) 0 []
def sd := dsc 3 0 0 0 (2^62 + 0x40) 0x100000  128 []
def rs := dsc 4 0 0 0 0x100000 0  128 [2,0]
def tr := dsc 5 0 0 0 0x100000 0x200000  128 [2,0,1]
def qp := dsc 6 0 0 0 0x100000 0x200000  128 [2,0,1]
def rt := dsc 7 0 0 0 0 0x200000  80 [1,0,0,0,10,0]
def rst := dsc 8 0 3 0 0 0x200000 256 []
def krun (d : List Nat) : Cmd := {cmdr d with phase := .running, total := 256, readyAt := 0}
def rc (kind : Nat) (len dest : Nat) := dsc 9 0 0 0 0 dest len [kind, 3, 4, 0]
def tw (t row len src : Nat) := dsc 10 0 t row src 0 len []
def im10b : List Nat := tImg [(1,0,0,leBytes 4 5000 ++ [1,0,0,0] ++ leBytes 2 0xFFFF ++ List.replicate 2 0 ++ leBytes 4 1000 ++ leBytes 4 500 ++ List.replicate 12 0), (14,0,0,[3,3,3,3] ++ List.replicate 100 0)]

def wCommandsStart1 : State := { dev := T 5 (dsc 0 0 0 0 0 0 0 []) }
def wCommandsStart2 : Cmd := cmdr (dsc 0 0 0 0 0 0 0 [])
def wCommandsStart3 : State := { dev := T 5 (dsc 1 0 0 0 0 0 0 []) }
def wCommandsStart4 : Cmd := cmdr (dsc 1 0 0 0 0 0 0 [])
def wCommandsStart5 : State := { dev := T 5 ld }
def wCommandsStart6 : State := { dev := T 5 ld0 }
def wCommandsStart7 : State := { dev := T 5 sd }
def wCommandsStart8 : State := { dev := T 5 rs }
def wCommandsStart9 : State := { dev := st 5 0 (cmdr rs) }
def wCommandsStart10 : State := { dev := T 5 tr }
def wCommandsStart11 : State := { dev := T 5 qp }
def wCommandsStart12 : State := { dev := (T 5 rt).wr R.LPE_TRC_STATUS_STATE 4 }
def wCommandsStart13 : State := { dev := let d := (T 5 (dsc 0 7 0 0 0 0 0 [])); d.mapClient 5 (fun c => {c with tags := [{ring := 1, tag := 7, status := 5, result := 77}]}) }
def wCommandsStart14 : Cmd := cmdr (dsc 0 7 0 0 0 0 0 [])
def wCommandsStart15 : State := { dev := let d := (T 5 (dsc 0 7 0 0 0 0 0 [])); d.mapClient 5 (fun c => {c with cmds := {cmdr (dsc 2 7 0 0 0 0 0 []) with seqNo := 1, phase := .waiting} :: c.cmds}) }
def wCommandsStart16 : Cmd := cmdr (dsc 0 7 0 0 0 0 0 [])
def wReadsAndTables1 : State := { dev := T 5 rst }
def wReadsAndTables2 : State := { dev := let d := st 0 0xFF (krun rst); {d with beat := 100} }
def wReadsAndTables3 : State := { dev := T 5 (rc 1 133640 0x200000) }
def wReadsAndTables4 : Cmd := cmdr (rc 1 133640 0x200000)
def wReadsAndTables5 : State := { dev := T 5 (rc 2 2736 0x200000) }
def wReadsAndTables6 : Cmd := cmdr (rc 2 2736 0x200000)
def wReadsAndTables7 : State := { dev := T 5 (rc 3 0 0) }
def wReadsAndTables8 : Cmd := cmdr (rc 3 0 0)
def wReadsAndTables9 : State := { dev := T 0 (rc 3 0 0) }
def wReadsAndTables10 : Cmd := cmdr (rc 3 0 0)
def wReadsAndTables11 : State := { dev := T 5 (rc 4 0 0) }
def wReadsAndTables12 : Cmd := cmdr (rc 4 0 0)
def wReadsAndTables13 : State := { dev := T 0 (tw 5 3 16 0) }
def wReadsAndTables14 : Cmd := cmdr (tw 5 3 16 0)
def wReadsAndTables15 : State := { dev := T 0 (tw 2 3 64 0x100000) }
def wReadsAndTables16 : Cmd := cmdr (tw 2 3 64 0x100000)
def wReadsAndTables17 : State := { dev := T 0 (tw 2 64 64 0x100000) }
def wReadsAndTables18 : Cmd := cmdr (tw 2 64 64 0x100000)
def wCommandsStart17 : State := { dev := let d := T 5 qp; {d with sq := {d.sq with active := im10b}} }

/-- States and operands that meet the hypotheses of each clause of Obligations.CommandsStart. -/
theorem witness_CommandsStart :
    ((5 ≤ 256 ∧ 1 < 8 ∧ wCommandsStart11.dev.starting 5 1 opFence = none) ∧
     (5 ≤ 256 ∧ 1 < 8 ∧ wCommandsStart11.dev.starting 5 1 opLoad = none) ∧
     (5 ≤ 256 ∧ 1 < 8 ∧ wCommandsStart11.dev.starting 5 1 opStore = none) ∧
     (5 ≤ 256 ∧ 1 < 8 ∧ wCommandsStart11.dev.starting 5 1 opSection = none) ∧
     (5 ≤ 256 ∧ 1 < 8 ∧ wCommandsStart11.dev.starting 5 1 opTrain = none) ∧
     (5 ≤ 256 ∧ 1 < 8 ∧ wCommandsStart11.dev.starting 5 1 opTrace = none) ∧
     (5 ≤ 256 ∧ 1 < 8 ∧ wCommandsStart11.dev.starting 5 1 6 = some (cmdr qp)) ∧
     (5 ≤ 256 ∧ 1 < 8 ∧ wCommandsStart11.dev.starting 5 1 opNop = none)) ∧
    ((5 ≤ 256 ∧ 1 < 8 ∧ wCommandsStart11.dev.mayStart 5 1 opQp (cmdr qp) = true ∧ (cmdr qp).src % 4096 = 0 ∧
       0 < (cmdr qp).len ∧ (cmdr qp).len ≤ 2 ^ 21 ∧ wCommandsStart11.dev.mpcPlan = false ∧
       (wCommandsStart11.dev.clientSlots 5 qpNeed).isEmpty = false ∧
       wCommandsStart11.dev.reqOk 5 (cmdr qp).src (cmdr qp).len = true) ∧
     (5 ≤ 256 ∧ 1 < 8 ∧ wCommandsStart1.dev.mayStart 5 1 opNop wCommandsStart2 = true) ∧
     (5 ≤ 256 ∧ 1 < 8 ∧ wCommandsStart3.dev.mayStart 5 1 opFence wCommandsStart4 = true)) ∧
    ((5 ≤ 256 ∧ 1 < 8 ∧ wCommandsStart5.dev.mayStart 5 1 opLoad (cmdr ld) = true ∧ (cmdr ld).src % 64 = 0 ∧
       devOff (cmdr ld).dest % 64 = 0 ∧ (cmdr ld).len % 64 = 0 ∧ 64 ≤ (cmdr ld).len ∧ (cmdr ld).len ≤ 2 ^ 36 ∧
       devSpace (cmdr ld).dest ≠ 3 ∧ wCommandsStart5.dev.clientSpace 5 (devSpace (cmdr ld).dest) = some (0, 1048576) ∧
       devOff (cmdr ld).dest + (cmdr ld).len ≤ 1048576 ∧
       wCommandsStart5.dev.inHole (devSpace (cmdr ld).dest) (0 + devOff (cmdr ld).dest) (cmdr ld).len = false ∧
       wCommandsStart5.dev.reqOk 5 (cmdr ld).src (cmdr ld).len = true ∧
       wCommandsStart5.dev.fitsSome 5 moveNeed 16 = true) ∧
     (5 ≤ 256 ∧ 1 < 8 ∧ wCommandsStart6.dev.mayStart 5 1 opLoad (cmdr ld0) = true ∧ (cmdr ld0).len = 0)) ∧
    ((5 ≤ 256 ∧ 1 < 8 ∧ wCommandsStart7.dev.mayStart 5 1 opStore (cmdr sd) = true ∧ (cmdr sd).dest % 64 = 0 ∧
       devOff (cmdr sd).src % 64 = 0 ∧ (cmdr sd).len % 64 = 0 ∧ 64 ≤ (cmdr sd).len ∧ (cmdr sd).len ≤ 2 ^ 36 ∧
       devSpace (cmdr sd).src ≠ 3 ∧ wCommandsStart7.dev.clientSpace 5 (devSpace (cmdr sd).src) = some (0, 1048576) ∧
       devOff (cmdr sd).src + (cmdr sd).len ≤ 1048576 ∧
       wCommandsStart7.dev.inHole (devSpace (cmdr sd).src) (0 + devOff (cmdr sd).src) (cmdr sd).len = false ∧
       wCommandsStart7.dev.reqOk 5 (cmdr sd).dest (cmdr sd).len = true ∧
       wCommandsStart7.dev.fitsSome 5 moveNeed 16 = true) ∧
     (5 ≤ 256 ∧ 1 < 8 ∧ wCommandsStart8.dev.mayStart 5 1 opSection (cmdr rs) = true ∧ (cmdr rs).src % 4096 = 0 ∧
       0 < (cmdr rs).len ∧ (cmdr rs).len ≤ 65536 ∧ (cmdr rs).par16 40 ≠ 0 ∧
       wCommandsStart8.dev.reqOk 5 (cmdr rs).src (cmdr rs).len = true ∧
       wCommandsStart8.dev.fitsSome 5 moveNeed 16 = true)) ∧
    ((5 ≤ 256 ∧ 1 < 8 ∧ wCommandsStart9.dev.starting 5 1 opSection = some (cmdr rs) ∧
       wCommandsStart9.dev.tagMatch 5 (cmdr rs) = none ∧ rightBit opSection = some 1 ∧
       wCommandsStart9.dev.rightOk 5 1 = false ∧ (cmdr rs).src ≠ 0) ∧
     (5 ≤ 256 ∧ 1 < 8 ∧ wCommandsStart10.dev.mayStart 5 1 opTrain (cmdr tr) = true ∧ (cmdr tr).src % 4096 = 0 ∧
       0 < (cmdr tr).len ∧ (cmdr tr).len ≤ 81920 ∧ 0 < (cmdr tr).batch ∧ (cmdr tr).action ≤ 1 ∧
       wCommandsStart10.dev.reqOk 5 (cmdr tr).src (cmdr tr).len = true ∧
       wCommandsStart10.dev.reqOk 5 (cmdr tr).dest 64 = true ∧ wCommandsStart10.dev.fitsSome 5 moveNeed 16 = true)) ∧
    ((5 ≤ 256 ∧ 1 < 8 ∧ wCommandsStart12.dev.mayStart 5 1 opTrace (cmdr rt) = true ∧ 0 < (cmdr rt).par16 44 ∧
       (cmdr rt).par16 42 + (cmdr rt).par16 44 ≤ 8192 ∧
       (cmdr rt).len = ((setBits ((cmdr rt).par8 40) 8).length + 1) * (cmdr rt).par16 44 * 4 ∧
       wCommandsStart12.dev.rd R.LPE_TRC_STATUS_STATE = 4 ∧
       wCommandsStart12.dev.reqOk 5 (cmdr rt).dest (cmdr rt).len = true ∧
       wCommandsStart12.dev.fitsSome 5 moveNeed 16 = true) ∧
     (5 ≤ 256 ∧ 1 < 8 ∧ wCommandsStart13.dev.starting 5 1 opNop = some wCommandsStart14 ∧
       wCommandsStart13.dev.tagMatch 5 wCommandsStart14 = some (some (77, 5))) ∧
     (5 ≤ 256 ∧ 1 < 8 ∧ wCommandsStart15.dev.starting 5 1 opNop = some wCommandsStart16 ∧
       wCommandsStart15.dev.tagMatch 5 wCommandsStart16 = some none) ∧
     (5 ≤ 256 ∧ 1 < 8 ∧ wCommandsStart17.dev.mayStart 5 1 opQp (cmdr qp) = true ∧
       wCommandsStart17.dev.mpcPlan = true ∧ (cmdr qp).src % 4096 = 0 ∧ 0 < (cmdr qp).len ∧ (cmdr qp).len ≤ 2 ^ 21)) :=
  ⟨by decide +kernel, by decide +kernel, by decide +kernel, by decide +kernel, by decide +kernel, by decide +kernel⟩

/-- States and operands that meet the hypotheses of each clause of Obligations.ReadsAndTables. -/
theorem witness_ReadsAndTables :
    ((5 ≤ 256 ∧ 1 < 8 ∧ wReadsAndTables1.dev.starting 5 1 opCal = none) ∧
     (5 ≤ 256 ∧ 1 < 8 ∧ wReadsAndTables1.dev.mayStart 5 1 opStats (cmdr rst) = true ∧ (cmdr rst).par8 8 ≤ 22 ∧ 5 ≠ 0 ∧
       (wReadsAndTables1.dev.finish 5 (cmdr rst) stForbidden 0 0).runningCmd 5 1 opStats = none) ∧
     (5 ≤ 256 ∧ 1 < 8 ∧ wReadsAndTables1.dev.starting 5 1 opTable = none) ∧
     (0 ≤ 256 ∧ 1 < 8 ∧ wReadsAndTables2.dev.starting 0 1 opStats = none ∧
       wReadsAndTables2.dev.runningCmd 0 1 opStats = some (krun rst) ∧ wReadsAndTables2.dev.busOk 0 = true ∧
       wReadsAndTables2.dev.myTurn 0 1 = true ∧
       wReadsAndTables2.dev.room 0 { } (krun rst).firstOf = some (1, 80, 1944) ∧ 16 ≤ 1944 ∧
       wReadsAndTables2.dev.reqOk 0 (krun rst).dest (krun rst).total = true)) ∧
    ((5 ≤ 256 ∧ 1 < 8 ∧ wReadsAndTables3.dev.mayStart 5 1 opCal wReadsAndTables4 = true ∧
       wReadsAndTables4.calKind = 1 ∧ wReadsAndTables4.calTile < 16 ∧ wReadsAndTables4.calRow ≤ 256 ∧
       wReadsAndTables4.len = 133640 ∧ wReadsAndTables3.dev.reqOk 5 wReadsAndTables4.dest wReadsAndTables4.len = true) ∧
     (5 ≤ 256 ∧ 1 < 8 ∧ wReadsAndTables5.dev.mayStart 5 1 opCal wReadsAndTables6 = true ∧
       wReadsAndTables6.calKind = 2 ∧ wReadsAndTables6.calTile < 16 ∧ wReadsAndTables6.calRow ≤ 256 ∧
       wReadsAndTables6.len = 2736 ∧ wReadsAndTables5.dev.reqOk 5 wReadsAndTables6.dest wReadsAndTables6.len = true) ∧
     (5 ≤ 256 ∧ 1 < 8 ∧ wReadsAndTables7.dev.mayStart 5 1 opCal wReadsAndTables8 = true ∧
       wReadsAndTables8.calKind = 3 ∧ 5 ≠ 0)) ∧
    ((0 ≤ 256 ∧ 1 < 8 ∧ wReadsAndTables9.dev.mayStart 0 1 opCal wReadsAndTables10 = true ∧
       wReadsAndTables10.calKind = 3 ∧ wReadsAndTables10.calTile < 16 ∧ wReadsAndTables10.calRow ≤ 256 ∧
       wReadsAndTables10.len = 0 ∧ wReadsAndTables10.dest = 0) ∧
     (5 ≤ 256 ∧ 1 < 8 ∧ wReadsAndTables11.dev.mayStart 5 1 opCal wReadsAndTables12 = true ∧
       3 < wReadsAndTables12.calKind) ∧
     (0 ≤ 256 ∧ 1 < 8 ∧ wReadsAndTables13.dev.mayStart 0 1 opTable wReadsAndTables14 = true ∧
       tableShape (wReadsAndTables14.par8 8) = some (16, 64) ∧ wReadsAndTables14.len = 16 ∧
       wReadsAndTables14.par16 10 < 64 ∧ 16 ≤ 16 ∧
       wReadsAndTables13.dev.rowOk (wReadsAndTables14.par8 8) (wReadsAndTables14.par16 10) (bytesAt wReadsAndTables14.desc 40 16) = true ∧
       ((wReadsAndTables13.dev.sq.changes.all fun x => x.seqNo != wReadsAndTables14.seqNo) = true))) ∧
    ((0 ≤ 256 ∧ 1 < 8 ∧ wReadsAndTables15.dev.mayStart 0 1 opTable wReadsAndTables16 = true ∧
       tableShape (wReadsAndTables16.par8 8) = some (64, 64) ∧ wReadsAndTables16.len = 64 ∧
       wReadsAndTables16.par16 10 < 64 ∧ 16 < 64 ∧ wReadsAndTables15.dev.reqOk 0 wReadsAndTables16.src 64 = true) ∧
     (0 ≤ 256 ∧ 1 < 8 ∧ wReadsAndTables17.dev.mayStart 0 1 opTable wReadsAndTables18 = true ∧
       tableShape (wReadsAndTables18.par8 8) = some (64, 64) ∧
       (wReadsAndTables18.len ≠ 64 ∨ 64 ≤ wReadsAndTables18.par16 10))) :=
  ⟨by decide +kernel, by decide +kernel, by decide +kernel, by decide +kernel⟩

end Commands

namespace Work

def fon : Dev := on.wr R.BTP_STATUS_FW_READY 1
def leB (n v : Nat) := leBytes n v
def dsc (op tag b8 h10 src dest len : Nat) (par : List Nat) : List Nat := [op,0,0,0] ++ leB 4 tag ++ [b8,0] ++ leB 2 h10 ++ leB 4 0 ++ leB 8 src ++ leB 8 dest ++ leB 8 len ++ (par ++ List.replicate 24 0).take 24
def cmdr (d : List Nat) : Cmd := {ring := 1, index := 0, seqNo := 3, desc := d, phase := .running, readyAt := 0}
def im10 : List Nat := tImg [(1,0,0,leBytes 4 5000 ++ [1,0,0,0] ++ leBytes 2 0xFFFF ++ List.replicate 2 0 ++ leBytes 4 1000 ++ List.replicate 16 0), (2,0,0, tSlot 0 24 3 0 0 0 0 0 0 ++ tSlot 24 2000 2 0 0xFFFF 0xFF 3 0 0 ++ tSlot 2024 1000 2 5 0xFFFF 0xFF 3 0 0  ++ tSlot 4100 300 4 0 0 0 0 0 0),
 (18,0,0, leBytes 2 1 ++ leBytes 2 8 ++ [0,0,0,0] ++ List.replicate 8 0 ++ (leBytes 4 0x100 ++ leBytes 4 256 ++ [6] ++ List.replicate 7 0) ++ List.replicate 16 0), (19,0,0,[64,0] ++ List.replicate 14 0 ++ List.replicate 4096 0), (19,0,0,[64,0] ++ List.replicate 14 0 ++ List.replicate 4096 0)]
def base10 : Dev := { (fon.wr R.SEQ_STATUS_ACTIVE 1) with beat := 2100, sq := { active := im10, actForms := [0,1,1], frameAt := some 20, frameNo := 1} , hif := {fon.hif with fns := [(0,{bme := true}),(5,{bme := true})]} }
def cfgC (d : Dev) (c : Nat) (rights : Nat) : Dev :=
  let d := ((d.wri R.ENT_T1_SIZE c 0x100000).wri R.ENT_HOST_BASE c 0x100000).wri R.ENT_HOST_SIZE c 0x10000000
  let d := d.wri R.ENT_RIGHTS c rights
  let d := ((d.pwr c R.HIF_USE_CTL_EN 1).pwr c R.HIF_USE_BASE 0x100000).pwr c R.HIF_USE_SIZE 0x10000000
  d.setRing c 1 1
def T (k : Cmd) : Dev := (cfgC base10 5 0xFF).setClient 5 {cmds := [k], nextSeq := 9}
def ld := {cmdr (dsc 2 0 0 0 0x100000 (2^62 + 0x40) 128 []) with total := 128}
def sd := {cmdr (dsc 3 0 0 0 (2^62 + 0x40) 0x100000 128 []) with total := 128}
def sdb := {cmdr (dsc 3 0 0 0 (2^62 + 0x40) 0x100000 65536 []) with total := 65536}
def sdf := {cmdr (dsc 3 0 0 0 (2^62 + 0x40) 0 128 []) with total := 128}
-- section: items: one VU item: token 0 from FETCH tier1
def sec (items : List (List Nat)) : List Nat := leB 4 0x43455353 ++ leB 2 1 ++ leB 2 items.length ++ leB 2 4 ++ [1,0] ++ leB 4 100 ++ leB 4 0 ++ leB 4 7 ++ List.replicate 8 0 ++ (leB 4 0 ++ leB 4 256 ++ [4] ++ List.replicate 7 0) ++ List.replicate 16 0 ++ items.flatten
def N := noTok
def okI := [tItem 0 20 1 0 N N 0 (leB 8 0x40 ++ leB 4 64 ++ [1,0,0,0])]
def badI := [tItem 0 20 1 0 N N 0 (leB 8 0x40000000 ++ leB 4 64 ++ [1,0,0,0])]
def ks (pos : Nat) (it : List (List Nat)) : Cmd := {cmdr (dsc 4 0 0 0 0x100000 0 128 [2,0]) with stage := 1, pos := pos, data := sec it}
def xr (k : Cmd) : Run := (((T k).useBeats 5 k 6 2080 100).csRun 5 k.data 0 []).2
def ksT : Cmd := ks 0 [tItem 0 20 3 0 0 N 0 []]
-- training image: 1 group, fwd section 5, transposed 6, grad token 0
def grp : List Nat := leB 2 3 ++ [1,0] ++ leB 2 4 ++ leB 2 0xFFFF ++ leB 2 0xFFFF ++ leB 2 0xFFFF ++ leB 2 0 ++ leB 2 0 ++ leB 8 0 ++ leB 8 0
def tim : List Nat := leB 4 0x4E525452 ++ leB 2 1 ++ [1,1] ++ leB 4 0x3f000000 ++ leB 4 0x3f000000 ++ leB 4 0x3f000000 ++ leB 4 0x3f000000 ++ leB 2 0xFFFF ++ leB 2 0xFFFF ++ leB 4 96 ++ leB 4 96 ++ leB 8 64 ++ List.replicate 20 0 ++ grp ++ sec [tItem 0 20 5 0 1 N 0 ([1,0] ++ leBytes 2 0xFFFF ++ leBytes 4 8)]
def kt (st pos batch : Nat) : Cmd := {cmdr (dsc 5 0 0 0 0x100000 0x200000 128 ([batch,0,0] ++ List.replicate 5 0)) with stage := st, pos := pos, data := tim}
def sl0 : Slot := {start := 4100, len := 300, kind := 4, client := 0, tiles := 0, vu := 0, units := 0, itemFirst := 0, itemCount := 0, res := 0}
def ck (k : Cmd) (key p left n m : Nat) := k
def T2 (k : Cmd) : Dev := let d := T k; {d with beat := 4150, sq := {d.sq with hkpDone := true}}
def TT : Dev := ((T ld).setRing 5 3 1).setClient 5 {cmds := [ld, {ld with ring := 3, seqNo := 4}], nextSeq := 9}
def trn (d : Dev) (b r : Nat) : Dev := {d with sq := {d.sq with turn := [(10, (b, r))]}}
def uj : UpdJob := {op := 0x48, ring := 1, phase := .erase}

def wTransferSteps1 : State := { dev := T ld }
def wTransferSteps2 : State := { dev := T sd }
def wTransferSteps3 : State := { dev := T sdf }
def wTransferSteps4 : State := { dev := on }
def wSectionRuns1 : State := { dev := T {ks 0 okI with phase := .ready} }
def wSectionRuns2 : State := { dev := T {ks 0 okI with stage := 0} }
def wSectionRuns3 : Cmd := {ks 0 okI with stage := 0}
def wSectionRuns4 : State := { dev := T (ks 0 okI) }
def wSectionRuns5 : Run := xr (ks 0 okI)
def wSectionRuns6 : State := { dev := T (ks 1 okI) }
def wSectionRuns7 : Run := xr (ks 1 okI)
def wSectionRuns8 : State := { dev := T (ks 0 badI) }
def wSectionRuns9 : Run := xr (ks 0 badI)
def wSectionRuns10 : State := { dev := T ksT }
def wTrainSteps1 : State := { dev := T {kt 0 0 2 with phase := .ready} }
def wTrainSteps2 : State := { dev := T (kt 1 0 2) }
def wTrainSteps3 : State := { dev := T {(kt 2 0 2) with tr := {reinit := 1}} }
def wTrainSteps4 : Cmd := {(kt 2 0 2) with tr := {reinit := 1}}
def wTrainSteps5 : State := { dev := T {(kt 3 1 3) with tr := {valid := 1}} }
def wTrainSteps6 : Cmd := {(kt 3 1 3) with tr := {valid := 1}}
def wTrainSteps7 : State := { dev := T (kt 4 0 2) }
def wTrainSteps8 : State := { dev := T2 (kt 5 0 2) }
def wTrainSteps9 : State := { dev := {T (kt 4 0 2) with beat := 3014} }
def wRingTurns1 : State := { dev := trn TT 2050 1 }
def wRingTurns2 : State := { dev := trn TT 2050 1 }

/-- States and operands that meet the hypotheses of each clause of Obligations.RingTurns. -/
theorem witness_RingTurns :
    (5 ≤ 256 ∧ 3 < 8 ∧ 3 < 8 ∧ wRingTurns1.dev.readyKey 5 3 = some 6 ∧ wRingTurns1.dev.readyKey 5 3 = some 6 ∧
      wRingTurns1.dev.slotSince 5 6 (sget (0, 7) wRingTurns1.dev.sq.turn (turnKey 5 6)).1 = false ∧
      wRingTurns1.dev.myTurn 5 3 = true ∧ wRingTurns1.dev.myTurn 5 3 = true) ∧
    (5 ≤ 256 ∧ 1 < 8 ∧ 3 < 8 ∧ wRingTurns2.dev.readyKey 5 1 = some 6 ∧ wRingTurns2.dev.readyKey 5 3 = some 6 ∧ 1 ≠ 3 ∧
      sfind wRingTurns2.dev.sq.turn (turnKey 5 6) = some (2050, 1) ∧ wRingTurns2.dev.slotSince 5 6 2050 = false) := by
  decide +kernel

/-- States and operands that meet the hypotheses of each clause of Obligations.TransferSteps. -/
theorem witness_TransferSteps :
    (5 ≤ 256 ∧ 1 < 8 ∧ wTransferSteps1.dev.head 5 1 = some ld ∧ ld.phase = CmdPhase.running ∧
      wTransferSteps1.dev.running = true ∧ wTransferSteps1.dev.inReset 6 = false ∧
      wTransferSteps1.dev.busOk 5 = true ∧ ld.pos < ld.total ∧ wTransferSteps1.dev.myTurn 5 1 = true ∧
      wTransferSteps1.dev.room 5 ld.moveNeed ld.firstOf = some (6, 2080, 944) ∧
      moveStep (min 944 50) (ld.total - ld.pos) = (16, 128) ∧ 16 ≤ 944 ∧ ld.op = opLoad ∧
      wTransferSteps1.dev.reqOk 5 (ld.src + ld.pos) 128 = true) ∧
    (5 ≤ 256 ∧ 1 < 8 ∧ wTransferSteps2.dev.head 5 1 = some sd ∧ sd.phase = CmdPhase.running ∧
      wTransferSteps2.dev.running = true ∧ wTransferSteps2.dev.inReset 6 = false ∧
      wTransferSteps2.dev.busOk 5 = true ∧ sd.pos < sd.total ∧ wTransferSteps2.dev.myTurn 5 1 = true ∧
      wTransferSteps2.dev.room 5 sd.moveNeed sd.firstOf = some (6, 2080, 944) ∧
      moveStep (min 944 50) (sd.total - sd.pos) = (16, 128) ∧ 16 ≤ 944 ∧ sd.op = opStore ∧
      wTransferSteps2.dev.cmds 5 = [sd] ∧ wTransferSteps2.dev.noSolve = true ∧
      wTransferSteps2.dev.reqOk 5 (sd.dest + sd.pos) 128 = true) ∧
    (5 ≤ 256 ∧ 1 < 8 ∧ wTransferSteps3.dev.head 5 1 = some sdf ∧ sdf.phase = CmdPhase.running ∧
      wTransferSteps3.dev.running = true ∧ wTransferSteps3.dev.inReset 6 = false ∧
      wTransferSteps3.dev.busOk 5 = true ∧ sdf.pos < sdf.total ∧ wTransferSteps3.dev.myTurn 5 1 = true ∧
      wTransferSteps3.dev.room 5 sdf.moveNeed sdf.firstOf = some (6, 2080, 944) ∧
      moveStep (min 944 50) (sdf.total - sdf.pos) = (16, 128) ∧ 16 ≤ 944 ∧ sdf.op = opStore ∧
      wTransferSteps3.dev.cmds 5 = [sdf] ∧ wTransferSteps3.dev.noSolve = true ∧
      wTransferSteps3.dev.reqOk 5 (sdf.dest + sdf.pos) 128 = false) ∧
    (5 ≤ 256 ∧ 1 < 8 ∧
      (∀ (x : Cmd), wTransferSteps4.dev.head 5 1 = some x → x.phase ≠ CmdPhase.running ∨ x.total ≤ x.pos ∨ wTransferSteps4.dev.busOk 5 = false)) :=
  ⟨by decide +kernel, by decide +kernel, by decide +kernel, ⟨by decide +kernel, by decide +kernel, (fun _ h => nomatch (h.symm.trans (by decide +kernel : wTransferSteps4.dev.head 5 1 = none)))⟩⟩

/-- States and operands that meet the hypotheses of each clause of Obligations.SectionRuns. -/
theorem witness_SectionRuns :
    ((5 ≤ 256 ∧ 1 < 8 ∧ wSectionRuns1.dev.runningCmd 5 1 opSection = none) ∧
     (5 ≤ 256 ∧ 1 < 8 ∧ wSectionRuns2.dev.runningCmd 5 1 opSection = some wSectionRuns3 ∧ wSectionRuns3.stage ≠ 1)) ∧
    (5 ≤ 256 ∧ 1 < 8 ∧ wSectionRuns4.dev.runningCmd 5 1 opSection = some (ks 0 okI) ∧ (ks 0 okI).stage = 1 ∧
      wSectionRuns4.dev.runReady 5 (ks 0 okI) (ks 0 okI).data = true ∧ wSectionRuns4.dev.busOk 5 = true ∧
      wSectionRuns4.dev.myTurn 5 1 = true ∧
      wSectionRuns4.dev.room 5 (csNeed (ks 0 okI).data) (ks 0 okI).firstOf = some (6, 2080, 944) ∧
      csSpan (ks 0 okI).data ≤ 944 ∧
      wSectionRuns5 = ((wSectionRuns4.dev.useBeats 5 (ks 0 okI) 6 2080 (csSpan (ks 0 okI).data)).csRun 5 (ks 0 okI).data 0 []).2 ∧
      wSectionRuns5.viol = false ∧ (ks 0 okI).pos + 1 ≠ (ks 0 okI).par16 40) ∧
    (5 ≤ 256 ∧ 1 < 8 ∧ wSectionRuns6.dev.runningCmd 5 1 opSection = some (ks 1 okI) ∧ (ks 1 okI).stage = 1 ∧
      wSectionRuns6.dev.runReady 5 (ks 1 okI) (ks 1 okI).data = true ∧ wSectionRuns6.dev.busOk 5 = true ∧
      wSectionRuns6.dev.myTurn 5 1 = true ∧
      wSectionRuns6.dev.room 5 (csNeed (ks 1 okI).data) (ks 1 okI).firstOf = some (6, 2080, 944) ∧
      csSpan (ks 1 okI).data ≤ 944 ∧
      wSectionRuns7 = ((wSectionRuns6.dev.useBeats 5 (ks 1 okI) 6 2080 (csSpan (ks 1 okI).data)).csRun 5 (ks 1 okI).data 0 []).2 ∧
      wSectionRuns7.viol = false ∧ (ks 1 okI).pos + 1 = (ks 1 okI).par16 40) ∧
    (5 ≤ 256 ∧ 1 < 8 ∧ wSectionRuns8.dev.runningCmd 5 1 opSection = some (ks 0 badI) ∧ (ks 0 badI).stage = 1 ∧
      wSectionRuns8.dev.runReady 5 (ks 0 badI) (ks 0 badI).data = true ∧ wSectionRuns8.dev.busOk 5 = true ∧
      wSectionRuns8.dev.myTurn 5 1 = true ∧
      wSectionRuns8.dev.room 5 (csNeed (ks 0 badI).data) (ks 0 badI).firstOf = some (6, 2080, 944) ∧
      csSpan (ks 0 badI).data ≤ 944 ∧
      wSectionRuns9 = ((wSectionRuns8.dev.useBeats 5 (ks 0 badI) 6 2080 (csSpan (ks 0 badI).data)).csRun 5 (ks 0 badI).data 0 []).2 ∧
      wSectionRuns9.viol = true) ∧
    (5 ≤ 256 ∧ 1 < 8 ∧ wSectionRuns10.dev.runningCmd 5 1 opSection = some ksT ∧
      wSectionRuns10.dev.runReady 5 ksT ksT.data = false) :=
  ⟨by decide +kernel, ⟨by decide +kernel, by decide +kernel, by decide +kernel, by decide +kernel, by decide +kernel, by decide +kernel, by decide +kernel, by decide +kernel, by decide +kernel, rfl, by decide +kernel, by decide +kernel⟩, ⟨by decide +kernel, by decide +kernel, by decide +kernel, by decide +kernel, by decide +kernel, by decide +kernel, by decide +kernel, by decide +kernel, by decide +kernel, rfl, by decide +kernel, by decide +kernel⟩, ⟨by decide +kernel, by decide +kernel, by decide +kernel, by decide +kernel, by decide +kernel, by decide +kernel, by decide +kernel, by decide +kernel, by decide +kernel, rfl, by decide +kernel⟩, by decide +kernel⟩

/-- States and operands that meet the hypotheses of each clause of Obligations.TrainSteps. -/
theorem witness_TrainSteps :
    ((5 ≤ 256 ∧ 1 < 8 ∧ wTrainSteps2.dev.trainCmd 5 1 2 = none) ∧
     (5 ≤ 256 ∧ 1 < 8 ∧ wTrainSteps2.dev.trainCmd 5 1 3 = none) ∧
     (5 ≤ 256 ∧ 1 < 8 ∧ wTrainSteps2.dev.trainCmd 5 1 4 = none) ∧
     (5 ≤ 256 ∧ 1 < 8 ∧ wTrainSteps2.dev.trainCmd 5 1 5 = none) ∧
     (5 ≤ 256 ∧ 1 < 8 ∧ wTrainSteps2.dev.trainCmd 5 1 1 = some (kt 1 0 2)) ∧
     (5 ≤ 256 ∧ 1 < 8 ∧ wTrainSteps2.dev.trainCmd 5 1 1 = some (kt 1 0 2) ∧ wTrainSteps2.dev.myTurn 5 1 = true ∧
       wTrainSteps2.dev.room 5 { } (kt 1 0 2).firstOf = some (6, 2080, 944) ∧ 64 ≤ 944) ∧
     (5 ≤ 256 ∧ 1 < 8 ∧ wTrainSteps1.dev.trainCmd 5 1 1 = none)) ∧
    ((5 ≤ 256 ∧ 1 < 8 ∧ wTrainSteps3.dev.trainCmd 5 1 2 = some wTrainSteps4 ∧ wTrainSteps3.dev.myTurn 5 1 = true ∧
       wTrainSteps3.dev.room 5 vuNeed wTrainSteps4.firstOf = some (6, 2080, 944) ∧
       elemStep 256 944 (wTrainSteps3.dev.elemSum wTrainSteps4.reinits - wTrainSteps4.pos) = some (40, 4096)) ∧
     (5 ≤ 256 ∧ 1 < 8 ∧ wTrainSteps5.dev.trainCmd 5 1 3 = some wTrainSteps6 ∧
       wTrainSteps5.dev.runReady 5 wTrainSteps6 (tiSec wTrainSteps6.data) = true ∧ wTrainSteps5.dev.busOk 5 = true ∧
       0 < wTrainSteps6.pos ∧ wTrainSteps5.dev.myTurn 5 1 = true ∧
       wTrainSteps5.dev.room 5 wTrainSteps6.runNeed wTrainSteps6.firstOf = some (6, 2080, 944) ∧
       csSpan (tiSec wTrainSteps6.data) + wTrainSteps5.dev.accBeats wTrainSteps6 ≤ 944 ∧
       ((wTrainSteps5.dev.useBeats 5 wTrainSteps6 6 2080 (csSpan (tiSec wTrainSteps6.data) + wTrainSteps5.dev.accBeats wTrainSteps6)).csRun 5 (tiSec wTrainSteps6.data) (wTrainSteps6.pos * tiStride wTrainSteps6.data) []).2.anyInvalid = true ∧
       ((wTrainSteps5.dev.useBeats 5 wTrainSteps6 6 2080 (csSpan (tiSec wTrainSteps6.data) + wTrainSteps5.dev.accBeats wTrainSteps6)).csRun 5 (tiSec wTrainSteps6.data) (wTrainSteps6.pos * tiStride wTrainSteps6.data) []).2.viol = false) ∧
     (5 ≤ 256 ∧ 1 < 8 ∧ wTrainSteps7.dev.trainCmd 5 1 4 = some (kt 4 0 2) ∧ wTrainSteps7.dev.myTurn 5 1 = true ∧
       wTrainSteps7.dev.room 5 vuNeed (kt 4 0 2).firstOf = some (6, 2080, 944) ∧
       elemStep 128 944 (wTrainSteps7.dev.elemSum (kt 4 0 2).groups - (kt 4 0 2).pos) = some (56, 4096) ∧
       wTrainSteps7.dev.elemSum (kt 4 0 2).groups ≤ (kt 4 0 2).pos + 4096)) ∧
    ((5 ≤ 256 ∧ 1 < 8 ∧ wTrainSteps8.dev.trainCmd 5 1 5 = some (kt 5 0 2) ∧
       wTrainSteps8.dev.hkpRoom = some (sl0, 4130, 270) ∧
       16 + cdiv (wTrainSteps8.dev.commitLen (kt 5 0 2)) 1024 ≤ 270 ∧
       wTrainSteps8.dev.sq.commits.contains sl0.start = false ∧ wTrainSteps8.dev.commitBefore 5 = false ∧
       wTrainSteps8.dev.stepsBegun sl0 = false) ∧
     (5 ≤ 256 ∧ 1 < 8 ∧ wTrainSteps9.dev.trainCmd 5 1 4 = some (kt 4 0 2) ∧ wTrainSteps9.dev.myTurn 5 1 = true ∧
       wTrainSteps9.dev.room 5 vuNeed (kt 4 0 2).firstOf = some (6, 2994, 30) ∧
       elemStep 128 30 (wTrainSteps9.dev.elemSum (kt 4 0 2).groups - (kt 4 0 2).pos) = some (30, 768) ∧
       (kt 4 0 2).pos + 768 < wTrainSteps9.dev.elemSum (kt 4 0 2).groups)) :=
  ⟨by decide +kernel, by decide +kernel, by decide +kernel⟩

end Work

namespace Arming

def fon : Dev := on.wr R.BTP_STATUS_FW_READY 1
def leB (n v : Nat) := leBytes n v
def dsc (op tag b8 h10 src dest len : Nat) (par : List Nat) : List Nat := [op,0,0,0] ++ leB 4 tag ++ [b8,0] ++ leB 2 h10 ++ leB 4 0 ++ leB 8 src ++ leB 8 dest ++ leB 8 len ++ (par ++ List.replicate 24 0).take 24
def cmdr (d : List Nat) : Cmd := {ring := 1, index := 0, seqNo := 3, desc := d, phase := .ready, readyAt := 0}
def im10 : List Nat := tImg [(1,0,0,leBytes 4 5000 ++ [1,0,0,0] ++ leBytes 2 0xFFFF ++ List.replicate 2 0 ++ leBytes 4 1000 ++ List.replicate 16 0), (2,0,0, tSlot 0 24 3 0 0 0 0 0 0 ++ tSlot 24 1000 2 0 0xFFFF 0xFF 3 0 0 ++ tSlot 2024 1000 2 5 0xFFFF 0xFF 3 0 0  ++ tSlot 3100 1900 4 0 0 0 0 0 0)]
def base10 : Dev := { (fon.wr R.SEQ_STATUS_ACTIVE 1) with beat := 3170, sq := { active := im10, actForms := [0,1,1], frameAt := some 20, frameNo := 1, hkpDone := true} , hif := {fon.hif with fns := [(0,{bme := true}),(5,{bme := true})]} }
def cfgC (d : Dev) (c : Nat) (rights : Nat) : Dev :=
  let d := ((d.wri R.ENT_T1_SIZE c 0x100000).wri R.ENT_HOST_BASE c 0x100000).wri R.ENT_HOST_SIZE c 0x10000000
  let d := d.wri R.ENT_RIGHTS c rights
  let d := ((d.pwr c R.HIF_USE_CTL_EN 1).pwr c R.HIF_USE_BASE 0x100000).pwr c R.HIF_USE_SIZE 0x10000000
  d.setRing c 1 1
def T (k : Cmd) : Dev := (cfgC base10 0 0xFF).setClient 0 {cmds := [k], nextSeq := 9}
def no (d : Dev) : Dev := {d with sq := {d.sq with frameAt := none}}
def rn (k : Cmd) : Cmd := {k with phase := .running}
def stg (d : Dev) (n : Nat) : Dev := {d with sq := {d.sq with staging := some {ring := 1, seqNo := 3, checks := n}}}
def arm0 (n t : Nat) : Arm := {ring := 1, seqNo := 3, steps := n, target := t, wait := 0}
def arm (d : Dev) (a : Arm) : Dev := {d with sq := {d.sq with arm := some a}}
def ps := cmdr (dsc 0x40 0 0 0 0x100000 0 200000 [])
def psR := {rn ps with total := 200000}
def psE := {rn ps with total := 64, pos := 64, data := List.replicate 64 0}
def psB := {rn (cmdr (dsc 0x40 0 0 0 0x100001 0 200000 [])) with data := List.replicate 64 0}
def pa (t : Nat) := cmdr (dsc 0x41 0 0 0 0 0 0 [t])
-- 2 checks: image with 2 sections gives more steps
def psE2 := {rn ps with total := 64, pos := 64, data := im10}
def hd (k : Nat) := k
def im3 : List Nat :=
  let body := tTab 128 [(19,0xff,0,List.replicate 64 0),(19,0xff,0,List.replicate 64 0)]
  let h := leB 4 0x5551414D ++ leB 2 1 ++ leB 2 2 ++ leB 4 256 ++ leB 4 1 ++ [15] ++ List.replicate 7 0 ++ List.replicate 8 0 ++ [0,1,2] ++ List.replicate 25 0
  h ++ leB 4 (crc32c h) ++ body ++ List.replicate 128 0
def psE3 := {rn ps with total := 256, pos := 256, data := im3}
-- QP
def smp : LpSample := {beat := 80, due := 400, kind := 0, stamp := 5, move := 1}
def qpsec : List Nat := (((List.replicate 96 0).set 28 1).set 44 200)
def lon (d : Dev) : Dev := d.wr R.LPE_STATUS_STATE 1
def im10l : List Nat := tImg [(1,0,0,leBytes 4 5000 ++ [1,0,0,0] ++ leBytes 2 0xFFFF ++ List.replicate 2 0 ++ leBytes 4 1000 ++ leBytes 4 500 ++ List.replicate 12 0)]
def dq : Dev := let d := lon (T ps); {d with lpe := {d.lpe with pend := [smp]}}
def q0 (o : Option (Nat × Nat)) (it : Nat) (ov : Bool) : QRun := {owner := o, sec := qpsec, theta := [0,0,0,0,0,0], start := 88, it := it, overflow := ov}
def wq (d : Dev) (q : QRun) : Dev := {d with qps := {d.qps with run := some q}}
def qps4 := qpsec.set 0 2 |>.set 4 8
def pq1 : Cmd := {rn ps with stage := 1}
-- updates
def fc (t : Nat) := cmdr (dsc 0x48 0 0 0 0x100000 0 8192 [t])
def sl1 : Slot := {start := 3100, len := 1900, kind := 4, client := 0, tiles := 0, vu := 0, units := 0, itemFirst := 0, itemCount := 0, res := 0}
def jb (op t pos : Nat) (ph : UpdPhase) (da : List Nat) : UpdJob := {op := op, ring := 1, target := t, pos := pos, phase := ph, data := da}
def wj (d : Dev) (j : UpdJob) : Dev := {d with boot := {d.boot with job := some j}}
def nvc : Nv := writeRecord {} 0 2 0 5 [] true
def fv := cmdr (dsc 0x49 0 0 0 0 0 0 [1])
def fa := cmdr (dsc 0x4a 0 0 0 0 0 0 [1])
def fo := cmdr (dsc 0x4b 0 0 0 0 0 0 [])
def ot := cmdr (dsc 0x50 0 0 0 0x100000 0 256 [])
def fcr : Cmd := {rn (fc 1) with total := 64, data := List.replicate 64 7}
def otr := rn ot
def TJ : Dev := wj (arm (((T fcr).setRing 0 0 1).setClient 0 {cmds := [{rn (pa 1) with ring := 0, seqNo := 4}, fcr], nextSeq := 9}) {arm0 2 1 with ring := 0, seqNo := 4}) (jb 0x48 1 0 .erase [])
def TC : Dev := TJ.setClient 5 {cmds := [{rn (cmdr (dsc 5 0 0 0 0x100000 0 128 [2,0])) with stage := 5}], nextSeq := 9}

def wPlansStageAndArm1 : State := { dev := T ps }
def wPlansStageAndArm2 : State := { dev := arm (T ps) {arm0 2 0 with seqNo := 7} }
def wPlansStageAndArm3 : State := { dev := stg (T psR) 0 }
def wPlansStageAndArm4 : Staging := {ring := 1, seqNo := 3}
def wPlansStageAndArm5 : State := { dev := stg (T psB) 0 }
def wPlansStageAndArm6 : Staging := {ring := 1, seqNo := 3}
def wPlansStageAndArm7 : State := { dev := (T (pa 2)) }
def wPlansStageAndArm8 : State := { dev := no (T (pa 1)) }
def wPlansStageAndArm9 : State := { dev := arm (T (rn (pa 1))) (arm0 2 1) }
def wPlansStageAndArm10 : State := { dev := arm (T (rn (pa 1))) (arm0 1 1) }
def wPlansStageAndArm11 : Arm := (arm0 1 1) -- 2 checks: image with 2 sections gives more steps
def wPlansStageAndArm12 : State := { dev := stg (T psE3) 0 }
def wPlansStageAndArm13 : Staging := {ring := 1, seqNo := 3}
def wQpSolves1 : State := { dev := {dq with beat := 100, sq := {dq.sq with active := im10l}} }
def wQpSolves2 : State := { dev := wq (T ps) (q0 none 0 false) }
def wQpSolves3 : QRun := q0 none 0 false
def wQpSolves4 : State := { dev := wq {T ps with beat := 120} (q0 none 0 false) }
def wQpSolves5 : QRun := q0 none 0 false
def wQpSolves6 : State := { dev := wq (T pq1) (q0 (some (0,3)) 12 false) }
def wQpSolves7 : QRun := q0 (some (0,3)) 12 false
def wUpdateCommands1 : State := {dev := (T (fc 1)).wr R.BTP_STATUS_BOOTED 0, nv := nvc}
def wUpdateCommands2 : State := {dev := (T (fc 4)), nv := nvc}
def wUpdateCommands3 : State := {dev := (T fv), nv := nvc}
def wUpdateCommands4 : State := {dev := let d := (T fa).wri R.BTP_UPD_VERIFIED 1 1; {d with boot := {d.boot with verifiedHash := [[], Config.sha384 (d.updHeaders nvc 1)]}}, nv := nvc}
def wUpdateCommands5 : State := {dev := (T fo).wr R.BTP_STATUS_BOOTED 0, nv := nvc}
def wUpdateCommands6 : State := {dev := (T fo).wr R.BTP_STATUS_BOOTED 0, nv := writeRecord {} 0 1 0 5 [] true}
def wUpdateCommands7 : State := {dev := (T ot).wr R.BTP_STATUS_BOOTED 0, nv := writeRecord {} 0 1 0 5 [] true}
def wUpdateCommands8 : State := {dev := wj (T fcr) (jb 0x48 1 0 .erase []), nv := {flash := [(0x1000000, 5)]}}
def wUpdateCommands9 : UpdJob := jb 0x48 1 0 .erase []
def wUpdateCommands10 : State := {dev := wj (T fcr) (jb 0x48 1 0 .program []), nv := {flash := [(0x1000000, 5)]}}
def wUpdateCommands11 : UpdJob := jb 0x48 1 0 .program []
def wUpdateCommands12 : State := {dev := wj (T fcr) (jb 0 1 0 .fuses []), nv := {}}
def wUpdateCommands13 : UpdJob := jb 0 1 0 .fuses []
def wUpdateCommands14 : State := {dev := wj (T fcr) (jb 0 1 0 .fuses []), nv := {}}
def wUpdateCommands15 : UpdJob := jb 0 1 0 .fuses []
def wUpdateCommands16 : State := {dev := wj (T otr) (jb 0x50 1 0 .otpBurn [255,3,9]), nv := {}}
def wUpdateCommands17 : UpdJob := jb 0x50 1 0 .otpBurn [255,3,9]
def wRingTurns1 : State := { dev := TJ }
def wRingTurns2 : UpdJob := jb 0x48 1 0 .erase []
def wRingTurns3 : State := { dev := TC }

/-- States and operands that meet the hypotheses of each clause of Obligations.RingTurns. -/
theorem witness_RingTurns_Arming :
    (0 ≤ 256 ∧ 1 < 8 ∧ 0 < 8 ∧ wRingTurns1.dev.readyKey 0 1 = some 0 ∧ (0 ≠ 0 ∨ wRingTurns1.dev.commitDue = false)) ∧
    (0 ≤ 256 ∧ 1 < 8 ∧ 0 < 8 ∧ wRingTurns1.dev.myTurn 0 1 = false ∧ 0 = 0) ∧
    (0 ≤ 256 ∧ 1 < 8 ∧ 0 < 8 ∧ wRingTurns1.dev.boot.job = some wRingTurns2 ∧ wRingTurns2.ring = 1 ∧
      (wRingTurns1.dev.jobCmd wRingTurns2).isSome = true ∧ wRingTurns1.dev.myTurn 0 1 = false) ∧
    (0 ≤ 256 ∧ 1 < 8 ∧ 0 < 8 ∧ wRingTurns3.dev.readyKey 0 1 = some 0 ∧ wRingTurns3.dev.commitDue = true) := by
  decide +kernel

/-- States and operands that meet the hypotheses of each clause of Obligations.PlansStageAndArm. -/
theorem witness_PlansStageAndArm :
    ((1 < 8 ∧ wPlansStageAndArm3.dev.sq.staging.isSome = true) ∧
     (1 < 8 ∧ wPlansStageAndArm3.dev.starting 0 1 opStage = none) ∧
     (1 < 8 ∧ wPlansStageAndArm3.dev.runningCmd 0 1 opStage = some psR ∧
       wPlansStageAndArm3.dev.sq.staging = some wPlansStageAndArm4 ∧ wPlansStageAndArm4.seqNo = psR.seqNo ∧
       wPlansStageAndArm3.dev.myTurn 0 1 = true ∧
       wPlansStageAndArm3.dev.room 0 hkpNeed psR.firstOf = some (0, 3150, 1850) ∧ 1000 ≤ 1850 ∧ psR.pos < psR.total ∧
       wPlansStageAndArm3.dev.busOk 0 = true ∧ wPlansStageAndArm3.dev.cmds 0 = [psR] ∧ psR.awaiting = 0 ∧
       wPlansStageAndArm3.dev.reqOk 0 (psR.src + psR.pos) (min 65536 (psR.total - psR.pos)) = true) ∧
     (1 < 8 ∧ (wPlansStageAndArm1.dev.runningCmd 0 1 opStage = none ∨ wPlansStageAndArm1.dev.sq.staging = none)) ∧
     (1 < 8 ∧ wPlansStageAndArm1.dev.mayStart 0 1 opStage ps = true ∧ wPlansStageAndArm1.dev.sq.staging = none ∧
       (Option.any (fun x => x.target == 0) wPlansStageAndArm1.dev.sq.arm = false) ∧
       wPlansStageAndArm1.dev.reqOk 0 ps.src ps.len = true)) ∧
    ((1 < 8 ∧ wPlansStageAndArm2.dev.mayStart 0 1 opStage ps = true ∧ wPlansStageAndArm2.dev.sq.staging = none ∧
       (Option.any (fun x => x.target == 0) wPlansStageAndArm2.dev.sq.arm = true)) ∧
     (1 < 8 ∧ wPlansStageAndArm5.dev.runningCmd 0 1 opStage = some psB ∧
       wPlansStageAndArm5.dev.sq.staging = some wPlansStageAndArm6 ∧ wPlansStageAndArm6.seqNo = psB.seqNo ∧
       wPlansStageAndArm5.dev.myTurn 0 1 = true ∧
       wPlansStageAndArm5.dev.room 0 hkpNeed psB.firstOf = some (0, 3150, 1850) ∧ 1000 ≤ 1850 ∧ psB.total ≤ psB.pos ∧
       psB.awaiting = 0 ∧ wPlansStageAndArm5.dev.admitSteps (maqOf psB.data) ≤ wPlansStageAndArm6.checks + 1 ∧
       psB.imageOk = false) ∧
     (1 < 8 ∧ wPlansStageAndArm7.dev.mayStart 0 1 opArm (pa 2) = true ∧ 1 < (pa 2).par8 40 ∧
       wPlansStageAndArm7.dev.sq.arm = none) ∧
     (1 < 8 ∧ wPlansStageAndArm8.dev.mayStart 0 1 opArm (pa 1) = true ∧ (pa 1).par8 40 ≤ 1 ∧
       wPlansStageAndArm8.dev.sq.arm = none ∧ wPlansStageAndArm8.dev.sq.frameAt = none)) ∧
    ((1 < 8 ∧ wPlansStageAndArm9.dev.starting 0 1 opArm = none ∧
       wPlansStageAndArm9.dev.runningCmd 0 1 opArm = some (rn (pa 1)) ∧
       wPlansStageAndArm9.dev.sq.arm = some (arm0 2 1) ∧ (arm0 2 1).seqNo = (rn (pa 1)).seqNo ∧
       wPlansStageAndArm9.dev.myTurn 0 1 = true ∧
       wPlansStageAndArm9.dev.room 0 hkpNeed (rn (pa 1)).firstOf = some (0, 3150, 1850) ∧ 1000 ≤ 1850 ∧
       1 < (arm0 2 1).steps) ∧
     (1 < 8 ∧ wPlansStageAndArm10.dev.starting 0 1 opArm = none ∧
       wPlansStageAndArm10.dev.runningCmd 0 1 opArm = some (rn (pa 1)) ∧
       wPlansStageAndArm10.dev.sq.arm = some wPlansStageAndArm11 ∧ wPlansStageAndArm11.seqNo = (rn (pa 1)).seqNo ∧
       wPlansStageAndArm10.dev.myTurn 0 1 = true ∧
       wPlansStageAndArm10.dev.room 0 hkpNeed (rn (pa 1)).firstOf = some (0, 3150, 1850) ∧ 1000 ≤ 1850 ∧
       wPlansStageAndArm11.steps ≤ 1)) ∧
    (1 < 8 ∧ wPlansStageAndArm12.dev.runningCmd 0 1 opStage = some psE3 ∧
      wPlansStageAndArm12.dev.sq.staging = some wPlansStageAndArm13 ∧ wPlansStageAndArm13.seqNo = psE3.seqNo ∧
      wPlansStageAndArm12.dev.myTurn 0 1 = true ∧
      wPlansStageAndArm12.dev.room 0 hkpNeed psE3.firstOf = some (0, 3150, 1850) ∧ 1000 ≤ 1850 ∧
      psE3.total ≤ psE3.pos ∧ psE3.awaiting = 0 ∧
      wPlansStageAndArm13.checks + 1 < wPlansStageAndArm12.dev.admitSteps (maqOf psE3.data)) :=
  ⟨by decide +kernel, by decide +kernel, by decide +kernel, by decide +kernel⟩

/-- States and operands that meet the hypotheses of each clause of Obligations.QpSolves. -/
theorem witness_QpSolves :
    ((((wQpSolves2.dev.lpe.pend.all fun y => y.move != 1) = true)) ∧
     (wQpSolves2.dev.qps.run.isSome = true) ∧
     (wQpSolves2.dev.works 12 = true ∧ wQpSolves2.dev.qps.run = some wQpSolves3 ∧ wQpSolves3.owner = none ∧
       wQpSolves3.start + qpFormBeats wQpSolves3.sec + (wQpSolves3.it + 1) * qpIterBeats wQpSolves3.sec ≤ wQpSolves2.dev.beat) ∧
     (wQpSolves2.dev.works 12 = true ∧ wQpSolves2.dev.qps.run = some wQpSolves3 ∧ wQpSolves3.owner = none ∧
       wQpSolves3.start + qpBeats wQpSolves3.sec ≤ wQpSolves2.dev.beat ∧ wQpSolves2.dev.lpe.pend = []) ∧
     ((List.find? (fun y => y.move == 1 && !y.solving && decide (y.beat + 8 ≤ wQpSolves1.dev.beat)) wQpSolves1.dev.lpe.pend = some smp) ∧
       wQpSolves1.dev.works 12 = true ∧ wQpSolves1.dev.qps.run = none ∧ wQpSolves1.dev.lpeOn = true) ∧
     (wQpSolves4.dev.qps.run = some wQpSolves5 ∧ wQpSolves5.owner = none ∧
       wQpSolves4.dev.beat < wQpSolves5.start + qpFormBeats wQpSolves5.sec + (wQpSolves5.it + 1) * qpIterBeats wQpSolves5.sec) ∧
     (wQpSolves4.dev.qps.run = some wQpSolves5 ∧ wQpSolves5.owner = none ∧
       wQpSolves4.dev.beat < wQpSolves5.start + qpBeats wQpSolves5.sec)) ∧
    (wQpSolves6.dev.works 12 = true ∧ wQpSolves6.dev.qps.run = some wQpSolves7 ∧ wQpSolves7.owner = some (0, 3) ∧
      wQpSolves6.dev.cmd? 0 3 = some pq1 ∧ pq1.stage = 1 ∧
      (wQpSolves7.overflow = true ∨ qpK wQpSolves7.sec ≤ wQpSolves7.it)) :=
  ⟨by decide +kernel, by decide +kernel⟩

/-- States and operands that meet the hypotheses of each clause of Obligations.UpdateCommands. -/
theorem witness_UpdateCommands :
    ((1 < 8 ∧ wUpdateCommands8.dev.boot.job.isSome = true) ∧
     (1 < 8 ∧ wUpdateCommands8.dev.boot.job = some wUpdateCommands9 ∧ wUpdateCommands8.dev.jobTurn = true ∧
       wUpdateCommands8.dev.hkpRoom = some (sl1, 3150, 1850) ∧ 1000 ≤ 1850 ∧ wUpdateCommands9.op = opChunk ∧
       wUpdateCommands8.dev.jobCmd wUpdateCommands9 = some fcr ∧ wUpdateCommands9.phase = UpdPhase.erase) ∧
     (1 < 8 ∧ wUpdateCommands1.dev.boot.job = none ∧ wUpdateCommands1.dev.updBefore (fc 1) = false ∧
       1 = (fc 1).par8 40 ∧ wUpdateCommands1.dev.mayStart 0 1 opChunk (fc 1) = true ∧ 1 < 4 ∧ (fc 1).dest % 4096 = 0 ∧
       (fc 1).len % 4096 = 0 ∧ 0 < (fc 1).len ∧ (fc 1).len ≤ 2 ^ 20 ∧ (fc 1).dest + (fc 1).len ≤ updSize 1 ∧
       wUpdateCommands1.dev.protectedTarget wUpdateCommands1.nv 1 = false ∧
       (currentRec wUpdateCommands1.nv).confirmed = true ∧ wUpdateCommands1.dev.reqOk 0 (fc 1).src (fc 1).len = true)) ∧
    ((1 < 8 ∧ wUpdateCommands2.dev.boot.job = none ∧ wUpdateCommands2.dev.updBefore (fc 4) = false ∧
       4 = (fc 4).par8 40 ∧ wUpdateCommands2.dev.mayStart 0 1 opChunk (fc 4) = true ∧ 3 < 4) ∧
     (1 < 8 ∧ wUpdateCommands3.dev.boot.job = none ∧ wUpdateCommands3.dev.updBefore fv = false ∧ 1 = fv.par8 40 ∧
       wUpdateCommands3.dev.mayStart 0 1 opVerify fv = true ∧ 1 < 4)) ∧
    (1 < 8 ∧ wUpdateCommands4.dev.boot.job = none ∧ wUpdateCommands4.dev.updBefore fa = false ∧ 1 = fa.par8 40 ∧
      wUpdateCommands4.dev.mayStart 0 1 opActivate fa = true ∧ 1 < 4 ∧
      wUpdateCommands4.dev.isSeti R.BTP_UPD_VERIFIED 1 = true ∧
      nth [] wUpdateCommands4.dev.boot.verifiedHash 1 = Config.sha384 (wUpdateCommands4.dev.updHeaders wUpdateCommands4.nv 1) ∧
      (1 < 2 ∨ (currentRec wUpdateCommands4.nv).confirmed = true)) ∧
    ((1 < 8 ∧ wUpdateCommands5.dev.boot.job = none ∧ wUpdateCommands5.dev.updBefore fo = false ∧ 0 = fo.par8 40 ∧
       wUpdateCommands5.dev.mayStart 0 1 opConfirm fo = true ∧
       (currentRec wUpdateCommands5.nv).slot = wUpdateCommands5.dev.runningSlot ∧
       (currentRec wUpdateCommands5.nv).confirmed = true) ∧
     (1 < 8 ∧ wUpdateCommands6.dev.boot.job = none ∧ wUpdateCommands6.dev.updBefore fo = false ∧ 0 = fo.par8 40 ∧
       wUpdateCommands6.dev.mayStart 0 1 opConfirm fo = true ∧
       (currentRec wUpdateCommands6.nv).slot = wUpdateCommands6.dev.runningSlot ∧
       (currentRec wUpdateCommands6.nv).confirmed = false) ∧
     (1 < 8 ∧ wUpdateCommands7.dev.boot.job = none ∧ wUpdateCommands7.dev.updBefore ot = false ∧ 0 = ot.par8 40 ∧
       wUpdateCommands7.dev.mayStart 0 1 opOtp ot = true ∧ ot.len = 256 ∧
       wUpdateCommands7.dev.reqOk 0 ot.src 256 = true)) ∧
    ((1 < 8 ∧ wUpdateCommands10.dev.boot.job = some wUpdateCommands11 ∧ wUpdateCommands10.dev.jobTurn = true ∧
       wUpdateCommands10.dev.hkpRoom = some (sl1, 3150, 1850) ∧ 1000 ≤ 1850 ∧ wUpdateCommands11.op = opChunk ∧
       wUpdateCommands10.dev.jobCmd wUpdateCommands11 = some fcr ∧ wUpdateCommands11.phase = UpdPhase.program ∧
       min fcr.total (wUpdateCommands11.pos + 4096) ≤ fcr.data.length) ∧
     (1 < 8 ∧ wUpdateCommands12.dev.boot.job = some wUpdateCommands13 ∧ wUpdateCommands12.dev.jobTurn = true ∧
       wUpdateCommands12.dev.hkpRoom = some (sl1, 3150, 1850) ∧ 1000 ≤ 1850 ∧
       wUpdateCommands13.phase = UpdPhase.fuses ∧ 1 ≤ 2 ∧ 2 ≤ 3) ∧
     (1 < 8 ∧ wUpdateCommands14.dev.boot.job = some wUpdateCommands15 ∧ wUpdateCommands14.dev.jobTurn = true ∧
       wUpdateCommands14.dev.hkpRoom = some (sl1, 3150, 1850) ∧ 1000 ≤ 1850 ∧
       wUpdateCommands15.phase = UpdPhase.fuses ∧ (4 = 0 ∨ 3 < 4))) ∧
    (1 < 8 ∧ wUpdateCommands16.dev.boot.job = some wUpdateCommands17 ∧ wUpdateCommands16.dev.jobTurn = true ∧
      wUpdateCommands16.dev.hkpRoom = some (sl1, 3150, 1850) ∧ 1000 ≤ 1850 ∧
      wUpdateCommands16.dev.jobCmd wUpdateCommands17 = some otr ∧ wUpdateCommands17.phase = UpdPhase.otpBurn ∧
      wUpdateCommands17.data ≠ []) :=
  ⟨by decide +kernel, by decide +kernel, ⟨by decide +kernel, by decide +kernel, by decide +kernel, by decide +kernel, by decide +kernel, by decide +kernel, by decide +kernel, (congrArg Config.sha384 (Dev.updHeaders_congr (by decide +kernel) _ _)), by decide +kernel⟩, by decide +kernel, by decide +kernel, by decide +kernel⟩

end Arming

namespace HostSide

def fon : Dev := on.wr R.BTP_STATUS_FW_READY 1
def cfgC (d : Dev) (c : Nat) (rights : Nat) : Dev :=
  let d := ((d.wri R.ENT_T1_SIZE c 0x100000).wri R.ENT_HOST_BASE c 0x100000).wri R.ENT_HOST_SIZE c 0x10000000
  let d := d.wri R.ENT_RIGHTS c rights
  ((d.pwr c R.HIF_USE_CTL_EN 1).pwr c R.HIF_USE_BASE 0x100000).pwr c R.HIF_USE_SIZE 0x10000000
def vf (d : Dev) : Dev := {d with hif := {d.hif with vfEnable := true, vfReady := true, numVfs := 8, fns := [(5,{bme := true})]}}
def B : Dev := cfgC (vf fon) 5 255
def B2 := ((((B.pwr 5 R.CPL_BASE 0x200000 1).pwr 5 R.CPL_CFG_EN 1 1).pwr 5 R.CPL_CFG_LOG2 8 1).pwr 5 R.RING_CFG_CPL 1 1).pwr 5 R.RING_CFG_LOG2 7 1 |>.pwr 5 R.RING_BASE 0x300000 1
def B3 := (B2.pwr 5 R.RING_CTL_EN 1 1).setRing 5 1 1
def lk := (fon.wr R.HIF_LINK_DL_UP 1)

def wRingSetUp1 : State := { dev := fon }
def wRingSetUp2 : State := { dev := B.pwr 5 R.CPL_BASE 0x200000 1 }
def wRingSetUp3 : State := { dev := B3 }
def wRingSetUp4 : State := { dev := B3 }
def wRingSetUp5 : State := { dev := (B3.setRing 5 1 2).pwr 5 R.RING_HALT 7 1 }
def wHostFunctions1 : State := { dev := lk }
def wHostFunctions2 : State := { dev := vf lk }
def wHostFunctions3 : State := { dev := {fon with rst := {fon.rst with perstHigh := true}} }
def wHostFunctions4 : State := { dev := {on with pw := {}} }

/-- States and operands that meet the hypotheses of each clause of Obligations.RingSetUp. -/
theorem witness_RingSetUp :
    ((5 ≤ 256 ∧ 1 < 8 ∧ wRingSetUp1.dev.pageOk 5 = false) ∧
     (5 ≤ 256 ∧ 1 < 8 ∧ wRingSetUp2.dev.pageOk 5 = true ∧ bitAt 2148335877 0 = true ∧
       wRingSetUp2.dev.pset 5 R.RNG_CTL_EN = false) ∧
     (5 ≤ 256 ∧ 1 < 8 ∧ wRingSetUp2.dev.pageOk 5 = true ∧ bitAt 2148335877 0 = true ∧
       wRingSetUp2.dev.pset 5 R.RING_CTL_EN 1 = false) ∧
     (5 ≤ 256 ∧ 1 < 8 ∧ wRingSetUp2.dev.pageOk 5 = true ∧ bitAt 2148335877 31 = true ∧
       wRingSetUp2.dev.pset 5 R.CPL_CFG_EN 1 = false) ∧
     (5 ≤ 256 ∧ 1 < 8 ∧ wRingSetUp3.dev.pageOk 5 = true ∧ wRingSetUp3.dev.pset 5 R.CPL_CFG_EN 1 = true ∧
       (bitAt 9 31 = true ∨ wRingSetUp3.dev.cplNamed 5 1 = true))) ∧
    ((5 ≤ 256 ∧ 1 < 8 ∧ wRingSetUp3.dev.pageOk 5 = true ∧ bitAt 9 0 = true ∧ bitAt 9 3 = true ∧
       wRingSetUp3.dev.pset 5 R.RING_CTL_EN 1 = true ∧ wRingSetUp3.dev.ringState 5 1 = 1 ∧
       wRingSetUp3.dev.cmds 5 = [] ∧ (wRingSetUp3.dev.client 5).offAfter = []) ∧
     (5 ≤ 256 ∧ 1 < 8 ∧ wRingSetUp4.dev.pageOk 5 = true ∧ bitAt 0 0 = false ∧ wRingSetUp4.dev.ringState 5 1 = 1 ∧
       wRingSetUp4.dev.cmds 5 = []) ∧
     (5 ≤ 256 ∧ 1 < 8 ∧ wRingSetUp5.dev.pageOk 5 = true ∧ bitAt 7 0 = true ∧ bitAt 7 3 = false ∧ bitAt 7 1 = true ∧
       wRingSetUp5.dev.pset 5 R.RING_CTL_EN 1 = true ∧ wRingSetUp5.dev.ringState 5 1 = 2)) :=
  ⟨by decide +kernel, by decide +kernel⟩

/-- States and operands that meet the hypotheses of each clause of Obligations.HostFunctions. -/
theorem witness_HostFunctions :
    ((0 ≤ 256 ∧ wHostFunctions1.dev.fwReady = true ∧ wHostFunctions1.dev.cfgOk 0 = true ∧
       wHostFunctions1.dev.hif.vfEnable = false ∧ 5 ≤ 256) ∧
     (0 ≤ 256 ∧
       (linkForm 3 8 = false ∨ wHostFunctions1.dev.rst.perstHigh = false ∨ wHostFunctions1.dev.rst.refLost = true)) ∧
     (0 ≤ 256 ∧ wHostFunctions1.dev.running = true ∧ wHostFunctions1.dev.rd R.HIF_LINK_DL_UP = 1 ∧
       wHostFunctions1.dev.fnHere 0 = true ∧ (wHostFunctions1.dev.fn 0).hdr = none ∧ [1, 2] ≠ []) ∧
     (0 ≤ 256 ∧ wHostFunctions1.dev.running = true ∧ 3 < vecCount 0 ∧ wHostFunctions1.dev.fnHere 0 = true ∧
       wHostFunctions1.dev.hifHeld = false ∧ wHostFunctions1.dev.rst.flr = []) ∧
     (5 ≤ 256 ∧ (wHostFunctions4.dev.hif.vfEnable = true ∨ wHostFunctions4.dev.fwReady = false)) ∧
     (5 ≤ 256 ∧ wHostFunctions4.dev.cfgOk 5 = false)) ∧
    ((5 ≤ 256 ∧ wHostFunctions4.dev.running = false) ∧
     (5 ≤ 256 ∧ wHostFunctions2.dev.running = true ∧ wHostFunctions2.dev.hif.vfEnable = true) ∧
     (5 ≤ 256 ∧ wHostFunctions2.dev.cfgOk 0 = true ∧ wHostFunctions2.dev.hif.vfEnable = true) ∧
     (5 ≤ 256 ∧ wHostFunctions3.dev.running = true ∧ wHostFunctions3.dev.rst.perstHigh = true ∧
       wHostFunctions3.dev.rst.refLost = false ∧ wHostFunctions3.dev.rd R.HIF_LINK_DL_UP = 0 ∧ linkForm 3 8 = true)) :=
  ⟨by decide +kernel, by decide +kernel⟩

end HostSide

namespace Ports

def strR (k die lane mode fmt flags grace : Nat) (tmo ring : Nat) : List Nat := [k, die, lane, mode, fmt, flags, 0, grace] ++ leBytes 4 tmo ++ [0,0,ring,0] ++ [1,2,3,4,5,6] ++ [0,0] ++ [7,7] ++ List.replicate 6 0 ++ [10,0,0,1] ++ List.replicate 28 0
def ring14 : List Nat := leBytes 8 0x10000 ++ leBytes 8 0x10000 ++ List.replicate 16 0
def coS (mult : Nat) : List Nat := leBytes 4 0 ++ leBytes 2 2 ++ leBytes 2 3 ++ [1,0,mult,0] ++ leBytes 2 100 ++ leBytes 2 2 ++ leBytes 4 0x1000 ++ List.replicate 44 0 ++ [0,0,4,0,0,0,0,0] ++ [0xFF,0xFF,4,0,0,0,0,0]
def im14 : List Nat := tImg [(1,0,0,leBytes 4 5000 ++ [1,0,0,0] ++ leBytes 2 0xFFFF ++ List.replicate 2 0 ++ leBytes 4 1000 ++ List.replicate 16 0),
 (8,0,0,[1] ++ List.replicate 15 0 ++ strR 1 0 3 0 2 1 20 50 1), (10,0,0,coS 0),
 (18,0,0, leBytes 2 0 ++ leBytes 2 0 ++ [2,0,0,0] ++ List.replicate 8 0 ++ ring14 ++ ring14)]
def b14 : Dev := { ((on.wr R.BTP_STATUS_FW_READY 1).wr R.SEQ_STATUS_ACTIVE 1) with beat := 1000, sq := { active := im14, actForms := [0,1,1], frameAt := some 20, frameNo := 3 } }
def lk (v : Nat) : Dev := b14.wri R.STP_STATUS_LINK 1 v
def w0 : Win := { num := 4, openAt := 900, openPhase := 0, startWp := 0, set := some 2, mark := 940 }
def wd (d : Dev) (w : Win) : Dev := d.setStream 1 (fun t => {t with wins := [w]})
def fmt14 : List Nat := leBytes 2 4 ++ leBytes 2 100 ++ [0xFF,0,0,0,0,0,0,0,0,0,0,0] ++ [0xFF, 0, 4, 0, 2, 0xFF] ++ leBytes 2 0 ++ leBytes 2 100 ++ List.replicate 38 0
def ipH : List Nat := let h (c : Nat) := [0x45,0] ++ beBytes 2 60 ++ [0,0,0,0,9,17] ++ beBytes 2 c ++ [10,0,0,9,10,0,0,1]; h (0xFFFF - ocSum (h 0))
def fr : List Nat := [1,2,3,4,5,6,9,9,9,9,9,9] ++ [8,0] ++ ipH ++ beBytes 2 5 ++ beBytes 2 0x0707 ++ beBytes 2 40 ++ [0,0] ++ (List.replicate 8 [3,0,5,0]).flatten
def pay : List Nat := (List.replicate 8 [3,0,5,0]).flatten
def pause : List Nat := [1,1,1,1,1,1,2,2,2,2,2,2,0x88,0x08,0,1] ++ List.replicate 44 0
def wf (d : Dev) : Dev := {d with ing := {d.ing with formats := [[],[],fmt14]}}
def h0 : Hit := {stream := 1, win := 4, set := some 2, ch := 0, t := 7, amp := 3, at_ := 700, ring := 1, pos := 64}
def x0 : FSet := {n := 2, chans := [(1,5),(2,6)], live := 1, hasWin := true}
def q (d : Dev) (h : Hit) (x : FSet) : Dev := {d with ing := {d.ing with queues := [[h],[]]}, lau := {d.lau with sets := [x]}}
def wc : Win := {w0 with closeAt := some 960, grace := 20, status := 4}
def x1 : FSet := {x0 with live := 0, lastFinal := 700, opened := 2}

def wStreamPorts1 : State := { dev := lk 0 }
def wStreamPorts2 : State := { dev := lk 1 }
def wStreamPorts3 : State := { dev := wd (lk 2) w0 }
def wStreamPorts4 : State := { dev := wd (lk 2) w0 }
def wStreamPorts5 : State := { dev := wd (lk 2) w0 }
def wStreamPorts6 : State := { dev := wf (wd (lk 2) w0) }
def wStreamPorts7 : State := { dev := wd (lk 2) {w0 with mark := 980} }
def wStreamPorts8 : Win := {w0 with mark := 980}
def wHitsAndSets1 : State := { dev := {b14 with sq := {}} }
def wHitsAndSets2 : Instr := .lauRebase .pf 5
def wHitsAndSets3 : State := { dev := q (wd b14 w0) {h0 with ch := 1} x0 }
def wHitsAndSets4 : Hit := {h0 with ch := 1}
def wHitsAndSets5 : State := { dev := q (wd b14 w0) {h0 with at_ := 900} x0 }
def wHitsAndSets6 : Hit := {h0 with t := 900}
def wHitsAndSets7 : Instr := .lauRebase (.vf 3) 5
def wHitsAndSets8 : State := { dev := q (wd b14 wc) h0 x0 }
def wHitsAndSets9 : State := { dev := (q b14 h0 x1).store 0 0x1000 (List.replicate 600 7) false }
def wHitsAndSets10 : State := { dev := {b14 with armWrite := some (1000, 0x3C000)} }
def wHitsAndSets11 : Instr := .lauRebase .pf 5

/-- States and operands that meet the hypotheses of each clause of Obligations.StreamPorts. -/
theorem witness_StreamPorts :
    ((1 < 16 ∧ wStreamPorts1.dev.ing.streams.length = 16 ∧ wStreamPorts1.dev.ing.queues.length = 2 ∧
       strDie (wStreamPorts1.dev.streamRec 1) < 2 ∧
       strLane (wStreamPorts1.dev.streamRec 1) + strLanes (wStreamPorts1.dev.streamRec 1) ≤ 16 ∧
       wStreamPorts1.dev.rawRingOf 1 < 16 ∧
       (wStreamPorts1.dev.works 7 = false ∨ wStreamPorts1.dev.rdi R.STP_STATUS_LINK 1 ≠ 1 ∧
       wStreamPorts1.dev.rdi R.STP_STATUS_LINK 1 ≠ 3)) ∧
     (1 < 16 ∧ wStreamPorts1.dev.ing.streams.length = 16 ∧ wStreamPorts1.dev.ing.queues.length = 2 ∧
       strDie (wStreamPorts1.dev.streamRec 1) < 2 ∧
       strLane (wStreamPorts1.dev.streamRec 1) + strLanes (wStreamPorts1.dev.streamRec 1) ≤ 16 ∧
       wStreamPorts1.dev.rawRingOf 1 < 16 ∧
       (wStreamPorts1.dev.works 7 = false ∨ wStreamPorts1.dev.rdi R.STP_STATUS_LINK 1 = 0)) ∧
     (1 < 16 ∧ wStreamPorts1.dev.ing.streams.length = 16 ∧ wStreamPorts1.dev.ing.queues.length = 2 ∧
       strDie (wStreamPorts1.dev.streamRec 1) < 2 ∧
       strLane (wStreamPorts1.dev.streamRec 1) + strLanes (wStreamPorts1.dev.streamRec 1) ≤ 16 ∧
       wStreamPorts1.dev.rawRingOf 1 < 16 ∧
       (wStreamPorts1.dev.works 7 = false ∨ wStreamPorts1.dev.rdi R.STP_STATUS_LINK 1 ≠ 2))) ∧
    ((1 < 16 ∧ wStreamPorts1.dev.ing.streams.length = 16 ∧ wStreamPorts1.dev.ing.queues.length = 2 ∧
       strDie (wStreamPorts1.dev.streamRec 1) < 2 ∧
       strLane (wStreamPorts1.dev.streamRec 1) + strLanes (wStreamPorts1.dev.streamRec 1) ≤ 16 ∧
       wStreamPorts1.dev.rawRingOf 1 < 16 ∧ (wStreamPorts1.dev.stream 1).openWin = none) ∧
     (1 < 16 ∧ wStreamPorts3.dev.ing.streams.length = 16 ∧ wStreamPorts3.dev.ing.queues.length = 2 ∧
       strDie (wStreamPorts3.dev.streamRec 1) < 2 ∧
       strLane (wStreamPorts3.dev.streamRec 1) + strLanes (wStreamPorts3.dev.streamRec 1) ≤ 16 ∧
       wStreamPorts3.dev.rawRingOf 1 < 16 ∧ wStreamPorts3.dev.works 7 = true ∧
       wStreamPorts3.dev.rdi R.STP_STATUS_LINK 1 ≠ 0)) ∧
    ((1 < 16 ∧ wStreamPorts3.dev.ing.streams.length = 16 ∧ wStreamPorts3.dev.ing.queues.length = 2 ∧
       strDie (wStreamPorts3.dev.streamRec 1) < 2 ∧
       strLane (wStreamPorts3.dev.streamRec 1) + strLanes (wStreamPorts3.dev.streamRec 1) ≤ 16 ∧
       wStreamPorts3.dev.rawRingOf 1 < 16 ∧ wStreamPorts3.dev.works 7 = true ∧
       wStreamPorts3.dev.rdi R.STP_STATUS_LINK 1 = 2 ∧ true = true ∧ strMode (wStreamPorts3.dev.streamRec 1) ≠ 4 ∧
       60 ≤ fr.length ∧ fr.length ≤ 9212 ∧ udpPayload (strAddr (wStreamPorts3.dev.streamRec 1)) fr = some pay ∧
       wStreamPorts3.dev.formatAt 1 0 = [] ∧ wStreamPorts3.dev.windowOf 1 [] pay = some w0) ∧
     (1 < 16 ∧ wStreamPorts3.dev.ing.streams.length = 16 ∧ wStreamPorts3.dev.ing.queues.length = 2 ∧
       strDie (wStreamPorts3.dev.streamRec 1) < 2 ∧
       strLane (wStreamPorts3.dev.streamRec 1) + strLanes (wStreamPorts3.dev.streamRec 1) ≤ 16 ∧
       wStreamPorts3.dev.rawRingOf 1 < 16 ∧ (wStreamPorts3.dev.stream 1).openWin = some w0 ∧
       wStreamPorts3.dev.timeoutOf 1 ≠ 0 ∧ w0.mark + wStreamPorts3.dev.timeoutOf 1 ≤ wStreamPorts3.dev.beat)) ∧
    ((1 < 16 ∧ wStreamPorts2.dev.ing.streams.length = 16 ∧ wStreamPorts2.dev.ing.queues.length = 2 ∧
       strDie (wStreamPorts2.dev.streamRec 1) < 2 ∧
       strLane (wStreamPorts2.dev.streamRec 1) + strLanes (wStreamPorts2.dev.streamRec 1) ≤ 16 ∧
       wStreamPorts2.dev.rawRingOf 1 < 16 ∧ wStreamPorts2.dev.works 7 = true ∧
       (wStreamPorts2.dev.rdi R.STP_STATUS_LINK 1 = 1 ∨ wStreamPorts2.dev.rdi R.STP_STATUS_LINK 1 = 3)) ∧
     (1 < 16 ∧ wStreamPorts4.dev.ing.streams.length = 16 ∧ wStreamPorts4.dev.ing.queues.length = 2 ∧
       strDie (wStreamPorts4.dev.streamRec 1) < 2 ∧
       strLane (wStreamPorts4.dev.streamRec 1) + strLanes (wStreamPorts4.dev.streamRec 1) ≤ 16 ∧
       wStreamPorts4.dev.rawRingOf 1 < 16 ∧ wStreamPorts4.dev.works 7 = true ∧
       wStreamPorts4.dev.rdi R.STP_STATUS_LINK 1 = 2 ∧ false = false)) ∧
    (1 < 16 ∧ wStreamPorts5.dev.ing.streams.length = 16 ∧ wStreamPorts5.dev.ing.queues.length = 2 ∧
      strDie (wStreamPorts5.dev.streamRec 1) < 2 ∧
      strLane (wStreamPorts5.dev.streamRec 1) + strLanes (wStreamPorts5.dev.streamRec 1) ≤ 16 ∧
      wStreamPorts5.dev.rawRingOf 1 < 16 ∧ wStreamPorts5.dev.works 7 = true ∧
      wStreamPorts5.dev.rdi R.STP_STATUS_LINK 1 = 2 ∧ true = true ∧ strMode (wStreamPorts5.dev.streamRec 1) ≠ 4 ∧
      60 ≤ pause.length ∧ pause.length ≤ 9212 ∧ udpPayload (strAddr (wStreamPorts5.dev.streamRec 1)) pause = none ∧
      isPause pause = true) ∧
    (1 < 16 ∧ wStreamPorts6.dev.ing.streams.length = 16 ∧ wStreamPorts6.dev.ing.queues.length = 2 ∧
      strDie (wStreamPorts6.dev.streamRec 1) < 2 ∧
      strLane (wStreamPorts6.dev.streamRec 1) + strLanes (wStreamPorts6.dev.streamRec 1) ≤ 16 ∧
      wStreamPorts6.dev.rawRingOf 1 < 16 ∧ wStreamPorts6.dev.works 7 = true ∧
      wStreamPorts6.dev.rdi R.STP_STATUS_LINK 1 = 2 ∧ true = true ∧ strMode (wStreamPorts6.dev.streamRec 1) ≠ 4 ∧
      60 ≤ fr.length ∧ fr.length ≤ 9212 ∧ udpPayload (strAddr (wStreamPorts6.dev.streamRec 1)) fr = some pay ∧
      wStreamPorts6.dev.formatAt 1 0 ≠ [] ∧ fmtHits (wStreamPorts6.dev.formatAt 1 0) pay = some 8 ∧
      fmtCrc (wStreamPorts6.dev.formatAt 1 0) = 0 ∧ fmtSeqW (wStreamPorts6.dev.formatAt 1 0) = 0 ∧
      fmtTs (wStreamPorts6.dev.formatAt 1 0) = 0 ∧
      wStreamPorts6.dev.windowOf 1 (wStreamPorts6.dev.formatAt 1 0) pay = some w0 ∧ w0.closeAt = none ∧
      (((payloadHits (wStreamPorts6.dev.formatAt 1 0) pay 8).all fun h => decide (h.1 < 4096)) = true) ∧
      (wStreamPorts6.dev.hitQueue (strDie (wStreamPorts6.dev.streamRec 1))).length + 8 ≤ 16384 ∧
      0 + (32 + pay.length + 63) / 64 * 64 ≤ ingressBuffer) ∧
    (1 < 16 ∧ wStreamPorts7.dev.ing.streams.length = 16 ∧ wStreamPorts7.dev.ing.queues.length = 2 ∧
      strDie (wStreamPorts7.dev.streamRec 1) < 2 ∧
      strLane (wStreamPorts7.dev.streamRec 1) + strLanes (wStreamPorts7.dev.streamRec 1) ≤ 16 ∧
      wStreamPorts7.dev.rawRingOf 1 < 16 ∧ (wStreamPorts7.dev.stream 1).openWin = some wStreamPorts8 ∧
      (wStreamPorts7.dev.timeoutOf 1 = 0 ∨ wStreamPorts7.dev.beat < wStreamPorts8.mark + wStreamPorts7.dev.timeoutOf 1)) :=
  ⟨by decide +kernel, by decide +kernel, by decide +kernel, by decide +kernel, by decide +kernel, by decide +kernel, by decide +kernel⟩

/-- States and operands that meet the hypotheses of each clause of Obligations.HitsAndSets. -/
theorem witness_HitsAndSets :
    ((0 < 2 ∧ 1 < 16 ∧ h0.stream < 16 ∧ wHitsAndSets1.dev.ing.queues.length = 2 ∧
       wHitsAndSets1.dev.ing.streams.length = 16 ∧ wHitsAndSets1.dev.rawRingOf 1 < 16 ∧
       wHitsAndSets1.dev.lastSec 10 = []) ∧
     (0 < 2 ∧ 1 < 16 ∧ h0.stream < 16 ∧ wHitsAndSets1.dev.ing.queues.length = 2 ∧
       wHitsAndSets1.dev.ing.streams.length = 16 ∧ wHitsAndSets1.dev.rawRingOf 1 < 16 ∧
       (∀ g ∈ wHitsAndSets1.dev.hitQueue 0, wHitsAndSets1.dev.beat < g.at_ + 256))) ∧
    (0 < 2 ∧ 1 < 16 ∧ h0.stream < 16 ∧ wHitsAndSets1.dev.ing.queues.length = 2 ∧
      wHitsAndSets1.dev.ing.streams.length = 16 ∧ wHitsAndSets1.dev.rawRingOf 1 < 16 ∧
      (∀ y ∈ (wHitsAndSets1.dev.stream 1).wins, ∀ (b : Nat), y.closeAt = some b → wHitsAndSets1.dev.beat < b + y.grace)) ∧
    ((0 < 2 ∧ 1 < 16 ∧ h0.stream < 16 ∧ wHitsAndSets1.dev.ing.queues.length = 2 ∧
       wHitsAndSets1.dev.ing.streams.length = 16 ∧ wHitsAndSets1.dev.rawRingOf 1 < 16 ∧
       (∀ y ∈ wHitsAndSets1.dev.lau.sets, wHitsAndSets1.dev.setDue y = false)) ∧
     (0 < 2 ∧ 1 < 16 ∧ h0.stream < 16 ∧ wHitsAndSets1.dev.ing.queues.length = 2 ∧
       wHitsAndSets1.dev.ing.streams.length = 16 ∧ wHitsAndSets1.dev.rawRingOf 1 < 16 ∧
       wHitsAndSets2 ∈ [Instr.lauFreeze Master.pf 5, Instr.lauUnfreeze Master.pf 5, Instr.lauRollback Master.pf 5, Instr.lauRebase Master.pf 5, Instr.lauCkpt Master.pf 5] ∧
       Master.pf = Master.pf ∧ wHitsAndSets1.dev.running = true ∧ wHitsAndSets1.dev.inReset 8 = false ∧
       wHitsAndSets1.dev.lostWrite 983040 = false)) ∧
    ((0 < 2 ∧ 1 < 16 ∧ h0.stream < 16 ∧ wHitsAndSets8.dev.ing.queues.length = 2 ∧
       wHitsAndSets8.dev.ing.streams.length = 16 ∧ wHitsAndSets8.dev.rawRingOf 1 < 16 ∧
       wHitsAndSets8.dev.lastSec 10 ≠ [] ∧ bitAt (coStreams (wHitsAndSets8.dev.lastSec 10)) h0.stream = true ∧
       wHitsAndSets8.dev.hitQueue 0 = [h0] ∧ 1 = 1 ∧ h0.ch < coNch (wHitsAndSets8.dev.lastSec 10) ∧
       chFeat (wHitsAndSets8.dev.lastSec 10) h0.ch ≠ 65535 ∧ wHitsAndSets8.dev.lau.sets = [x0] ∧ h0.set = some x0.n ∧
       x0.abandoned = false ∧ x0.complete = false) ∧
     (0 < 2 ∧ 1 < 16 ∧ h0.stream < 16 ∧ wHitsAndSets8.dev.ing.queues.length = 2 ∧
       wHitsAndSets8.dev.ing.streams.length = 16 ∧ wHitsAndSets8.dev.rawRingOf 1 < 16 ∧
       wHitsAndSets8.dev.hitQueue 0 = [h0] ∧ h0.at_ + 256 ≤ wHitsAndSets8.dev.beat)) ∧
    ((0 < 2 ∧ 1 < 16 ∧ h0.stream < 16 ∧ wHitsAndSets8.dev.ing.queues.length = 2 ∧
       wHitsAndSets8.dev.ing.streams.length = 16 ∧ wHitsAndSets8.dev.rawRingOf 1 < 16 ∧
       wHitsAndSets8.dev.lau.sets = [x0] ∧ (wHitsAndSets8.dev.stream 1).wins = [wc] ∧ wc.closeAt.isSome = true ∧
       wc.closeAt.getD 0 + wc.grace ≤ wHitsAndSets8.dev.beat) ∧
     (0 < 2 ∧ 1 < 16 ∧ wHitsAndSets4.stream < 16 ∧ wHitsAndSets3.dev.ing.queues.length = 2 ∧
       wHitsAndSets3.dev.ing.streams.length = 16 ∧ wHitsAndSets3.dev.rawRingOf 1 < 16 ∧
       wHitsAndSets3.dev.lastSec 10 ≠ [] ∧
       bitAt (coStreams (wHitsAndSets3.dev.lastSec 10)) wHitsAndSets4.stream = true ∧
       wHitsAndSets3.dev.hitQueue 0 = [wHitsAndSets4] ∧ 1 = 1 ∧
       (coNch (wHitsAndSets3.dev.lastSec 10) ≤ wHitsAndSets4.ch ∨ chFeat (wHitsAndSets3.dev.lastSec 10) wHitsAndSets4.ch = 65535))) ∧
    ((0 < 2 ∧ 1 < 16 ∧ wHitsAndSets6.stream < 16 ∧ wHitsAndSets5.dev.ing.queues.length = 2 ∧
       wHitsAndSets5.dev.ing.streams.length = 16 ∧ wHitsAndSets5.dev.rawRingOf 1 < 16 ∧
       wHitsAndSets7 ∈ [Instr.lauFreeze (Master.vf 3) 5, Instr.lauUnfreeze (Master.vf 3) 5, Instr.lauRollback (Master.vf 3) 5, Instr.lauRebase (Master.vf 3) 5, Instr.lauCkpt (Master.vf 3) 5] ∧
       (masterVf (Master.vf 3) = true ∨ wHitsAndSets5.dev.running = false ∨ wHitsAndSets5.dev.inReset 8 = true)) ∧
     (0 < 2 ∧ 1 < 16 ∧ h0.stream < 16 ∧ wHitsAndSets9.dev.ing.queues.length = 2 ∧
       wHitsAndSets9.dev.ing.streams.length = 16 ∧ wHitsAndSets9.dev.rawRingOf 1 < 16 ∧
       wHitsAndSets9.dev.lau.sets = [x1] ∧ wHitsAndSets9.dev.setDue x1 = true ∧ x1.hits = [])) ∧
    (0 < 2 ∧ 1 < 16 ∧ h0.stream < 16 ∧ wHitsAndSets10.dev.ing.queues.length = 2 ∧
      wHitsAndSets10.dev.ing.streams.length = 16 ∧ wHitsAndSets10.dev.rawRingOf 1 < 16 ∧
      wHitsAndSets11 ∈ [Instr.lauFreeze Master.pf 5, Instr.lauUnfreeze Master.pf 5, Instr.lauRollback Master.pf 5, Instr.lauRebase Master.pf 5, Instr.lauCkpt Master.pf 5] ∧
      Master.pf = Master.pf ∧ wHitsAndSets10.dev.running = true ∧ wHitsAndSets10.dev.inReset 8 = false ∧
      wHitsAndSets10.dev.lostWrite 983040 = true) :=
  ⟨by decide +kernel, ⟨by decide +kernel, by decide +kernel, by decide +kernel, by decide +kernel, by decide +kernel, by decide +kernel, (fun _ h => nomatch (show _ ∈ ([] : List Win) from h))⟩, by decide +kernel, by decide +kernel, by decide +kernel, by decide +kernel, by decide +kernel⟩

end Ports

namespace Monitors

def o3 (n : Nat) : Dev := on.wr R.GLB_START_OPT_STAGE n
def sw (g : Nat) : RowSweep := {tile := 3, row := 256, curve := List.replicate 128 (65536-16000) ++ List.replicate 128 16000, gain := g, rms := 100}
def P (j v : Nat) : List Nat := (List.replicate 66 5000).set j v
def cm (d : Dev) (f : Cal → Cal) : Dev := d.setCal f
def chm (d : Dev) : Dev := {d with opt := {d.opt with chanMap := [List.range 64, List.range 64]}}

def wHoldingAndMonitors1 : State := { dev := o3 2 }
def wHoldingAndMonitors2 : State := { dev := o3 4 }
def wHoldingAndMonitors3 : State := { dev := cm (o3 4) fun c => {c with outRun := [(16512*3+16500,2)]} }
def wHoldingAndMonitors4 : State := { dev := cm ((o3 4).wri R.CAL_TILE_ROTATING 3 1) fun c => {c with dwellAt := c.dwellAt.set 3 (some 5)} }
def wHoldingAndMonitors5 : State := { dev := cm ((o3 4).wri R.CAL_TILE_ROTATING 3 1) fun c => {c with dwellAt := c.dwellAt.set 3 (some 5)} }
def wHoldingAndMonitors6 : State := { dev := cm (chm (o3 4)) fun c => {c with m0Run := [(66+7,1)]} }
def wHoldingAndMonitors7 : State := { dev := cm (chm (o3 4)) fun c => {c with m0 := [List.replicate 66 5000,[]], refNum := [(276*3,5000)], refDen := [(276*3,320000)], faultRun := [(276*3,15)]} }
def wHoldingAndMonitors8 : State := { dev := o3 0 }

/-- States and operands that meet the hypotheses of each clause of Obligations.HoldingAndMonitors. -/
theorem witness_HoldingAndMonitors :
    ((3 < 16 ∧ 100 < 16512 ∧ 1 < 2 ∧ 7 < 64 ∧ (sw 16384).tile = 3 ∧ wHoldingAndMonitors1.dev.cal.repls = [] ∧
       wHoldingAndMonitors1.dev.planActive = false ∧
       (wHoldingAndMonitors1.dev.rd R.GLB_START_OPT_STAGE < 3 ∨ 100 < 16448 ∧
       wHoldingAndMonitors1.dev.rowVisited 3 (100 / 64) = false)) ∧
     (3 < 16 ∧ 100 < 16512 ∧ 1 < 2 ∧ 7 < 64 ∧ (sw 16384).tile = 3 ∧ wHoldingAndMonitors1.dev.cal.repls = [] ∧
       wHoldingAndMonitors1.dev.planActive = false ∧
       (wHoldingAndMonitors1.dev.rdi R.CAL_TILE_ROTATING 3 = 0 ∨ nth none wHoldingAndMonitors1.dev.cal.dwellAt 3 = none ∨ nth none wHoldingAndMonitors1.dev.cal.swept 3 ≠ none ∨ nth false wHoldingAndMonitors1.dev.cal.written 3 = true))) ∧
    ((3 < 16 ∧ 100 < 16512 ∧ 1 < 2 ∧ 7 < 64 ∧ (sw 16384).tile = 3 ∧ wHoldingAndMonitors1.dev.cal.repls = [] ∧
       wHoldingAndMonitors1.dev.planActive = false ∧ 2 ≤ wHoldingAndMonitors1.dev.rd R.GLB_START_OPT_STAGE ∧
       wHoldingAndMonitors1.dev.rdi R.OPT_ENG_FAIL 1 = 0 ∧
       (((List.range 66).all fun k => decide (2000 ≤ nth 0 (P 7 5000) k)) = true)) ∧
     (3 < 16 ∧ 100 < 16512 ∧ 1 < 2 ∧ 7 < 64 ∧ (sw 16384).tile = 3 ∧ wHoldingAndMonitors1.dev.cal.repls = [] ∧
       wHoldingAndMonitors1.dev.planActive = false ∧ wHoldingAndMonitors1.dev.rd R.GLB_START_OPT_STAGE ≠ 4)) ∧
    ((3 < 16 ∧ 100 < 16512 ∧ 1 < 2 ∧ 7 < 64 ∧ (sw 16384).tile = 3 ∧ wHoldingAndMonitors1.dev.cal.repls = [] ∧
       wHoldingAndMonitors1.dev.planActive = false ∧ 1 ≤ wHoldingAndMonitors1.dev.rd R.GLB_START_OPT_STAGE ∧
       wHoldingAndMonitors1.dev.rdi R.OPT_ENG_FAIL 1 = 0) ∧
     (3 < 16 ∧ 16500 < 16512 ∧ 1 < 2 ∧ 7 < 64 ∧ (sw 16384).tile = 3 ∧ wHoldingAndMonitors4.dev.cal.repls = [] ∧
       wHoldingAndMonitors4.dev.planActive = false ∧ wHoldingAndMonitors4.dev.rd R.GLB_START_OPT_STAGE = 4 ∧
       wHoldingAndMonitors4.dev.cal.refNum = [])) ∧
    ((3 < 16 ∧ 16500 < 16512 ∧ 1 < 2 ∧ 7 < 64 ∧ (sw 16384).tile = 3 ∧ wHoldingAndMonitors4.dev.cal.repls = [] ∧
       wHoldingAndMonitors4.dev.planActive = false ∧ 3 ≤ wHoldingAndMonitors4.dev.rd R.GLB_START_OPT_STAGE ∧
       (16448 ≤ 16500 ∨ wHoldingAndMonitors4.dev.rowVisited 3 (16500 / 64) = true) ∧ false = false ∧ false = false ∧
       sget 0 wHoldingAndMonitors4.dev.cal.outRun (16512 * 3 + 16500) < 2) ∧
     (3 < 16 ∧ 16500 < 16512 ∧ 1 < 2 ∧ 7 < 64 ∧ (sw 16384).tile = 3 ∧ wHoldingAndMonitors4.dev.cal.repls = [] ∧
       wHoldingAndMonitors4.dev.planActive = false ∧ wHoldingAndMonitors4.dev.rdi R.CAL_TILE_ROTATING 3 = 1 ∧
       nth none wHoldingAndMonitors4.dev.cal.dwellAt 3 ≠ none ∧ nth none wHoldingAndMonitors4.dev.cal.swept 3 = none ∧
       nth false wHoldingAndMonitors4.dev.cal.written 3 = false ∧ sweepOk (sw 16384) = true)) ∧
    (3 < 16 ∧ 100 < 16512 ∧ 1 < 2 ∧ 7 < 64 ∧ (sw 16384).tile = 3 ∧ wHoldingAndMonitors6.dev.cal.repls = [] ∧
      wHoldingAndMonitors6.dev.planActive = false ∧ 3 ≤ wHoldingAndMonitors6.dev.rd R.GLB_START_OPT_STAGE ∧
      (16448 ≤ 100 ∨ wHoldingAndMonitors6.dev.rowVisited 3 (100 / 64) = true) ∧ true = true ∧ false = false) ∧
    ((3 < 16 ∧ 100 < 16512 ∧ 1 < 2 ∧ 7 < 64 ∧ (sw 16384).tile = 3 ∧ wHoldingAndMonitors6.dev.cal.repls = [] ∧
       wHoldingAndMonitors6.dev.planActive = false ∧ 2 ≤ wHoldingAndMonitors6.dev.rd R.GLB_START_OPT_STAGE ∧
       wHoldingAndMonitors6.dev.rdi R.OPT_ENG_FAIL 1 = 0 ∧
       (((List.range 66).all fun k => k == 7 || decide (2000 ≤ nth 0 (P 7 50) k)) = true) ∧ nth 0 (P 7 50) 7 < 2000 ∧
       sget 0 wHoldingAndMonitors6.dev.cal.m0Run (66 * 1 + 7) = 1 ∧ wHoldingAndMonitors6.dev.cal.lost = [] ∧
       wHoldingAndMonitors6.dev.channelOn 1 7 = some 7 ∧ wHoldingAndMonitors6.dev.rdi R.CAL_ENG_MAP_SP64_CH 1 = 127) ∧
     (3 < 16 ∧ 100 < 16512 ∧ 1 < 2 ∧ 7 < 64 ∧ (sw 16384).tile = 3 ∧ wHoldingAndMonitors8.dev.cal.repls = [] ∧
       wHoldingAndMonitors8.dev.planActive = false ∧
       (wHoldingAndMonitors8.dev.rd R.GLB_START_OPT_STAGE < 2 ∨ wHoldingAndMonitors8.dev.rdi R.OPT_ENG_FAIL 1 = 1))) ∧
    ((3 < 16 ∧ 100 < 16512 ∧ 1 < 2 ∧ 7 < 64 ∧ (sw 16384).tile = 3 ∧ wHoldingAndMonitors8.dev.cal.repls = [] ∧
       wHoldingAndMonitors8.dev.planActive = false ∧
       (wHoldingAndMonitors8.dev.rd R.GLB_START_OPT_STAGE = 0 ∨ wHoldingAndMonitors8.dev.rdi R.OPT_ENG_FAIL 1 = 1)) ∧
     (3 < 16 ∧ 100 < 16512 ∧ 1 < 2 ∧ 7 < 64 ∧ (sw 16384).tile = 3 ∧ wHoldingAndMonitors2.dev.cal.repls = [] ∧
       wHoldingAndMonitors2.dev.planActive = false ∧ 3 ≤ wHoldingAndMonitors2.dev.rd R.GLB_START_OPT_STAGE ∧
       100 < 16448 ∧ wHoldingAndMonitors2.dev.rowVisited 3 (100 / 64) = true ∧ (true = true ∨ false = false ∧
       2 ≤ sget 0 wHoldingAndMonitors2.dev.cal.outRun (16512 * 3 + 100)) ∧
       wHoldingAndMonitors2.dev.rdi R.CAL_TILE_STATE 3 = 0)) ∧
    (3 < 16 ∧ 16500 < 16512 ∧ 1 < 2 ∧ 7 < 64 ∧ (sw 16384).tile = 3 ∧ wHoldingAndMonitors3.dev.cal.repls = [] ∧
      wHoldingAndMonitors3.dev.planActive = false ∧ 3 ≤ wHoldingAndMonitors3.dev.rd R.GLB_START_OPT_STAGE ∧
      16448 ≤ 16500 ∧ false = false ∧ 2 ≤ sget 0 wHoldingAndMonitors3.dev.cal.outRun (16512 * 3 + 16500) ∧
      wHoldingAndMonitors3.dev.cal.modFailed = [] ∧ wHoldingAndMonitors3.dev.rdi R.CAL_MODMAP_SB64_CH 3 = 127 ∧
      wHoldingAndMonitors3.dev.rdi R.CAL_MODMAP_SB65_CH 3 = 127) ∧
    ((3 < 16 ∧ 16500 < 16512 ∧ 1 < 2 ∧ 7 < 64 ∧ (sw 1).tile = 3 ∧ wHoldingAndMonitors5.dev.cal.repls = [] ∧
       wHoldingAndMonitors5.dev.planActive = false ∧ wHoldingAndMonitors5.dev.rdi R.CAL_TILE_ROTATING 3 = 1 ∧
       nth none wHoldingAndMonitors5.dev.cal.dwellAt 3 ≠ none ∧ nth none wHoldingAndMonitors5.dev.cal.swept 3 = none ∧
       nth false wHoldingAndMonitors5.dev.cal.written 3 = false ∧ sweepOk (sw 1) = false ∧
       wHoldingAndMonitors5.dev.rdi R.CAL_TILE_STATE 3 = 0) ∧
     (3 < 16 ∧ 100 < 16512 ∧ 1 < 2 ∧ 7 < 64 ∧ (sw 16384).tile = 3 ∧ wHoldingAndMonitors7.dev.cal.repls = [] ∧
       wHoldingAndMonitors7.dev.planActive = false ∧ wHoldingAndMonitors7.dev.rd R.GLB_START_OPT_STAGE = 4 ∧
       wHoldingAndMonitors7.dev.rdi R.CAL_TILE_STATE 3 ≠ 2 ∧ wHoldingAndMonitors7.dev.cal.mon.length = 16 ∧
       wHoldingAndMonitors7.dev.cal.refNum = [(276 * 3, 5000)] ∧
       sget 0 wHoldingAndMonitors7.dev.cal.faultRun (276 * 3) = 15 ∧
       lowBy 1000 (nth 0 [100] 0) (wHoldingAndMonitors7.dev.litSum (engineOf 3)) 5000 (sget 0 wHoldingAndMonitors7.dev.cal.refDen (276 * 3)) = true)) :=
  ⟨by decide +kernel, by decide +kernel, by decide +kernel, by decide +kernel, by decide +kernel, by decide +kernel, by decide +kernel, by decide +kernel, by decide +kernel⟩

end Monitors

namespace Transport

def port16 : List Nat := [3,0,1,1,8,0,2,0] ++ leBytes 2 0 ++ leBytes 2 700 ++ List.replicate 4 0 ++ [1,2,3,4,5,6] ++ List.replicate 10 0 ++ [10,0,0,1] ++ List.replicate 28 0
def flow16 (gu : Nat) : List Nat := [0,0,1,0] ++ leBytes 4 gu ++ leBytes 8 0x1000 ++ leBytes 8 0x1000 ++ List.replicate 8 0
def path16 : List Nat := [5,3,0,0] ++ leBytes 2 256 ++ leBytes 2 4 ++ leBytes 4 10 ++ leBytes 4 2 ++ leBytes 8 0x100000 ++ leBytes 8 0x1000 ++ [9,9,9,9,9,9] ++ leBytes 2 800 ++ [10,0,0,9] ++ List.replicate 20 0
def peer16 : List Nat := [1,3,3,0,9,9,9,9,9,9] ++ leBytes 2 900 ++ [10,0,0,7] ++ List.replicate 16 0
def im16 (gu : Nat) : List Nat := tImg [(1,0,0,leBytes 4 5000 ++ [1,0,0,0] ++ leBytes 2 0xFFFF ++ List.replicate 2 0 ++ leBytes 4 1000 ++ List.replicate 16 0),
 (13,0,0,[1,1,1,1] ++ leBytes 4 0x8000 ++ List.replicate 8 0 ++ port16 ++ flow16 gu ++ path16 ++ peer16),
 (18,0,0, leBytes 2 0 ++ leBytes 2 0 ++ [0,0,0,0] ++ List.replicate 8 0)]
def b16 (gu : Nat) : Dev := { ((on.wr R.BTP_STATUS_FW_READY 1).wr R.SEQ_STATUS_ACTIVE 1) with beat := 1000, sq := { active := im16 gu, actForms := [0,1,1], frameAt := some 20, frameNo := 3, planAt := 0 } }
def pth (d : Dev) (st : Nat) (p : AetPath) : Dev := ((d.wri R.AET_PATH_STATE 5 st).setPath 5 (fun _ => p)).wri R.AET_PATH_SESSION 5 77
def lk (d : Dev) (v : Nat) : Dev := d.wri R.AET_PORT_LINK 3 v
def ev0 : AetEvt := {ev := 0, evNo := 9, pos := 0, len := 300}
def evq (d : Dev) : Dev := d.setFlow 0 (fun q => {q with queue := [ev0], wpos := 300, count := 1})
def sg (n : Nat) (snt : Option Nat) (due : Nat) : AetSeg := {num := n, ev := 0, evNo := 9, off := 0, len := 100, first := true, last := true, pos := 0, retAt := 0, sentAt := snt, due := due}
def A := b16 0
def ipH (src : List Nat) (n : Nat) : List Nat := let h (c : Nat) := [0x45,0] ++ beBytes 2 n ++ [0,0,0,0,9,17] ++ beBytes 2 c ++ src ++ [10,0,0,1]; h (0xFFFF - ocSum (h 0))
def fr (src : List Nat) (sp : Nat) (u : List Nat) : List Nat := [1,2,3,4,5,6,9,9,9,9,9,9] ++ [8,0] ++ ipH src (28 + u.length) ++ beBytes 2 sp ++ beBytes 2 700 ++ beBytes 2 (8 + u.length) ++ [0,0] ++ u
def pause : List Nat := [1,1,1,1,1,1,2,2,2,2,2,2,0x88,0x08,0,1] ++ List.replicate 44 0
def pfc : List Nat := [1,1,1,1,1,1,2,2,2,2,2,2,0x88,0x08,1,1,0,4,0,0,0,0,0,20] ++ List.replicate 40 0
def gA (cum ses : Nat) : List Nat := ({ty := 2, path := 5, session := ses, seq := cum, win := 8} : Dgram).bytes
def gH (ses : Nat) : List Nat := ({ty := 4, path := 5, session := ses, seq := 1, win := 8} : Dgram).bytes
def gD : List Nat := ({ty := 5, path := 1, data := List.replicate 64 3} : Dgram).bytes
def sr : List Nat := [10,0,0,9]
def O (st : Nat) : Dev := (pth (lk A 2) st {segs := [sg 0 (some 99) 0, sg 1 none 0], win := some 9, timeouts := 3}).wri R.AET_PATH_NEXT 5 1
def noPfc : Dev := let i := tImg [(13,0,0,[1,0,0,0] ++ leBytes 4 0x8000 ++ List.replicate 8 0 ++ (port16.set 4 0))]; let d := lk A 2; {d with sq := {d.sq with active := i}}
def F (u : List Nat) := fr sr 800 u

def wAetPaths1 : State := { dev := lk A 1 }
def wAetPaths2 : State := { dev := lk (evq A) 2 }
def wAetPaths3 : State := { dev := pth (lk (evq A) 2) 1 {segs := [{sg 0 none 0 with len := 0x1000}]} }
def wAetPaths4 : State := { dev := pth (lk A 3) 1 {} }
def wAetPaths5 : State := { dev := pth (lk A 2) 2 {segs := [sg 0 (some 10) 2, sg 1 none 0], win := some 9} }
def wAetPaths6 : AetSeg := sg 0 (some 10) 2
def wAetPaths7 : State := { dev := pth (lk A 2) 2 {segs := [sg 0 (some 990) 0, sg 1 none 0], win := some 9} }
def wAetPaths8 : AetSeg := sg 1 none 0
def wAetPaths9 : State := { dev := pth (lk A 2) 2 {segs := [sg 0 (some 99) 0, sg 1 none 0], win := some 9} }
def wAetPaths10 : AetSeg := sg 0 (some 99) 0
def wAetPaths11 : State := { dev := pth (lk {b16 1 with beat := 300000} 2) 2 {segs := [sg 0 (some 99) 0], win := some 9, timeouts := 7} }
def wAetPaths12 : AetSeg := sg 0 (some 99) 0
def wAetFrames1 : State := { dev := lk A 0 }
def wAetFrames2 : Instr := .ackReceived 3 pause
def wAetFrames3 : State := { dev := lk A 2 }
def wAetFrames4 : Instr := .ackReceived 3 pause
def wAetFrames5 : State := { dev := lk A 2 }
def wAetFrames6 : Instr := .pfcReceived 3 pfc
def wAetFrames7 : State := { dev := noPfc }
def wAetFrames8 : Instr := .pfcReceived 3 pfc
def wAetFrames9 : State := { dev := O 2 }
def wAetFrames10 : List Nat := F (List.replicate 32 1)
def wAetFrames11 : List Nat := List.replicate 32 1
def wAetFrames12 : Instr := .aetFrameDiscard 3 (F (List.replicate 32 1))
def wAetFrames13 : State := { dev := O 2 }
def wAetFrames14 : List Nat := List.replicate 64 1
def wAetFrames15 : Instr := .aetFrameDiscard 3 (List.replicate 64 1)
def wAetFrames16 : State := { dev := O 2 }
def wAetFrames17 : List Nat := F (gA 1 77)
def wAetFrames18 : Instr := .ackReceived 3 (F (gA 1 77))
def wAetFrames19 : State := { dev := O 2 }
def wAetFrames20 : List Nat := F (gA 1 78)
def wAetFrames21 : Instr := .ackReceived 3 (F (gA 1 78))
def wAetFrames22 : State := { dev := O 1 }
def wAetFrames23 : Instr := .helloAckReceived 3 (F (gH 77))
def wAetFrames24 : State := { dev := O 1 }
def wAetFrames25 : Instr := .helloAckReceived 3 (F (gH 79))
def wAetFrames26 : State := { dev := O 1 }
def wAetFrames27 : List Nat := fr [10,0,0,7] 900 gD
def wAetFrames28 : Instr := .decisionReceived 3 (fr [10,0,0,7] 900 gD)
def wAetFrames29 : State := { dev := O 1 }
def wAetFrames30 : List Nat := fr [10,0,0,8] 900 gD
def wAetFrames31 : Instr := .decisionReceived 3 (fr [10,0,0,8] 900 gD)

/-- States and operands that meet the hypotheses of each clause of Obligations.AetPaths. -/
theorem witness_AetPaths :
    ((3 < 16 ∧ 5 < 32 ∧ 0 < 8 ∧ wAetPaths1.dev.aet.paths.length = 32 ∧ wAetPaths1.dev.aet.flows.length = 8 ∧
       wAetPaths1.dev.aetOn = true ∧
       (wAetPaths1.dev.rdi R.AET_PORT_LINK 3 = 1 ∨ wAetPaths1.dev.rdi R.AET_PORT_LINK 3 = 3)) ∧
     (3 < 16 ∧ 5 < 32 ∧ 0 < 8 ∧ wAetPaths1.dev.aet.paths.length = 32 ∧ wAetPaths1.dev.aet.flows.length = 8 ∧
       wAetPaths1.dev.aetOn = true ∧
       (wAetPaths1.dev.rdi R.AET_PORT_LINK 3 = 1 ∨ wAetPaths1.dev.rdi R.AET_PORT_LINK 3 = 2)) ∧
     (3 < 16 ∧ 5 < 32 ∧ 0 < 8 ∧ wAetPaths1.dev.aet.paths.length = 32 ∧ wAetPaths1.dev.aet.flows.length = 8 ∧
       (wAetPaths1.dev.aetOn = false ∨ wAetPaths1.dev.nextCopy 5 = none))) ∧
    ((3 < 16 ∧ 5 < 32 ∧ 0 < 8 ∧ wAetPaths1.dev.aet.paths.length = 32 ∧ wAetPaths1.dev.aet.flows.length = 8 ∧
       (wAetPaths1.dev.aetOn = false ∨ wAetPaths1.dev.pthRec 5 = [] ∨ wAetPaths1.dev.rdi R.AET_PATH_STATE 5 = 0 ∨ ¬(wAetPaths1.dev.beat - wAetPaths1.dev.sq.planAt) % max 1 (pthPeriod (wAetPaths1.dev.pthRec 5)) = 0)) ∧
     (3 < 16 ∧ 5 < 32 ∧ 0 < 8 ∧ wAetPaths1.dev.aet.paths.length = 32 ∧ wAetPaths1.dev.aet.flows.length = 8 ∧
       (wAetPaths1.dev.aetOn = false ∨ wAetPaths1.dev.rdi R.AET_PATH_STATE 5 = 0 ∨ ∀ x ∈ (wAetPaths1.dev.path 5).segs, ¬(x.due = 0 ∧
       x.sentAt.isSome = true ∧
       x.sentAt.getD 0 + pthRto (wAetPaths1.dev.pthRec 5) * 2 ^ wAetPaths1.dev.rdi R.AET_PATH_RTO_X 5 ≤ wAetPaths1.dev.beat))) ∧
     (3 < 16 ∧ 5 < 32 ∧ 0 < 8 ∧ wAetPaths1.dev.aet.paths.length = 32 ∧ wAetPaths1.dev.aet.flows.length = 8 ∧
       (wAetPaths1.dev.aetOn = false ∨ flwGiveup (flowOfPath wAetPaths1.dev.aetSec 5) = 0 ∨ (wAetPaths1.dev.path 5).segs = []))) ∧
    ((3 < 16 ∧ 5 < 32 ∧ 0 < 8 ∧ wAetPaths3.dev.aet.paths.length = 32 ∧ wAetPaths3.dev.aet.flows.length = 8 ∧
       (wAetPaths3.dev.aetOn = false ∨ wAetPaths3.dev.rdi R.AET_PORT_LINK 3 ≠ 1 ∧
       wAetPaths3.dev.rdi R.AET_PORT_LINK 3 ≠ 3)) ∧
     (3 < 16 ∧ 5 < 32 ∧ 0 < 8 ∧ wAetPaths3.dev.aet.paths.length = 32 ∧ wAetPaths3.dev.aet.flows.length = 8 ∧
       wAetPaths3.dev.nextCopy 5 = some (0, ev0) ∧ wAetPaths3.dev.retRoom 5 ev0 = false)) ∧
    ((3 < 16 ∧ 5 < 32 ∧ 0 < 8 ∧ wAetPaths3.dev.aet.paths.length = 32 ∧ wAetPaths3.dev.aet.flows.length = 8 ∧
       wAetPaths3.dev.aetOn = true ∧ wAetPaths3.dev.pthRec 5 ≠ [] ∧
       (wAetPaths3.dev.beat - wAetPaths3.dev.sq.planAt) % max 1 (pthPeriod (wAetPaths3.dev.pthRec 5)) = 0 ∧
       wAetPaths3.dev.rdi R.AET_PORT_LINK (pthPort (wAetPaths3.dev.pthRec 5)) = 2 ∧
       nth 0 wAetPaths3.dev.aet.paused (pthPort (wAetPaths3.dev.pthRec 5)) ≤ wAetPaths3.dev.beat ∧
       wAetPaths3.dev.rdi R.AET_PATH_STATE 5 = 1 ∧
       ((wAetPaths3.dev.path 5).helloAt = none ∨ (wAetPaths3.dev.path 5).helloAt.getD 0 + pthRto (wAetPaths3.dev.pthRec 5) ≤ wAetPaths3.dev.beat)) ∧
     (3 < 16 ∧ 5 < 32 ∧ 0 < 8 ∧ wAetPaths4.dev.aet.paths.length = 32 ∧ wAetPaths4.dev.aet.flows.length = 8 ∧
       (wAetPaths4.dev.aetOn = false ∨ wAetPaths4.dev.rdi R.AET_PORT_LINK 3 = 0 ∨ wAetPaths4.dev.rdi R.AET_PORT_LINK 3 = 3))) ∧
    ((3 < 16 ∧ 5 < 32 ∧ 0 < 8 ∧ wAetPaths4.dev.aet.paths.length = 32 ∧ wAetPaths4.dev.aet.flows.length = 8 ∧
       wAetPaths4.dev.aetOn = true ∧ wAetPaths4.dev.pthRec 5 ≠ [] ∧ wAetPaths4.dev.rdi R.AET_PATH_STATE 5 ≠ 0 ∧
       (wAetPaths4.dev.beat - wAetPaths4.dev.sq.planAt) % max 1 (pthPeriod (wAetPaths4.dev.pthRec 5)) = 0 ∧
       (wAetPaths4.dev.rdi R.AET_PORT_LINK (pthPort (wAetPaths4.dev.pthRec 5)) ≠ 2 ∨ wAetPaths4.dev.beat < nth 0 wAetPaths4.dev.aet.paused (pthPort (wAetPaths4.dev.pthRec 5)))) ∧
     (3 < 16 ∧ 5 < 32 ∧ 0 < 8 ∧ wAetPaths11.dev.aet.paths.length = 32 ∧ wAetPaths11.dev.aet.flows.length = 8 ∧
       wAetPaths11.dev.aetOn = true ∧ wAetPaths11.dev.rdi R.AET_PATH_STATE 5 = 2 ∧
       wAetPaths12 ∈ (wAetPaths11.dev.path 5).segs ∧ wAetPaths12.due = 0 ∧ wAetPaths12.sentAt.isSome = true ∧
       wAetPaths12.sentAt.getD 0 + pthRto (wAetPaths11.dev.pthRec 5) * 2 ^ wAetPaths11.dev.rdi R.AET_PATH_RTO_X 5 ≤ wAetPaths11.dev.beat ∧
       (wAetPaths11.dev.path 5).timeouts = 7)) ∧
    ((3 < 16 ∧ 5 < 32 ∧ 0 < 8 ∧ wAetPaths11.dev.aet.paths.length = 32 ∧ wAetPaths11.dev.aet.flows.length = 8 ∧
       wAetPaths11.dev.aetOn = true ∧ flwGiveup (flowOfPath wAetPaths11.dev.aetSec 5) ≠ 0 ∧
       (wAetPaths11.dev.path 5).segs = [wAetPaths12] ∧
       wAetPaths12.retAt + flwGiveup (flowOfPath wAetPaths11.dev.aetSec 5) * 250000 ≤ wAetPaths11.dev.beat) ∧
     (3 < 16 ∧ 5 < 32 ∧ 0 < 8 ∧ wAetPaths2.dev.aet.paths.length = 32 ∧ wAetPaths2.dev.aet.flows.length = 8 ∧
       wAetPaths2.dev.aetOn = true ∧ wAetPaths2.dev.nextCopy 5 = some (0, ev0) ∧ wAetPaths2.dev.retRoom 5 ev0 = true)) ∧
    (3 < 16 ∧ 5 < 32 ∧ 0 < 8 ∧ wAetPaths5.dev.aet.paths.length = 32 ∧ wAetPaths5.dev.aet.flows.length = 8 ∧
      wAetPaths5.dev.aetOn = true ∧ wAetPaths5.dev.pthRec 5 ≠ [] ∧
      (wAetPaths5.dev.beat - wAetPaths5.dev.sq.planAt) % max 1 (pthPeriod (wAetPaths5.dev.pthRec 5)) = 0 ∧
      wAetPaths5.dev.rdi R.AET_PORT_LINK (pthPort (wAetPaths5.dev.pthRec 5)) = 2 ∧
      nth 0 wAetPaths5.dev.aet.paused (pthPort (wAetPaths5.dev.pthRec 5)) ≤ wAetPaths5.dev.beat ∧
      wAetPaths5.dev.rdi R.AET_PATH_STATE 5 = 2 ∧ (wAetPaths5.dev.path 5).win = some 9 ∧ 9 ≠ 0 ∧
      (List.find? (fun x => decide (x.due ≠ 0)) (wAetPaths5.dev.path 5).segs = some wAetPaths6)) ∧
    ((3 < 16 ∧ 5 < 32 ∧ 0 < 8 ∧ wAetPaths7.dev.aet.paths.length = 32 ∧ wAetPaths7.dev.aet.flows.length = 8 ∧
       wAetPaths7.dev.aetOn = true ∧ wAetPaths7.dev.pthRec 5 ≠ [] ∧
       (wAetPaths7.dev.beat - wAetPaths7.dev.sq.planAt) % max 1 (pthPeriod (wAetPaths7.dev.pthRec 5)) = 0 ∧
       wAetPaths7.dev.rdi R.AET_PORT_LINK (pthPort (wAetPaths7.dev.pthRec 5)) = 2 ∧
       nth 0 wAetPaths7.dev.aet.paused (pthPort (wAetPaths7.dev.pthRec 5)) ≤ wAetPaths7.dev.beat ∧
       wAetPaths7.dev.rdi R.AET_PATH_STATE 5 = 2 ∧ (wAetPaths7.dev.path 5).win = some 9 ∧ 9 ≠ 0 ∧
       (List.find? (fun x => decide (x.due ≠ 0)) (wAetPaths7.dev.path 5).segs = none) ∧
       (List.find? (fun x => x.sentAt.isNone) (wAetPaths7.dev.path 5).segs = some wAetPaths8)) ∧
     (3 < 16 ∧ 5 < 32 ∧ 0 < 8 ∧ wAetPaths9.dev.aet.paths.length = 32 ∧ wAetPaths9.dev.aet.flows.length = 8 ∧
       wAetPaths9.dev.aetOn = true ∧ wAetPaths9.dev.rdi R.AET_PATH_STATE 5 ≠ 0 ∧
       wAetPaths10 ∈ (wAetPaths9.dev.path 5).segs ∧ wAetPaths10.due = 0 ∧ wAetPaths10.sentAt.isSome = true ∧
       wAetPaths10.sentAt.getD 0 + pthRto (wAetPaths9.dev.pthRec 5) * 2 ^ wAetPaths9.dev.rdi R.AET_PATH_RTO_X 5 ≤ wAetPaths9.dev.beat ∧
       (wAetPaths9.dev.rdi R.AET_PATH_STATE 5 ≠ 2 ∨ (wAetPaths9.dev.path 5).timeouts < 7))) :=
  ⟨by decide +kernel, by decide +kernel, by decide +kernel, by decide +kernel, by decide +kernel, by decide +kernel, by decide +kernel, by decide +kernel⟩

/-- States and operands that meet the hypotheses of each clause of Obligations.AetFrames. -/
theorem witness_AetFrames :
    ((3 < 16 ∧ wAetFrames1.dev.aet.paths.length = 32 ∧ wAetFrames1.dev.aet.paused.length = 16 ∧
       wAetFrames2 ∈ [Instr.ackReceived 3 pause, Instr.helloAckReceived 3 pause, Instr.decisionReceived 3 pause, Instr.aetFrameDiscard 3 pause, Instr.pfcReceived 3 pause] ∧
       ¬(wAetFrames1.dev.aetOn = true ∧ wAetFrames1.dev.prtRec 3 ≠ [] ∧ wAetFrames1.dev.rdi R.AET_PORT_LINK 3 = 2)) ∧
     (3 < 16 ∧ wAetFrames1.dev.aet.paths.length = 32 ∧ wAetFrames1.dev.aet.paused.length = 16 ∧
       wAetFrames2 ∈ [Instr.ackReceived 3 pause, Instr.helloAckReceived 3 pause, Instr.decisionReceived 3 pause, Instr.aetFrameDiscard 3 pause, Instr.pfcReceived 3 pause] ∧
       (wAetFrames1.dev.aetOn = false ∨ prtFlag (wAetFrames1.dev.prtRec 3) 3 = false ∨ wAetFrames1.dev.rdi R.AET_PORT_LINK 3 ≠ 2)) ∧
     (3 < 16 ∧ wAetFrames3.dev.aet.paths.length = 32 ∧ wAetFrames3.dev.aet.paused.length = 16 ∧
       wAetFrames4 ∈ [Instr.ackReceived 3 pause, Instr.helloAckReceived 3 pause, Instr.decisionReceived 3 pause, Instr.aetFrameDiscard 3 pause, Instr.pfcReceived 3 pause] ∧
       wAetFrames3.dev.aetOn = true ∧ wAetFrames3.dev.prtRec 3 ≠ [] ∧ wAetFrames3.dev.rdi R.AET_PORT_LINK 3 = 2 ∧
       isPause pause = true) ∧
     (3 < 16 ∧ wAetFrames3.dev.aet.paths.length = 32 ∧ wAetFrames3.dev.aet.paused.length = 16 ∧
       wAetFrames4 ∈ [Instr.ackReceived 3 pause, Instr.helloAckReceived 3 pause, Instr.decisionReceived 3 pause, Instr.aetFrameDiscard 3 pause, Instr.pfcReceived 3 pause] ∧
       wAetFrames3.dev.aetOn = true ∧ prtFlag (wAetFrames3.dev.prtRec 3) 3 = true ∧
       wAetFrames3.dev.rdi R.AET_PORT_LINK 3 = 2)) ∧
    ((3 < 16 ∧ wAetFrames5.dev.aet.paths.length = 32 ∧ wAetFrames5.dev.aet.paused.length = 16 ∧
       wAetFrames6 ∈ [Instr.ackReceived 3 pfc, Instr.helloAckReceived 3 pfc, Instr.decisionReceived 3 pfc, Instr.aetFrameDiscard 3 pfc, Instr.pfcReceived 3 pfc] ∧
       wAetFrames5.dev.aetOn = true ∧ wAetFrames5.dev.prtRec 3 ≠ [] ∧ wAetFrames5.dev.rdi R.AET_PORT_LINK 3 = 2 ∧
       isPause pfc = false ∧ isPfc pfc = true ∧ prtFlag (wAetFrames5.dev.prtRec 3) 3 = true ∧
       pfcTime pfc (u8 (wAetFrames5.dev.prtRec 3) 6) = some 20) ∧
     (3 < 16 ∧ wAetFrames7.dev.aet.paths.length = 32 ∧ wAetFrames7.dev.aet.paused.length = 16 ∧
       wAetFrames8 ∈ [Instr.ackReceived 3 pfc, Instr.helloAckReceived 3 pfc, Instr.decisionReceived 3 pfc, Instr.aetFrameDiscard 3 pfc, Instr.pfcReceived 3 pfc] ∧
       wAetFrames7.dev.aetOn = true ∧ wAetFrames7.dev.prtRec 3 ≠ [] ∧ wAetFrames7.dev.rdi R.AET_PORT_LINK 3 = 2 ∧
       isPause pfc = false ∧ isPfc pfc = true ∧ prtFlag (wAetFrames7.dev.prtRec 3) 3 = false)) ∧
    ((3 < 16 ∧ wAetFrames9.dev.aet.paths.length = 32 ∧ wAetFrames9.dev.aet.paused.length = 16 ∧
       wAetFrames12 ∈ [Instr.ackReceived 3 wAetFrames10, Instr.helloAckReceived 3 wAetFrames10, Instr.decisionReceived 3 wAetFrames10, Instr.aetFrameDiscard 3 wAetFrames10, Instr.pfcReceived 3 wAetFrames10] ∧
       wAetFrames9.dev.aetOn = true ∧ wAetFrames9.dev.prtRec 3 ≠ [] ∧ wAetFrames9.dev.rdi R.AET_PORT_LINK 3 = 2 ∧
       isPause wAetFrames10 = false ∧ isPfc wAetFrames10 = false ∧
       udpPayload (prtAddr (wAetFrames9.dev.prtRec 3)) wAetFrames10 = some wAetFrames11 ∧
       (dgramLayout wAetFrames11 = false ∨ dgramCrc wAetFrames11 = false)) ∧
     (3 < 16 ∧ wAetFrames13.dev.aet.paths.length = 32 ∧ wAetFrames13.dev.aet.paused.length = 16 ∧
       wAetFrames15 ∈ [Instr.ackReceived 3 wAetFrames14, Instr.helloAckReceived 3 wAetFrames14, Instr.decisionReceived 3 wAetFrames14, Instr.aetFrameDiscard 3 wAetFrames14, Instr.pfcReceived 3 wAetFrames14] ∧
       wAetFrames13.dev.aetOn = true ∧ wAetFrames13.dev.prtRec 3 ≠ [] ∧ wAetFrames13.dev.rdi R.AET_PORT_LINK 3 = 2 ∧
       isPause wAetFrames14 = false ∧ isPfc wAetFrames14 = false ∧
       udpPayload (prtAddr (wAetFrames13.dev.prtRec 3)) wAetFrames14 = none ∧
       netAnswer (prtAddr (wAetFrames13.dev.prtRec 3)) wAetFrames14 = none)) ∧
    ((3 < 16 ∧ wAetFrames16.dev.aet.paths.length = 32 ∧ wAetFrames16.dev.aet.paused.length = 16 ∧
       wAetFrames18 ∈ [Instr.ackReceived 3 wAetFrames17, Instr.helloAckReceived 3 wAetFrames17, Instr.decisionReceived 3 wAetFrames17, Instr.aetFrameDiscard 3 wAetFrames17, Instr.pfcReceived 3 wAetFrames17] ∧
       (wAetFrames16.dev.aetOn = true ∧ wAetFrames16.dev.prtRec 3 ≠ [] ∧ wAetFrames16.dev.rdi R.AET_PORT_LINK 3 = 2) ∧
       isPause wAetFrames17 = false ∧ isPfc wAetFrames17 = false ∧
       udpPayload (prtAddr (wAetFrames16.dev.prtRec 3)) wAetFrames17 = some (gA 1 77) ∧ dgramLayout (gA 1 77) = true ∧
       dgramCrc (gA 1 77) = true ∧ (readDgram (gA 1 77)).ty = 2 ∧ (readDgram (gA 1 77)).path < 32 ∧
       wAetFrames16.dev.pthRec (readDgram (gA 1 77)).path ≠ [] ∧
       wAetFrames16.dev.rdi R.AET_PATH_STATE (readDgram (gA 1 77)).path = 2 ∧
       (readDgram (gA 1 77)).session = wAetFrames16.dev.rdi R.AET_PATH_SESSION (readDgram (gA 1 77)).path ∧
       seqDiff (readDgram (gA 1 77)).seq (wAetFrames16.dev.rdi R.AET_PATH_CUM (readDgram (gA 1 77)).path) ≤ seqDiff (wAetFrames16.dev.rdi R.AET_PATH_NEXT (readDgram (gA 1 77)).path) (wAetFrames16.dev.rdi R.AET_PATH_CUM (readDgram (gA 1 77)).path) ∧
       (readDgram (gA 1 77)).aux = 0) ∧
     (3 < 16 ∧ wAetFrames19.dev.aet.paths.length = 32 ∧ wAetFrames19.dev.aet.paused.length = 16 ∧
       wAetFrames21 ∈ [Instr.ackReceived 3 wAetFrames20, Instr.helloAckReceived 3 wAetFrames20, Instr.decisionReceived 3 wAetFrames20, Instr.aetFrameDiscard 3 wAetFrames20, Instr.pfcReceived 3 wAetFrames20] ∧
       (wAetFrames19.dev.aetOn = true ∧ wAetFrames19.dev.prtRec 3 ≠ [] ∧ wAetFrames19.dev.rdi R.AET_PORT_LINK 3 = 2) ∧
       isPause wAetFrames20 = false ∧ isPfc wAetFrames20 = false ∧
       udpPayload (prtAddr (wAetFrames19.dev.prtRec 3)) wAetFrames20 = some (gA 1 78) ∧ dgramLayout (gA 1 78) = true ∧
       dgramCrc (gA 1 78) = true ∧ (readDgram (gA 1 78)).ty = 2 ∧ (readDgram (gA 1 78)).path < 32 ∧
       wAetFrames19.dev.pthRec (readDgram (gA 1 78)).path ≠ [] ∧
       (wAetFrames19.dev.rdi R.AET_PATH_STATE (readDgram (gA 1 78)).path ≠ 2 ∨ (readDgram (gA 1 78)).session ≠ wAetFrames19.dev.rdi R.AET_PATH_SESSION (readDgram (gA 1 78)).path ∨ seqDiff (wAetFrames19.dev.rdi R.AET_PATH_NEXT (readDgram (gA 1 78)).path) (wAetFrames19.dev.rdi R.AET_PATH_CUM (readDgram (gA 1 78)).path) < seqDiff (readDgram (gA 1 78)).seq (wAetFrames19.dev.rdi R.AET_PATH_CUM (readDgram (gA 1 78)).path)))) ∧
    ((3 < 16 ∧ wAetFrames22.dev.aet.paths.length = 32 ∧ wAetFrames22.dev.aet.paused.length = 16 ∧
       wAetFrames23 ∈ [Instr.ackReceived 3 (F (gH 77)), Instr.helloAckReceived 3 (F (gH 77)), Instr.decisionReceived 3 (F (gH 77)), Instr.aetFrameDiscard 3 (F (gH 77)), Instr.pfcReceived 3 (F (gH 77))] ∧
       (wAetFrames22.dev.aetOn = true ∧ wAetFrames22.dev.prtRec 3 ≠ [] ∧ wAetFrames22.dev.rdi R.AET_PORT_LINK 3 = 2) ∧
       isPause (F (gH 77)) = false ∧ isPfc (F (gH 77)) = false ∧
       udpPayload (prtAddr (wAetFrames22.dev.prtRec 3)) (F (gH 77)) = some (gH 77) ∧ dgramLayout (gH 77) = true ∧
       dgramCrc (gH 77) = true ∧ (readDgram (gH 77)).ty = 4 ∧ (readDgram (gH 77)).path < 32 ∧
       wAetFrames22.dev.pthRec (readDgram (gH 77)).path ≠ [] ∧
       wAetFrames22.dev.rdi R.AET_PATH_STATE (readDgram (gH 77)).path = 1 ∧
       (readDgram (gH 77)).session = wAetFrames22.dev.rdi R.AET_PATH_SESSION (readDgram (gH 77)).path) ∧
     (3 < 16 ∧ wAetFrames24.dev.aet.paths.length = 32 ∧ wAetFrames24.dev.aet.paused.length = 16 ∧
       wAetFrames25 ∈ [Instr.ackReceived 3 (F (gH 79)), Instr.helloAckReceived 3 (F (gH 79)), Instr.decisionReceived 3 (F (gH 79)), Instr.aetFrameDiscard 3 (F (gH 79)), Instr.pfcReceived 3 (F (gH 79))] ∧
       (wAetFrames24.dev.aetOn = true ∧ wAetFrames24.dev.prtRec 3 ≠ [] ∧ wAetFrames24.dev.rdi R.AET_PORT_LINK 3 = 2) ∧
       isPause (F (gH 79)) = false ∧ isPfc (F (gH 79)) = false ∧
       udpPayload (prtAddr (wAetFrames24.dev.prtRec 3)) (F (gH 79)) = some (gH 79) ∧ dgramLayout (gH 79) = true ∧
       dgramCrc (gH 79) = true ∧ (readDgram (gH 79)).ty = 4 ∧ wAetFrames24.dev.pthRec (readDgram (gH 79)).path ≠ [] ∧
       (readDgram (gH 79)).session ≠ wAetFrames24.dev.rdi R.AET_PATH_SESSION (readDgram (gH 79)).path) ∧
     (3 < 16 ∧ wAetFrames26.dev.aet.paths.length = 32 ∧ wAetFrames26.dev.aet.paused.length = 16 ∧
       wAetFrames28 ∈ [Instr.ackReceived 3 wAetFrames27, Instr.helloAckReceived 3 wAetFrames27, Instr.decisionReceived 3 wAetFrames27, Instr.aetFrameDiscard 3 wAetFrames27, Instr.pfcReceived 3 wAetFrames27] ∧
       (wAetFrames26.dev.aetOn = true ∧ wAetFrames26.dev.prtRec 3 ≠ [] ∧ wAetFrames26.dev.rdi R.AET_PORT_LINK 3 = 2) ∧
       isPause wAetFrames27 = false ∧ isPfc wAetFrames27 = false ∧
       udpPayload (prtAddr (wAetFrames26.dev.prtRec 3)) wAetFrames27 = some gD ∧ dgramLayout gD = true ∧
       dgramCrc gD = true ∧ (readDgram gD).ty = 5 ∧ wAetFrames26.dev.planActive = true ∧
       (List.find? (fun r => perRecv r && u8 r 1 == 3 && (bytesAt r 12 16, u16 r 10) == udpSource (prtAddr (wAetFrames26.dev.prtRec 3)) wAetFrames27) (aetPeers wAetFrames26.dev.aetSec) = some peer16))) ∧
    (3 < 16 ∧ wAetFrames29.dev.aet.paths.length = 32 ∧ wAetFrames29.dev.aet.paused.length = 16 ∧
      wAetFrames31 ∈ [Instr.ackReceived 3 wAetFrames30, Instr.helloAckReceived 3 wAetFrames30, Instr.decisionReceived 3 wAetFrames30, Instr.aetFrameDiscard 3 wAetFrames30, Instr.pfcReceived 3 wAetFrames30] ∧
      (wAetFrames29.dev.aetOn = true ∧ wAetFrames29.dev.prtRec 3 ≠ [] ∧ wAetFrames29.dev.rdi R.AET_PORT_LINK 3 = 2) ∧
      isPause wAetFrames30 = false ∧ isPfc wAetFrames30 = false ∧
      udpPayload (prtAddr (wAetFrames29.dev.prtRec 3)) wAetFrames30 = some gD ∧ dgramLayout gD = true ∧
      dgramCrc gD = true ∧ (readDgram gD).ty = 5 ∧ wAetFrames29.dev.planActive = true ∧
      (List.find? (fun r => perRecv r && u8 r 1 == 3 && (bytesAt r 12 16, u16 r 10) == udpSource (prtAddr (wAetFrames29.dev.prtRec 3)) wAetFrames30) (aetPeers wAetFrames29.dev.aetSec) = none)) :=
  ⟨by decide +kernel, by decide +kernel, by decide +kernel, by decide +kernel, by decide +kernel, by decide +kernel⟩

end Transport

namespace Sensing

def hk17 : List Nat := tImg [(1,0,0,leBytes 4 5000 ++ [1,0,0,0] ++ leBytes 2 0xFFFF ++ List.replicate 2 0 ++ leBytes 4 1000 ++ List.replicate 16 0), (2,0,0, tSlot 0 24 3 0 0 0 0 0 0 ++ tSlot 24 4000 4 0 0 0 0 0 0)]
def s17 (mode : Nat) (c : SadCh) : Dev := ((({on with beat := 100000} : Dev).wri R.SAD_CFG_MODE 4 mode).wri R.SAD_CFG_BURST_N 4 (if mode = 2 then 3 else 0)).setSadCh 4 c
def rq : UrgReq := ⟨4, 100, true⟩
def U (d : Dev) : Dev := {d with sad := {d.sad with urg := [rq]}}

def wSensingAdc1 : State := { dev := s17 1 {} }
def wSensingAdc2 : State := { dev := s17 1 {edge0 := some 50} }
def wSensingAdc3 : State := { dev := s17 1 {edge0 := some 50, words := 11} }
def wSensingAdc4 : State := { dev := s17 1 {edge0 := some 99990, words := 11} }
def wSensingAdc5 : State := { dev := {s17 0 {} with pw := {}} }
def wSensingAdc6 : State := { dev := {s17 0 {} with beat := 300000} }
def wSensingAdc7 : State := { dev := {s17 0 {} with armWrite := some (100000, 3)} |>.wr R.SEQ_STATUS_ACTIVE 1 }
def wSensingAdc8 : State := { dev := U (s17 1 {}) }
def wSensingAdc9 : State := { dev := {U (s17 2 {}) with rst := {refLost := true}} }

/-- States and operands that meet the hypotheses of each clause of Obligations.SensingAdc. -/
theorem witness_SensingAdc :
    ((4 < 12 ∧ 1 < 4 ∧ wSensingAdc1.dev.sad.chans.length = 12 ∧
       ((wSensingAdc1.dev.sadCh 4).edge0 = none ∨ wSensingAdc1.dev.sadOn = false ∨ wSensingAdc1.dev.syncWaits 4 = true)) ∧
     (4 < 12 ∧ 1 < 4 ∧ wSensingAdc1.dev.sad.chans.length = 12 ∧ wSensingAdc1.dev.supConvert = false) ∧
     (4 < 12 ∧ 1 < 4 ∧ wSensingAdc1.dev.sad.chans.length = 12 ∧ wSensingAdc1.dev.running = true ∧
       wSensingAdc1.dev.inReset 13 = false ∧ wSensingAdc1.dev.lostWrite 1310724 = false ∧
       wSensingAdc1.dev.planActive = false) ∧
     (4 < 12 ∧ 1 < 4 ∧ wSensingAdc1.dev.sad.chans.length = 12 ∧ wSensingAdc1.dev.running = true ∧
       wSensingAdc1.dev.inReset 13 = false ∧ wSensingAdc1.dev.lostWrite (1310976 + 32 * (12 + 1)) = false)) ∧
    ((4 < 12 ∧ 1 < 4 ∧ wSensingAdc1.dev.sad.chans.length = 12 ∧ wSensingAdc1.dev.running = true ∧
       wSensingAdc1.dev.inReset 13 = false ∧ wSensingAdc1.dev.lostWrite (1310976 + 32 * 4) = false ∧
       wSensingAdc1.dev.planActive = false ∧ wSensingAdc1.dev.cfgTaken 4 16 = true) ∧
     (4 < 12 ∧ 1 < 4 ∧ wSensingAdc1.dev.sad.chans.length = 12 ∧ wSensingAdc1.dev.running = true ∧
       wSensingAdc1.dev.inReset 13 = false ∧ wSensingAdc1.dev.lostWrite 1310728 = false) ∧
     (4 < 12 ∧ 1 < 4 ∧ wSensingAdc1.dev.sad.chans.length = 12 ∧
       (∀ x ∈ wSensingAdc1.dev.sad.urg, x.ch = 4 → wSensingAdc1.dev.urgDue x = false)) ∧
     (4 < 12 ∧ 1 < 4 ∧ wSensingAdc5.dev.sad.chans.length = 12 ∧ ¬(wSensingAdc5.dev.running = true ∧
       wSensingAdc5.dev.inReset 13 = false))) ∧
    ((4 < 12 ∧ 1 < 4 ∧ wSensingAdc4.dev.sad.chans.length = 12 ∧ wSensingAdc4.dev.running = true ∧
       wSensingAdc4.dev.inReset 13 = false ∧ wSensingAdc4.dev.lostWrite (1310976 + 32 * 4) = false ∧
       (wSensingAdc4.dev.planActive = true ∨ wSensingAdc4.dev.cfgTaken 4 2 = false)) ∧
     (4 < 12 ∧ 1 < 4 ∧ wSensingAdc4.dev.sad.chans.length = 12 ∧ (wSensingAdc4.dev.sadCh 4).edge0 = some 99990 ∧
       wSensingAdc4.dev.beat < wSensingAdc4.dev.wordDue 4 ((wSensingAdc4.dev.sadCh 4).words + 1) 99990) ∧
     (4 < 12 ∧ 1 < 4 ∧ wSensingAdc2.dev.sad.chans.length = 12 ∧ (wSensingAdc2.dev.sadCh 4).edge0 = some 50 ∧
       wSensingAdc2.dev.sadOn = true ∧ wSensingAdc2.dev.syncWaits 4 = false ∧
       wSensingAdc2.dev.wordDue 4 ((wSensingAdc2.dev.sadCh 4).words + 1) 50 ≤ wSensingAdc2.dev.beat ∧
       (wSensingAdc2.dev.sadCh 4).words + 1 ≤ if wSensingAdc2.dev.sadPair 4 = true then 20 else 10)) ∧
    ((4 < 12 ∧ 1 < 4 ∧ wSensingAdc3.dev.sad.chans.length = 12 ∧ (wSensingAdc3.dev.sadCh 4).edge0 = some 50 ∧
       wSensingAdc3.dev.sadOn = true ∧ wSensingAdc3.dev.syncWaits 4 = false ∧
       wSensingAdc3.dev.wordDue 4 ((wSensingAdc3.dev.sadCh 4).words + 1) 50 ≤ wSensingAdc3.dev.beat ∧
       (if wSensingAdc3.dev.sadPair 4 = true then 20 else 10) < (wSensingAdc3.dev.sadCh 4).words + 1) ∧
     (4 < 12 ∧ 1 < 4 ∧ wSensingAdc6.dev.sad.chans.length = 12 ∧ wSensingAdc6.dev.supConvert = true) ∧
     (4 < 12 ∧ 1 < 4 ∧ wSensingAdc7.dev.sad.chans.length = 12 ∧ wSensingAdc7.dev.running = true ∧
       wSensingAdc7.dev.inReset 13 = false ∧ wSensingAdc7.dev.lostWrite 1310724 = false ∧
       wSensingAdc7.dev.planActive = true) ∧
     (4 < 12 ∧ 1 < 4 ∧ wSensingAdc8.dev.sad.chans.length = 12 ∧ wSensingAdc8.dev.sad.urg = [rq] ∧ rq.ch = 4 ∧
       wSensingAdc8.dev.urgDue rq = true ∧ wSensingAdc8.dev.sadOn = true ∧ wSensingAdc8.dev.syncWaits 4 = false)) ∧
    (4 < 12 ∧ 1 < 4 ∧ wSensingAdc9.dev.sad.chans.length = 12 ∧ wSensingAdc9.dev.sad.urg = [rq] ∧ rq.ch = 4 ∧
      wSensingAdc9.dev.urgDue rq = true ∧ (wSensingAdc9.dev.sadOn = false ∨ wSensingAdc9.dev.syncWaits 4 = true)) :=
  ⟨by decide +kernel, by decide +kernel, by decide +kernel, by decide +kernel, by decide +kernel⟩

end Sensing

namespace Loop

def coef (m : Int) (sh : Nat) : List Nat := leBytes 4 (ofInt 32 m) ++ [sh,0,0,0]
def bank18 (rate : Nat) : List Nat := List.replicate 320 0 ++ coef 1 0 ++ coef 1 2 ++ coef 0 0 ++ coef 0 0 ++ leBytes 4 1000 ++ [0,0,0,0] ++ leBytes 4 (ofInt 32 (-500)) ++ leBytes 4 500 ++ leBytes 4 rate ++ List.replicate 12 0
def drive18 : List Nat := [16,0,12,0,5,1,1,0] ++ leBytes 4 0 ++ leBytes 2 100 ++ [1,0] ++ List.replicate 16 0
def loop18 (mode : Nat) (rate : Nat) : List Nat := [mode,0,0,0,0,0,0xFF,0xFF,24,0,0,7] ++ leBytes 4 5 ++ leBytes 4 0 ++ leBytes 4 0 ++ leBytes 4 1 ++ leBytes 4 100 ++ leBytes 4 100 ++ leBytes 2 2 ++ [1,1,0] ++ List.replicate 23 0 ++ bank18 rate ++ bank18 rate ++ drive18 ++ List.replicate 2048 0
def im18 (m r : Nat) : List Nat := tImg [(1,0,0,leBytes 4 5000 ++ [1,0,0,0] ++ leBytes 2 0xFFFF ++ List.replicate 2 0 ++ leBytes 4 1000 ++ leBytes 4 1000 ++ List.replicate 12 0), (14,0,0,loop18 m r)]
def b18 (m r : Nat) : Dev := let d : Dev := { ((on.wr R.SEQ_STATUS_ACTIVE 1).wr R.LPE_STATUS_STATE 1) with beat := 3000, sq := { active := im18 m r, actForms := [0,1,1], frameAt := some 20, frameNo := 3, planAt := 0 } }
  (((d.loadWords R.LPE_BANK_A (bank18 r)).wr R.LPE_SETPOINT 300).wr R.CAD_PHASE (2^24*40)).wr R.CAD_STATUS_VALID 1
def xs : LpSample := {beat := 900, due := 2900, stamp := 0, kind := 0, done := true, out := -77}
def D := b18 1 0

def wLoopSamples1 : State := { dev := on }
def wLoopSamples2 : State := { dev := D.setLpe fun l => {l with lastS := some 2900} }
def wLoopSamples3 : State := { dev := D }
def wLoopSamples4 : State := { dev := D.wr R.CAD_STATUS_VALID 0 }
def wLoopSamples5 : State := { dev := D.setLpe fun l => {l with pend := [xs]} }
def wLoopSamples6 : State := { dev := D.setLpe fun l => {l with pend := [{xs with due := 5000}]} }
def wLoopSamples7 : LpSample := {xs with due := 5000}
def wLoopControls1 : State := { dev := D }
def wLoopControls2 : Instr := .swap .pf 3
def wLoopControls3 : State := { dev := D }
def wLoopControls4 : Instr := .clearTrip .pf 2 true
def wLoopControls5 : State := { dev := D.wr R.SEQ_STATUS_ACTIVE 0 }
def wLoopControls6 : Instr := .clearTrip .pf 2 true
def wLoopControls7 : State := { dev := {D with pw := {}} }
def wLoopControls8 : Instr := .clearTrip .pf 2 true
def wLoopControls9 : State := { dev := {D with armWrite := some (3000, 0x48000)} }
def wLoopControls10 : Instr := .clearTrip .pf 2 true
def wLoopSamples8 : State := { dev := {D with rst := {refLost := true}} }

/-- States and operands that meet the hypotheses of each clause of Obligations.LoopSamples. -/
theorem witness_LoopSamples :
    ((¬(wLoopSamples1.dev.loP ≠ 0 ∧ loTimer wLoopSamples1.dev.loSec = true ∧
       wLoopSamples1.dev.lpe.b0 ≤ wLoopSamples1.dev.beat ∧
       (wLoopSamples1.dev.beat - wLoopSamples1.dev.lpe.b0) % wLoopSamples1.dev.loP = 0 ∧
       wLoopSamples1.dev.lpe.lastS ≠ some wLoopSamples1.dev.beat)) ∧
     ((wLoopSamples1.dev.lpe.pend = [] ∨ wLoopSamples1.dev.lpeOn = false)) ∧
     (wLoopSamples1.dev.works 11 = true) ∧
     (wLoopSamples8.dev.loP ≠ 0 ∧ loTimer wLoopSamples8.dev.loSec = true ∧
       wLoopSamples8.dev.lpe.b0 ≤ wLoopSamples8.dev.beat ∧
       (wLoopSamples8.dev.beat - wLoopSamples8.dev.lpe.b0) % wLoopSamples8.dev.loP = 0 ∧
       wLoopSamples8.dev.lpe.lastS ≠ some wLoopSamples8.dev.beat ∧ wLoopSamples8.dev.lpe.pend = [] ∧
       wLoopSamples8.dev.lpeOn = false) ∧
     (wLoopSamples8.dev.works 11 = false) ∧
     (wLoopSamples2.dev.loP ≠ 0 ∧ loTimer wLoopSamples2.dev.loSec = true ∧
       wLoopSamples2.dev.lpe.b0 ≤ wLoopSamples2.dev.beat ∧
       (wLoopSamples2.dev.beat - wLoopSamples2.dev.lpe.b0) % wLoopSamples2.dev.loP = 0 ∧
       wLoopSamples2.dev.lpe.lastS ≠ some wLoopSamples2.dev.beat ∧ wLoopSamples2.dev.lpe.pend = [] ∧
       wLoopSamples2.dev.lpeOn = true ∧ wLoopSamples2.dev.lpe.lastS.isSome = true ∧
       2 * (wLoopSamples2.dev.beat - wLoopSamples2.dev.lpe.lastS.getD 0) < wLoopSamples2.dev.loP)) ∧
    ((wLoopSamples3.dev.loP ≠ 0 ∧ loTimer wLoopSamples3.dev.loSec = true ∧
       wLoopSamples3.dev.lpe.b0 ≤ wLoopSamples3.dev.beat ∧
       (wLoopSamples3.dev.beat - wLoopSamples3.dev.lpe.b0) % wLoopSamples3.dev.loP = 0 ∧
       wLoopSamples3.dev.lpe.lastS ≠ some wLoopSamples3.dev.beat ∧ (wLoopSamples3.dev.lpeOn = true ∧
       wLoopSamples3.dev.lpe.pend = [] ∧ wLoopSamples3.dev.rd R.LPE_STATUS_SWAP_PEND = 0 ∧
       wLoopSamples3.dev.lpe.toB = false ∧ loSp wLoopSamples3.dev.loSec = 0 ∧ loFb wLoopSamples3.dev.loSec = 0 ∧
       loAux wLoopSamples3.dev.loSec 0 = 255 ∧ loAux wLoopSamples3.dev.loSec 1 = 255 ∧
       wLoopSamples3.dev.rd R.LPE_STATUS_FAULT = 0 ∧ wLoopSamples3.dev.lpe.tripAct = 0 ∧
       (wLoopSamples3.dev.lpe.lastS = none ∨ wLoopSamples3.dev.loP ≤ 2 * (wLoopSamples3.dev.beat - wLoopSamples3.dev.lpe.lastS.getD 0))) ∧
       (loMode wLoopSamples3.dev.loSec = 1 ∨ loMode wLoopSamples3.dev.loSec = 2) ∧
       wLoopSamples3.dev.rd R.CAD_STATUS_VALID = 1) ∧
     (wLoopSamples4.dev.loP ≠ 0 ∧ loTimer wLoopSamples4.dev.loSec = true ∧
       wLoopSamples4.dev.lpe.b0 ≤ wLoopSamples4.dev.beat ∧
       (wLoopSamples4.dev.beat - wLoopSamples4.dev.lpe.b0) % wLoopSamples4.dev.loP = 0 ∧
       wLoopSamples4.dev.lpe.lastS ≠ some wLoopSamples4.dev.beat ∧ (wLoopSamples4.dev.lpeOn = true ∧
       wLoopSamples4.dev.lpe.pend = [] ∧ wLoopSamples4.dev.rd R.LPE_STATUS_SWAP_PEND = 0 ∧
       wLoopSamples4.dev.lpe.toB = false ∧ loSp wLoopSamples4.dev.loSec = 0 ∧ loFb wLoopSamples4.dev.loSec = 0 ∧
       loAux wLoopSamples4.dev.loSec 0 = 255 ∧ loAux wLoopSamples4.dev.loSec 1 = 255 ∧
       wLoopSamples4.dev.rd R.LPE_STATUS_FAULT = 0 ∧ wLoopSamples4.dev.lpe.tripAct = 0 ∧
       (wLoopSamples4.dev.lpe.lastS = none ∨ wLoopSamples4.dev.loP ≤ 2 * (wLoopSamples4.dev.beat - wLoopSamples4.dev.lpe.lastS.getD 0))) ∧
       (loMode wLoopSamples4.dev.loSec = 1 ∨ loMode wLoopSamples4.dev.loSec = 2) ∧
       wLoopSamples4.dev.rd R.CAD_STATUS_VALID = 0)) ∧
    ((wLoopSamples5.dev.lpe.pend = [xs] ∧ wLoopSamples5.dev.lpeOn = true ∧ xs.done = true ∧
       xs.due ≤ wLoopSamples5.dev.beat ∧
       (wLoopSamples5.dev.rd R.LPE_TRC_STATUS_STATE = 0 ∨ wLoopSamples5.dev.rd R.LPE_TRC_STATUS_STATE = 4)) ∧
     (wLoopSamples6.dev.lpe.pend = [wLoopSamples7] ∧ wLoopSamples6.dev.beat < wLoopSamples7.due)) :=
  ⟨by decide +kernel, by decide +kernel, by decide +kernel⟩

/-- States and operands that meet the hypotheses of each clause of Obligations.LoopControls. -/
theorem witness_LoopControls :
    ((5 < 96 ∧ 1 < 2 ∧
       wLoopControls4 ∈ [Instr.swap Master.pf 2, Instr.clearTrip Master.pf 2 true, Instr.lpeBankWrite Master.pf 1 5 2, Instr.traceArm Master.pf 2] ∧
       wLoopControls3.dev.running = true ∧ wLoopControls3.dev.inReset 11 = false ∧
       wLoopControls3.dev.lostWrite 1179648 = false ∧ wLoopControls3.dev.lostWrite 1179712 = false ∧
       wLoopControls3.dev.lostWrite ((if 1 = 0 then 1183744 else 1184256) + 4 * 5) = false ∧
       wLoopControls3.dev.planActive = true ∧
       (wLoopControls3.dev.rd R.LPE_STATUS_STATE = 0 ∨ wLoopControls3.dev.bankInUse (decide (1 ≠ 0)) = false)) ∧
     (5 < 96 ∧ 1 < 2 ∧
       wLoopControls4 ∈ [Instr.swap Master.pf 2, Instr.clearTrip Master.pf 2 true, Instr.lpeBankWrite Master.pf 1 5 2, Instr.traceArm Master.pf 2] ∧
       wLoopControls3.dev.running = true ∧ wLoopControls3.dev.inReset 11 = false ∧
       wLoopControls3.dev.lostWrite 1179648 = false ∧ wLoopControls3.dev.lostWrite 1179712 = false ∧
       wLoopControls3.dev.lostWrite ((if 1 = 0 then 1183744 else 1184256) + 4 * 5) = false ∧
       wLoopControls3.dev.planActive = true ∧ (bitAt 2 0 = false ∨ wLoopControls3.dev.rd R.LPE_STATUS_STATE = 0))) ∧
    ((5 < 96 ∧ 1 < 2 ∧
       wLoopControls4 ∈ [Instr.swap Master.pf 2, Instr.clearTrip Master.pf 2 true, Instr.lpeBankWrite Master.pf 1 5 2, Instr.traceArm Master.pf 2] ∧
       wLoopControls3.dev.running = true ∧ wLoopControls3.dev.inReset 11 = false ∧
       wLoopControls3.dev.lostWrite 1179648 = false ∧ wLoopControls3.dev.lostWrite 1179712 = false ∧
       wLoopControls3.dev.lostWrite ((if 1 = 0 then 1183744 else 1184256) + 4 * 5) = false ∧
       wLoopControls3.dev.planActive = true ∧ bitAt 2 0 = false ∧ bitAt 2 1 = true) ∧
     (5 < 96 ∧ 1 < 2 ∧
       wLoopControls6 ∈ [Instr.swap Master.pf 2, Instr.clearTrip Master.pf 2 true, Instr.lpeBankWrite Master.pf 1 5 2, Instr.traceArm Master.pf 2] ∧
       wLoopControls5.dev.running = true ∧ wLoopControls5.dev.inReset 11 = false ∧
       wLoopControls5.dev.lostWrite 1179648 = false ∧ wLoopControls5.dev.lostWrite 1179712 = false ∧
       wLoopControls5.dev.lostWrite ((if 1 = 0 then 1183744 else 1184256) + 4 * 5) = false ∧
       wLoopControls5.dev.planActive = false)) ∧
    ((5 < 96 ∧ 0 < 2 ∧
       wLoopControls2 ∈ [Instr.swap Master.pf 3, Instr.clearTrip Master.pf 3 true, Instr.lpeBankWrite Master.pf 0 5 3, Instr.traceArm Master.pf 3] ∧
       wLoopControls1.dev.running = true ∧ wLoopControls1.dev.inReset 11 = false ∧
       wLoopControls1.dev.lostWrite 1179648 = false ∧ wLoopControls1.dev.lostWrite 1179712 = false ∧
       wLoopControls1.dev.lostWrite ((if 0 = 0 then 1183744 else 1184256) + 4 * 5) = false ∧
       wLoopControls1.dev.planActive = true ∧ bitAt 3 0 = true ∧ wLoopControls1.dev.rd R.LPE_STATUS_STATE ≠ 0) ∧
     (5 < 96 ∧ 0 < 2 ∧
       wLoopControls2 ∈ [Instr.swap Master.pf 3, Instr.clearTrip Master.pf 3 true, Instr.lpeBankWrite Master.pf 0 5 3, Instr.traceArm Master.pf 3] ∧
       wLoopControls1.dev.running = true ∧ wLoopControls1.dev.inReset 11 = false ∧
       wLoopControls1.dev.lostWrite 1179648 = false ∧ wLoopControls1.dev.lostWrite 1179712 = false ∧
       wLoopControls1.dev.lostWrite ((if 0 = 0 then 1183744 else 1184256) + 4 * 5) = false ∧
       wLoopControls1.dev.planActive = true ∧ wLoopControls1.dev.rd R.LPE_STATUS_STATE ≠ 0 ∧
       wLoopControls1.dev.bankInUse (decide (0 ≠ 0)) = true)) ∧
    ((5 < 96 ∧ 1 < 2 ∧
       wLoopControls8 ∈ [Instr.swap Master.pf 2, Instr.clearTrip Master.pf 2 true, Instr.lpeBankWrite Master.pf 1 5 2, Instr.traceArm Master.pf 2] ∧
       (wLoopControls7.dev.running = false ∨ wLoopControls7.dev.inReset 11 = true)) ∧
     (5 < 96 ∧ 1 < 2 ∧
       wLoopControls10 ∈ [Instr.swap Master.pf 2, Instr.clearTrip Master.pf 2 true, Instr.lpeBankWrite Master.pf 1 5 2, Instr.traceArm Master.pf 2] ∧
       wLoopControls9.dev.running = true ∧ wLoopControls9.dev.inReset 11 = false ∧
       wLoopControls9.dev.lostWrite 1179648 = true)) :=
  ⟨by decide +kernel, by decide +kernel, by decide +kernel, by decide +kernel⟩

end Loop

namespace Supervision

def t19 (f : Thm → Thm) : Dev := {on with thm := f {on.thm with began := true}}
def rp (v : Int) : List (Option Int) := List.replicate 48 (some v)
def A0 : Arm := {ring := 0, seqNo := 9, target := 0, wait := 1}

def wSupervisionAndErrors1 : State := { dev := {on with pw := {}} }
def wSupervisionAndErrors2 : State := { dev := t19 fun t => {t with badRun := t.badRun.set 4 2} }
def wSupervisionAndErrors3 : List (Option Int) := (rp 300).set 4 none
def wSupervisionAndErrors4 : State := { dev := (t19 fun t => {t with flags := [true,true,false], enter := [0,0,7]}).wr R.THM_STATUS_STATE 2 }
def wSupervisionAndErrors5 : State := { dev := (on.wr R.BTP_STATUS_FW_READY 1).wr R.SEQ_STATUS_ACTIVE 1 }
def wSupervisionAndErrors6 : State := { dev := {on with sq := {arm := some A0, standby := [1,2]}} }
def wSupervisionAndErrors7 : State := { dev := on.rasEvent 5 6 7 8 }
def wSupervisionAndErrors8 : State := { dev := on.wr R.RAS_LOG_WR_NEXT 255 }

/-- States and operands that meet the hypotheses of each clause of Obligations.SupervisionAndErrors. -/
theorem witness_SupervisionAndErrors :
    ((4 < 48 ∧ 3 < 5 ∧ 5 < 13 ∧ (¬(true = true ∧ wSupervisionAndErrors5.dev.ras.merge = true ∧
       wSupervisionAndErrors5.dev.rdi R.RAS_LOG_CLASS ((wSupervisionAndErrors5.dev.rd R.RAS_LOG_WR_NEXT + 255) % 256) = 5 ∧
       wSupervisionAndErrors5.dev.rdi R.RAS_LOG_BLOCK ((wSupervisionAndErrors5.dev.rd R.RAS_LOG_WR_NEXT + 255) % 256) = 6 ∧
       wSupervisionAndErrors5.dev.rdi R.RAS_LOG_CLIENT ((wSupervisionAndErrors5.dev.rd R.RAS_LOG_WR_NEXT + 255) % 256) = 7 ∧
       ∃ b, wSupervisionAndErrors5.dev.ras.newest = some b ∧ wSupervisionAndErrors5.dev.beat < b + 250000)) ∧
       (wSupervisionAndErrors5.dev.rd R.RAS_LOG_WR_NEXT + 1) % 256 ≠ wSupervisionAndErrors5.dev.rd R.RAS_LOG_RD ∧
       bitAt (wSupervisionAndErrors5.dev.rd R.MGT_ALERT_MASK) 5 = true) ∧
     (4 < 48 ∧ 3 < 5 ∧ 5 < 13 ∧
       (wSupervisionAndErrors5.dev.rd R.RAS_LOG_WR_NEXT + 1) % 256 ≠ wSupervisionAndErrors5.dev.rd R.RAS_LOG_RD ∧
       wSupervisionAndErrors5.dev.rdi R.MEM_T2_STATUS_FAILED (4 % 8) = 0) ∧
     (4 < 48 ∧ 3 < 5 ∧ 5 < 13 ∧
       (wSupervisionAndErrors5.dev.rd R.RAS_LOG_WR_NEXT + 1) % 256 ≠ wSupervisionAndErrors5.dev.rd R.RAS_LOG_RD ∧
       wSupervisionAndErrors5.dev.rdi R.MEM_T1_STATUS_FAILED (4 % 6) = 0)) ∧
    ((4 < 48 ∧ 3 < 5 ∧ 5 < 13 ∧ (wSupervisionAndErrors5.dev.pw.vaux = true ∧
       (wSupervisionAndErrors5.dev.railsUp = true ∨ wSupervisionAndErrors5.dev.thm.began = true)) ∧
       rp 300 = List.replicate 48 (some 300) ∧ 300 = 300 ∧ 300 = 300 ∧ -320 ≤ 300 ∧ 300 < 760 ∧
       (((List.range 48).all fun j => wSupervisionAndErrors5.dev.rdi R.THM_SENS_EXCL j == 0) = true) ∧
       wSupervisionAndErrors5.dev.rd R.THM_STATUS_XCHECK_PHO = 0 ∧
       wSupervisionAndErrors5.dev.rd R.THM_STATUS_XCHECK_PLI = 0 ∧
       wSupervisionAndErrors5.dev.thm.flags = [false, false, false] ∧
       wSupervisionAndErrors5.dev.rd R.THM_STATUS_STATE = 0) ∧
     (4 < 48 ∧ 3 < 5 ∧ 5 < 13 ∧ wSupervisionAndErrors5.dev.running = true ∧ wSupervisionAndErrors5.dev.sq.arm = none ∧
       wSupervisionAndErrors5.dev.sq.staging = none) ∧
     (4 < 48 ∧ 3 < 5 ∧ 5 < 13 ∧ 3 < 4 ∧ wSupervisionAndErrors5.dev.fwReady = true)) ∧
    ((4 < 48 ∧ 3 < 5 ∧ 5 < 13 ∧ wSupervisionAndErrors5.dev.running = true ∧
       wSupervisionAndErrors5.dev.planActive = true) ∧
     (4 < 48 ∧ 3 < 5 ∧ 5 < 13 ∧ 3 < 4 ∧ wSupervisionAndErrors7.dev.fwReady = false) ∧
     (4 < 48 ∧ 3 < 5 ∧ 5 < 13 ∧ (true = true ∧ wSupervisionAndErrors7.dev.ras.merge = true ∧
       wSupervisionAndErrors7.dev.rdi R.RAS_LOG_CLASS ((wSupervisionAndErrors7.dev.rd R.RAS_LOG_WR_NEXT + 255) % 256) = 5 ∧
       wSupervisionAndErrors7.dev.rdi R.RAS_LOG_BLOCK ((wSupervisionAndErrors7.dev.rd R.RAS_LOG_WR_NEXT + 255) % 256) = 6 ∧
       wSupervisionAndErrors7.dev.rdi R.RAS_LOG_CLIENT ((wSupervisionAndErrors7.dev.rd R.RAS_LOG_WR_NEXT + 255) % 256) = 7 ∧
       ∃ b, wSupervisionAndErrors7.dev.ras.newest = some b ∧ wSupervisionAndErrors7.dev.beat < b + 250000)) ∧
     (4 < 48 ∧ 1 < 5 ∧ 5 < 13 ∧ (¬(wSupervisionAndErrors1.dev.pw.vaux = true ∧
       (wSupervisionAndErrors1.dev.railsUp = true ∨ wSupervisionAndErrors1.dev.thm.began = true)))) ∧
     (4 < 48 ∧ 1 < 5 ∧ 5 < 13 ∧ wSupervisionAndErrors1.dev.running = false)) ∧
    ((4 < 48 ∧ 3 < 5 ∧ 5 < 13 ∧ (¬(false = true ∧ wSupervisionAndErrors8.dev.ras.merge = true ∧
       wSupervisionAndErrors8.dev.rdi R.RAS_LOG_CLASS ((wSupervisionAndErrors8.dev.rd R.RAS_LOG_WR_NEXT + 255) % 256) = 5 ∧
       wSupervisionAndErrors8.dev.rdi R.RAS_LOG_BLOCK ((wSupervisionAndErrors8.dev.rd R.RAS_LOG_WR_NEXT + 255) % 256) = 6 ∧
       wSupervisionAndErrors8.dev.rdi R.RAS_LOG_CLIENT ((wSupervisionAndErrors8.dev.rd R.RAS_LOG_WR_NEXT + 255) % 256) = 7 ∧
       ∃ b, wSupervisionAndErrors8.dev.ras.newest = some b ∧ wSupervisionAndErrors8.dev.beat < b + 250000)) ∧
       (wSupervisionAndErrors8.dev.rd R.RAS_LOG_WR_NEXT + 1) % 256 = wSupervisionAndErrors8.dev.rd R.RAS_LOG_RD) ∧
     (4 < 48 ∧ 4 < 5 ∧ 5 < 13 ∧ (wSupervisionAndErrors2.dev.pw.vaux = true ∧
       (wSupervisionAndErrors2.dev.railsUp = true ∨ wSupervisionAndErrors2.dev.thm.began = true)) ∧
       wSupervisionAndErrors2.dev.sensorHere 4 = true ∧ nth none wSupervisionAndErrors3 4 = none ∧
       nth 0 wSupervisionAndErrors2.dev.thm.badRun 4 = 2 ∧ wSupervisionAndErrors2.dev.thm.badRun.length = 48 ∧
       wSupervisionAndErrors2.dev.rdi R.THM_SENS_EXCL 4 = 0 ∧
       wSupervisionAndErrors2.dev.thm.flags = [false, false, false] ∧
       wSupervisionAndErrors2.dev.thm.enter = [0, 0, 0] ∧ wSupervisionAndErrors2.dev.rd R.THM_STATUS_STATE = 0)) ∧
    ((4 < 48 ∧ 3 < 5 ∧ 5 < 13 ∧ (wSupervisionAndErrors4.dev.pw.vaux = true ∧
       (wSupervisionAndErrors4.dev.railsUp = true ∨ wSupervisionAndErrors4.dev.thm.began = true)) ∧
       wSupervisionAndErrors4.dev.running = true ∧ rp 930 = List.replicate 48 (some 930) ∧ 930 = 930 ∧ 930 = 930 ∧
       920 ≤ 930 ∧ 930 ≤ 1200 ∧
       (((List.range 48).all fun j => wSupervisionAndErrors4.dev.rdi R.THM_SENS_EXCL j == 0) = true) ∧
       wSupervisionAndErrors4.dev.rd R.THM_STATUS_XCHECK_PHO = 0 ∧
       wSupervisionAndErrors4.dev.rd R.THM_STATUS_XCHECK_PLI = 0 ∧
       wSupervisionAndErrors4.dev.thm.flags = [true, true, false] ∧ wSupervisionAndErrors4.dev.thm.enter = [0, 0, 7] ∧
       wSupervisionAndErrors4.dev.rd R.THM_STATUS_STATE = 2) ∧
     (4 < 48 ∧ 3 < 5 ∧ 5 < 13 ∧ wSupervisionAndErrors6.dev.running = true ∧
       wSupervisionAndErrors6.dev.sq.arm = some A0 ∧ A0.target = 0 ∧
       wSupervisionAndErrors6.dev.cmd? 0 A0.seqNo = none)) :=
  ⟨by decide +kernel, by decide +kernel, by decide +kernel, by decide +kernel, by decide +kernel⟩

end Supervision

namespace Management

def m20 (f : Bool) : Dev := let d : Dev := {on with beat := 4000000}; if f then (d.wr R.BTP_STATUS_FW_READY 1).wr R.HIF_LINK_DL_UP 1 else d
def rq (l : List Nat) : SmbReq := {payload := l, pecOk := true}
def bd (l : List Nat) : SmbReq := {payload := l, pecOk := false}

def wSmbusRequests1 : State := { dev := on }
def wSmbusRequests2 : Instr := .status (rq [1])
def wSmbusRequests3 : State := { dev := m20 false }
def wSmbusRequests4 : Instr := .identity (rq [1])
def wSmbusRequests5 : State := { dev := m20 true }
def wSmbusRequests6 : Instr := .identity (bd [1])
def wSmbusRequests7 : State := { dev := m20 true }
def wSmbusRequests8 : Instr := .identity (rq [1])
def wSmbusRequests9 : State := { dev := m20 true }
def wSmbusRequests10 : Instr := .status (rq [1])
def wSmbusRequests11 : State := { dev := m20 true }
def wSmbusRequests12 : Instr := .telemetry (rq [1])
def wSmbusRequests13 : State := { dev := m20 true }
def wSmbusRequests14 : Instr := .telemetry (rq [1,2])
def wSmbusRequests15 : State := { dev := m20 true }
def wSmbusRequests16 : Instr := .sensors (rq [1,2])
def wSmbusRequests17 : State := { dev := m20 true }
def wSmbusRequests18 : Instr := .sensors (rq [1,9])
def wSmbusRequests19 : State := { dev := m20 true }
def wSmbusRequests20 : Instr := .errlog (rq [1,9])
def wSmbusRequests21 : State := { dev := (m20 true).rasEvent 3 4 5 6 }
def wSmbusRequests22 : SmbReq := rq [1,12,0]
def wSmbusRequests23 : Instr := .errclr (rq [1,12,0])
def wSmbusRequests24 : State := { dev := m20 true }
def wSmbusRequests25 : Instr := .alertMask (rq [1,9,4])
def wSmbusRequests26 : State := { dev := m20 true }
def wSmbusRequests27 : Instr := .resetDevice (rq [1,9])
def wSmbusRequests28 : State := { dev := m20 true }
def wSmbusRequests29 : Instr := .railRetry (rq [1,7])
def wSmbusRequests30 : State := { dev := m20 true }
def wSmbusRequests31 : Instr := .railRetry (rq [1,2])
def wSmbusRequests32 : State := { dev := (m20 false).wri R.PWR_STATUS_RAIL_FAULT 2 1 }
def wSmbusRequests33 : Instr := .railRetry (rq [1,2])
def wSmbusRequests34 : State := { dev := {m20 true with mgt := {cached := some ⟨6,[1],0,[3]⟩}} |>.wr R.MGT_STATUS_ALERT 1 }
def wSmbusRequests35 : Instr := .identity (rq [1])
def wSmbusRequests36 : State := { dev := {m20 true with pw := {}} }
def wSmbusRequests37 : Instr := .identity (rq [1])

/-- States and operands that meet the hypotheses of each clause of Obligations.SmbusRequests. -/
theorem witness_SmbusRequests :
    (((wSmbusRequests2, 1, 0) ∈ [(Instr.status (rq [1]), 1, 0), (Instr.telemetry (rq [1]), 2, 0), (Instr.sensors (rq [1]), 3, 1), (Instr.errlog (rq [1]), 4, 1), (Instr.errclr (rq [1]), 5, 2), (Instr.identity (rq [1]), 6, 0), (Instr.alertMask (rq [1]), 7, 2), (Instr.resetDevice (rq [1]), 16, 1), (Instr.railRetry (rq [1]), 17, 1)] ∧
       wSmbusRequests1.dev.smbAwake = false) ∧
     ((wSmbusRequests2, 1, 0) ∈ [(Instr.status (rq [1]), 1, 0), (Instr.telemetry (rq [1]), 2, 0), (Instr.sensors (rq [1]), 3, 1), (Instr.errlog (rq [1]), 4, 1), (Instr.errclr (rq [1]), 5, 2), (Instr.identity (rq [1]), 6, 0), (Instr.alertMask (rq [1]), 7, 2), (Instr.resetDevice (rq [1]), 16, 1), (Instr.railRetry (rq [1]), 17, 1)] ∧
       (wSmbusRequests1.dev.smbAwake = false ∨ wSmbusRequests1.dev.rd R.MGT_STATUS_ALERT = 0))) ∧
    (((wSmbusRequests2, 1, 0) ∈ [(Instr.status (rq [1]), 1, 0), (Instr.telemetry (rq [1]), 2, 0), (Instr.sensors (rq [1]), 3, 1), (Instr.errlog (rq [1]), 4, 1), (Instr.errclr (rq [1]), 5, 2), (Instr.identity (rq [1]), 6, 0), (Instr.alertMask (rq [1]), 7, 2), (Instr.resetDevice (rq [1]), 16, 1), (Instr.railRetry (rq [1]), 17, 1)] ∧
       wSmbusRequests1.dev.pw.vaux = true) ∧
     ((wSmbusRequests23, 5, 2) ∈ [(Instr.status wSmbusRequests22, 1, 0), (Instr.telemetry wSmbusRequests22, 2, 0), (Instr.sensors wSmbusRequests22, 3, 1), (Instr.errlog wSmbusRequests22, 4, 1), (Instr.errclr wSmbusRequests22, 5, 2), (Instr.identity wSmbusRequests22, 6, 0), (Instr.alertMask wSmbusRequests22, 7, 2), (Instr.resetDevice wSmbusRequests22, 16, 1), (Instr.railRetry wSmbusRequests22, 17, 1)] ∧
       (((wSmbusRequests21.dev.smbAwake = true ∧ wSmbusRequests21.dev.rd R.MGT_STATUS_PENDING = 0 ∧
       (wSmbusRequests21.dev.fwReady = true ∨ 5 = 1 ∨ 5 = 2 ∨ 5 = 17 ∧
       wSmbusRequests21.dev.word R.PWR_STATUS_RAIL_FAULT ≠ 0)) ∧ wSmbusRequests22.pecOk = true ∧
       wSmbusRequests22.payload ≠ [] ∧
       Option.map (fun r => (r.code, r.payload)) wSmbusRequests21.dev.mgt.cached ≠ some (5, wSmbusRequests22.payload)) ∧
       wSmbusRequests22.payload.length = 2 + 1) ∧ 5 = 5)) ∧
    (((wSmbusRequests23, 5, 2) ∈ [(Instr.status wSmbusRequests22, 1, 0), (Instr.telemetry wSmbusRequests22, 2, 0), (Instr.sensors wSmbusRequests22, 3, 1), (Instr.errlog wSmbusRequests22, 4, 1), (Instr.errclr wSmbusRequests22, 5, 2), (Instr.identity wSmbusRequests22, 6, 0), (Instr.alertMask wSmbusRequests22, 7, 2), (Instr.resetDevice wSmbusRequests22, 16, 1), (Instr.railRetry wSmbusRequests22, 17, 1)] ∧
       wSmbusRequests21.dev.smbAwake = true ∧ wSmbusRequests21.dev.rd R.MGT_STATUS_ALERT = 1) ∧
     ((wSmbusRequests4, 6, 0) ∈ [(Instr.status (rq [1]), 1, 0), (Instr.telemetry (rq [1]), 2, 0), (Instr.sensors (rq [1]), 3, 1), (Instr.errlog (rq [1]), 4, 1), (Instr.errclr (rq [1]), 5, 2), (Instr.identity (rq [1]), 6, 0), (Instr.alertMask (rq [1]), 7, 2), (Instr.resetDevice (rq [1]), 16, 1), (Instr.railRetry (rq [1]), 17, 1)] ∧
       wSmbusRequests3.dev.smbAwake = true ∧ (¬(wSmbusRequests3.dev.smbAwake = true ∧
       wSmbusRequests3.dev.rd R.MGT_STATUS_PENDING = 0 ∧
       (wSmbusRequests3.dev.fwReady = true ∨ 6 = 1 ∨ 6 = 2 ∨ 6 = 17 ∧
       wSmbusRequests3.dev.word R.PWR_STATUS_RAIL_FAULT ≠ 0))))) ∧
    ((wSmbusRequests6, 6, 0) ∈ [(Instr.status (bd [1]), 1, 0), (Instr.telemetry (bd [1]), 2, 0), (Instr.sensors (bd [1]), 3, 1), (Instr.errlog (bd [1]), 4, 1), (Instr.errclr (bd [1]), 5, 2), (Instr.identity (bd [1]), 6, 0), (Instr.alertMask (bd [1]), 7, 2), (Instr.resetDevice (bd [1]), 16, 1), (Instr.railRetry (bd [1]), 17, 1)] ∧
      (wSmbusRequests5.dev.smbAwake = true ∧ wSmbusRequests5.dev.rd R.MGT_STATUS_PENDING = 0 ∧
      (wSmbusRequests5.dev.fwReady = true ∨ 6 = 1 ∨ 6 = 2 ∨ 6 = 17 ∧
      wSmbusRequests5.dev.word R.PWR_STATUS_RAIL_FAULT ≠ 0)) ∧ ((bd [1]).pecOk = false ∨ (bd [1]).payload = [])) ∧
    (((wSmbusRequests8, 6, 0) ∈ [(Instr.status (rq [1]), 1, 0), (Instr.telemetry (rq [1]), 2, 0), (Instr.sensors (rq [1]), 3, 1), (Instr.errlog (rq [1]), 4, 1), (Instr.errclr (rq [1]), 5, 2), (Instr.identity (rq [1]), 6, 0), (Instr.alertMask (rq [1]), 7, 2), (Instr.resetDevice (rq [1]), 16, 1), (Instr.railRetry (rq [1]), 17, 1)] ∧
       (((wSmbusRequests7.dev.smbAwake = true ∧ wSmbusRequests7.dev.rd R.MGT_STATUS_PENDING = 0 ∧
       (wSmbusRequests7.dev.fwReady = true ∨ 6 = 1 ∨ 6 = 2 ∨ 6 = 17 ∧
       wSmbusRequests7.dev.word R.PWR_STATUS_RAIL_FAULT ≠ 0)) ∧ (rq [1]).pecOk = true ∧ (rq [1]).payload ≠ [] ∧
       Option.map (fun r => (r.code, r.payload)) wSmbusRequests7.dev.mgt.cached ≠ some (6, (rq [1]).payload)) ∧
       (rq [1]).payload.length = 0 + 1) ∧ 6 = 6) ∧
     ((wSmbusRequests10, 1, 0) ∈ [(Instr.status (rq [1]), 1, 0), (Instr.telemetry (rq [1]), 2, 0), (Instr.sensors (rq [1]), 3, 1), (Instr.errlog (rq [1]), 4, 1), (Instr.errclr (rq [1]), 5, 2), (Instr.identity (rq [1]), 6, 0), (Instr.alertMask (rq [1]), 7, 2), (Instr.resetDevice (rq [1]), 16, 1), (Instr.railRetry (rq [1]), 17, 1)] ∧
       (((wSmbusRequests9.dev.smbAwake = true ∧ wSmbusRequests9.dev.rd R.MGT_STATUS_PENDING = 0 ∧
       (wSmbusRequests9.dev.fwReady = true ∨ 1 = 1 ∨ 1 = 2 ∨ 1 = 17 ∧
       wSmbusRequests9.dev.word R.PWR_STATUS_RAIL_FAULT ≠ 0)) ∧ (rq [1]).pecOk = true ∧ (rq [1]).payload ≠ [] ∧
       Option.map (fun r => (r.code, r.payload)) wSmbusRequests9.dev.mgt.cached ≠ some (1, (rq [1]).payload)) ∧
       (rq [1]).payload.length = 0 + 1) ∧ 1 = 1)) ∧
    (((wSmbusRequests12, 2, 0) ∈ [(Instr.status (rq [1]), 1, 0), (Instr.telemetry (rq [1]), 2, 0), (Instr.sensors (rq [1]), 3, 1), (Instr.errlog (rq [1]), 4, 1), (Instr.errclr (rq [1]), 5, 2), (Instr.identity (rq [1]), 6, 0), (Instr.alertMask (rq [1]), 7, 2), (Instr.resetDevice (rq [1]), 16, 1), (Instr.railRetry (rq [1]), 17, 1)] ∧
       (((wSmbusRequests11.dev.smbAwake = true ∧ wSmbusRequests11.dev.rd R.MGT_STATUS_PENDING = 0 ∧
       (wSmbusRequests11.dev.fwReady = true ∨ 2 = 1 ∨ 2 = 2 ∨ 2 = 17 ∧
       wSmbusRequests11.dev.word R.PWR_STATUS_RAIL_FAULT ≠ 0)) ∧ (rq [1]).pecOk = true ∧ (rq [1]).payload ≠ [] ∧
       Option.map (fun r => (r.code, r.payload)) wSmbusRequests11.dev.mgt.cached ≠ some (2, (rq [1]).payload)) ∧
       (rq [1]).payload.length = 0 + 1) ∧ 2 = 2) ∧
     ((wSmbusRequests14, 2, 0) ∈ [(Instr.status (rq [1, 2]), 1, 0), (Instr.telemetry (rq [1, 2]), 2, 0), (Instr.sensors (rq [1, 2]), 3, 1), (Instr.errlog (rq [1, 2]), 4, 1), (Instr.errclr (rq [1, 2]), 5, 2), (Instr.identity (rq [1, 2]), 6, 0), (Instr.alertMask (rq [1, 2]), 7, 2), (Instr.resetDevice (rq [1, 2]), 16, 1), (Instr.railRetry (rq [1, 2]), 17, 1)] ∧
       ((wSmbusRequests13.dev.smbAwake = true ∧ wSmbusRequests13.dev.rd R.MGT_STATUS_PENDING = 0 ∧
       (wSmbusRequests13.dev.fwReady = true ∨ 2 = 1 ∨ 2 = 2 ∨ 2 = 17 ∧
       wSmbusRequests13.dev.word R.PWR_STATUS_RAIL_FAULT ≠ 0)) ∧ (rq [1, 2]).pecOk = true ∧ (rq [1, 2]).payload ≠ [] ∧
       Option.map (fun r => (r.code, r.payload)) wSmbusRequests13.dev.mgt.cached ≠ some (2, (rq [1, 2]).payload)) ∧
       (rq [1, 2]).payload.length ≠ 0 + 1)) ∧
    ((wSmbusRequests16, 3, 1) ∈ [(Instr.status (rq [1, 2]), 1, 0), (Instr.telemetry (rq [1, 2]), 2, 0), (Instr.sensors (rq [1, 2]), 3, 1), (Instr.errlog (rq [1, 2]), 4, 1), (Instr.errclr (rq [1, 2]), 5, 2), (Instr.identity (rq [1, 2]), 6, 0), (Instr.alertMask (rq [1, 2]), 7, 2), (Instr.resetDevice (rq [1, 2]), 16, 1), (Instr.railRetry (rq [1, 2]), 17, 1)] ∧
      (((wSmbusRequests15.dev.smbAwake = true ∧ wSmbusRequests15.dev.rd R.MGT_STATUS_PENDING = 0 ∧
      (wSmbusRequests15.dev.fwReady = true ∨ 3 = 1 ∨ 3 = 2 ∨ 3 = 17 ∧
      wSmbusRequests15.dev.word R.PWR_STATUS_RAIL_FAULT ≠ 0)) ∧ (rq [1, 2]).pecOk = true ∧ (rq [1, 2]).payload ≠ [] ∧
      Option.map (fun r => (r.code, r.payload)) wSmbusRequests15.dev.mgt.cached ≠ some (3, (rq [1, 2]).payload)) ∧
      (rq [1, 2]).payload.length = 1 + 1) ∧ 3 = 3 ∧ u8 (List.drop 1 (rq [1, 2]).payload) 0 < 4) ∧
    ((wSmbusRequests18, 3, 1) ∈ [(Instr.status (rq [1, 9]), 1, 0), (Instr.telemetry (rq [1, 9]), 2, 0), (Instr.sensors (rq [1, 9]), 3, 1), (Instr.errlog (rq [1, 9]), 4, 1), (Instr.errclr (rq [1, 9]), 5, 2), (Instr.identity (rq [1, 9]), 6, 0), (Instr.alertMask (rq [1, 9]), 7, 2), (Instr.resetDevice (rq [1, 9]), 16, 1), (Instr.railRetry (rq [1, 9]), 17, 1)] ∧
      (((wSmbusRequests17.dev.smbAwake = true ∧ wSmbusRequests17.dev.rd R.MGT_STATUS_PENDING = 0 ∧
      (wSmbusRequests17.dev.fwReady = true ∨ 3 = 1 ∨ 3 = 2 ∨ 3 = 17 ∧
      wSmbusRequests17.dev.word R.PWR_STATUS_RAIL_FAULT ≠ 0)) ∧ (rq [1, 9]).pecOk = true ∧ (rq [1, 9]).payload ≠ [] ∧
      Option.map (fun r => (r.code, r.payload)) wSmbusRequests17.dev.mgt.cached ≠ some (3, (rq [1, 9]).payload)) ∧
      (rq [1, 9]).payload.length = 1 + 1) ∧ 3 = 3 ∧ 4 ≤ u8 (List.drop 1 (rq [1, 9]).payload) 0) ∧
    (((wSmbusRequests20, 4, 1) ∈ [(Instr.status (rq [1, 9]), 1, 0), (Instr.telemetry (rq [1, 9]), 2, 0), (Instr.sensors (rq [1, 9]), 3, 1), (Instr.errlog (rq [1, 9]), 4, 1), (Instr.errclr (rq [1, 9]), 5, 2), (Instr.identity (rq [1, 9]), 6, 0), (Instr.alertMask (rq [1, 9]), 7, 2), (Instr.resetDevice (rq [1, 9]), 16, 1), (Instr.railRetry (rq [1, 9]), 17, 1)] ∧
       (((wSmbusRequests19.dev.smbAwake = true ∧ wSmbusRequests19.dev.rd R.MGT_STATUS_PENDING = 0 ∧
       (wSmbusRequests19.dev.fwReady = true ∨ 4 = 1 ∨ 4 = 2 ∨ 4 = 17 ∧
       wSmbusRequests19.dev.word R.PWR_STATUS_RAIL_FAULT ≠ 0)) ∧ (rq [1, 9]).pecOk = true ∧ (rq [1, 9]).payload ≠ [] ∧
       Option.map (fun r => (r.code, r.payload)) wSmbusRequests19.dev.mgt.cached ≠ some (4, (rq [1, 9]).payload)) ∧
       (rq [1, 9]).payload.length = 1 + 1) ∧ 4 = 4) ∧
     ((wSmbusRequests25, 7, 2) ∈ [(Instr.status (rq [1, 9, 4]), 1, 0), (Instr.telemetry (rq [1, 9, 4]), 2, 0), (Instr.sensors (rq [1, 9, 4]), 3, 1), (Instr.errlog (rq [1, 9, 4]), 4, 1), (Instr.errclr (rq [1, 9, 4]), 5, 2), (Instr.identity (rq [1, 9, 4]), 6, 0), (Instr.alertMask (rq [1, 9, 4]), 7, 2), (Instr.resetDevice (rq [1, 9, 4]), 16, 1), (Instr.railRetry (rq [1, 9, 4]), 17, 1)] ∧
       (((wSmbusRequests24.dev.smbAwake = true ∧ wSmbusRequests24.dev.rd R.MGT_STATUS_PENDING = 0 ∧
       (wSmbusRequests24.dev.fwReady = true ∨ 7 = 1 ∨ 7 = 2 ∨ 7 = 17 ∧
       wSmbusRequests24.dev.word R.PWR_STATUS_RAIL_FAULT ≠ 0)) ∧ (rq [1, 9, 4]).pecOk = true ∧
       (rq [1, 9, 4]).payload ≠ [] ∧
       Option.map (fun r => (r.code, r.payload)) wSmbusRequests24.dev.mgt.cached ≠ some (7, (rq [1, 9, 4]).payload)) ∧
       (rq [1, 9, 4]).payload.length = 2 + 1) ∧ 7 = 7)) ∧
    ((wSmbusRequests27, 16, 1) ∈ [(Instr.status (rq [1, 9]), 1, 0), (Instr.telemetry (rq [1, 9]), 2, 0), (Instr.sensors (rq [1, 9]), 3, 1), (Instr.errlog (rq [1, 9]), 4, 1), (Instr.errclr (rq [1, 9]), 5, 2), (Instr.identity (rq [1, 9]), 6, 0), (Instr.alertMask (rq [1, 9]), 7, 2), (Instr.resetDevice (rq [1, 9]), 16, 1), (Instr.railRetry (rq [1, 9]), 17, 1)] ∧
      (((wSmbusRequests26.dev.smbAwake = true ∧ wSmbusRequests26.dev.rd R.MGT_STATUS_PENDING = 0 ∧
      (wSmbusRequests26.dev.fwReady = true ∨ 16 = 1 ∨ 16 = 2 ∨ 16 = 17 ∧
      wSmbusRequests26.dev.word R.PWR_STATUS_RAIL_FAULT ≠ 0)) ∧ (rq [1, 9]).pecOk = true ∧ (rq [1, 9]).payload ≠ [] ∧
      Option.map (fun r => (r.code, r.payload)) wSmbusRequests26.dev.mgt.cached ≠ some (16, (rq [1, 9]).payload)) ∧
      (rq [1, 9]).payload.length = 1 + 1) ∧ 16 = 16) ∧
    ((wSmbusRequests29, 17, 1) ∈ [(Instr.status (rq [1, 7]), 1, 0), (Instr.telemetry (rq [1, 7]), 2, 0), (Instr.sensors (rq [1, 7]), 3, 1), (Instr.errlog (rq [1, 7]), 4, 1), (Instr.errclr (rq [1, 7]), 5, 2), (Instr.identity (rq [1, 7]), 6, 0), (Instr.alertMask (rq [1, 7]), 7, 2), (Instr.resetDevice (rq [1, 7]), 16, 1), (Instr.railRetry (rq [1, 7]), 17, 1)] ∧
      (((wSmbusRequests28.dev.smbAwake = true ∧ wSmbusRequests28.dev.rd R.MGT_STATUS_PENDING = 0 ∧
      (wSmbusRequests28.dev.fwReady = true ∨ 17 = 1 ∨ 17 = 2 ∨ 17 = 17 ∧
      wSmbusRequests28.dev.word R.PWR_STATUS_RAIL_FAULT ≠ 0)) ∧ (rq [1, 7]).pecOk = true ∧ (rq [1, 7]).payload ≠ [] ∧
      Option.map (fun r => (r.code, r.payload)) wSmbusRequests28.dev.mgt.cached ≠ some (17, (rq [1, 7]).payload)) ∧
      (rq [1, 7]).payload.length = 1 + 1) ∧ 17 = 17 ∧ 4 ≤ u8 (List.drop 1 (rq [1, 7]).payload) 0) ∧
    ((wSmbusRequests31, 17, 1) ∈ [(Instr.status (rq [1, 2]), 1, 0), (Instr.telemetry (rq [1, 2]), 2, 0), (Instr.sensors (rq [1, 2]), 3, 1), (Instr.errlog (rq [1, 2]), 4, 1), (Instr.errclr (rq [1, 2]), 5, 2), (Instr.identity (rq [1, 2]), 6, 0), (Instr.alertMask (rq [1, 2]), 7, 2), (Instr.resetDevice (rq [1, 2]), 16, 1), (Instr.railRetry (rq [1, 2]), 17, 1)] ∧
      (((wSmbusRequests30.dev.smbAwake = true ∧ wSmbusRequests30.dev.rd R.MGT_STATUS_PENDING = 0 ∧
      (wSmbusRequests30.dev.fwReady = true ∨ 17 = 1 ∨ 17 = 2 ∨ 17 = 17 ∧
      wSmbusRequests30.dev.word R.PWR_STATUS_RAIL_FAULT ≠ 0)) ∧ (rq [1, 2]).pecOk = true ∧ (rq [1, 2]).payload ≠ [] ∧
      Option.map (fun r => (r.code, r.payload)) wSmbusRequests30.dev.mgt.cached ≠ some (17, (rq [1, 2]).payload)) ∧
      (rq [1, 2]).payload.length = 1 + 1) ∧ 17 = 17 ∧ u8 (List.drop 1 (rq [1, 2]).payload) 0 < 4 ∧
      wSmbusRequests30.dev.rdi R.PWR_STATUS_RAIL_FAULT (u8 (List.drop 1 (rq [1, 2]).payload) 0) = 0) ∧
    ((wSmbusRequests33, 17, 1) ∈ [(Instr.status (rq [1, 2]), 1, 0), (Instr.telemetry (rq [1, 2]), 2, 0), (Instr.sensors (rq [1, 2]), 3, 1), (Instr.errlog (rq [1, 2]), 4, 1), (Instr.errclr (rq [1, 2]), 5, 2), (Instr.identity (rq [1, 2]), 6, 0), (Instr.alertMask (rq [1, 2]), 7, 2), (Instr.resetDevice (rq [1, 2]), 16, 1), (Instr.railRetry (rq [1, 2]), 17, 1)] ∧
      (((wSmbusRequests32.dev.smbAwake = true ∧ wSmbusRequests32.dev.rd R.MGT_STATUS_PENDING = 0 ∧
      (wSmbusRequests32.dev.fwReady = true ∨ 17 = 1 ∨ 17 = 2 ∨ 17 = 17 ∧
      wSmbusRequests32.dev.word R.PWR_STATUS_RAIL_FAULT ≠ 0)) ∧ (rq [1, 2]).pecOk = true ∧ (rq [1, 2]).payload ≠ [] ∧
      Option.map (fun r => (r.code, r.payload)) wSmbusRequests32.dev.mgt.cached ≠ some (17, (rq [1, 2]).payload)) ∧
      (rq [1, 2]).payload.length = 1 + 1) ∧ 17 = 17 ∧ u8 (List.drop 1 (rq [1, 2]).payload) 0 < 4 ∧
      wSmbusRequests32.dev.rdi R.PWR_STATUS_RAIL_FAULT (u8 (List.drop 1 (rq [1, 2]).payload) 0) = 1) ∧
    (((wSmbusRequests35, 6, 0) ∈ [(Instr.status (rq [1]), 1, 0), (Instr.telemetry (rq [1]), 2, 0), (Instr.sensors (rq [1]), 3, 1), (Instr.errlog (rq [1]), 4, 1), (Instr.errclr (rq [1]), 5, 2), (Instr.identity (rq [1]), 6, 0), (Instr.alertMask (rq [1]), 7, 2), (Instr.resetDevice (rq [1]), 16, 1), (Instr.railRetry (rq [1]), 17, 1)] ∧
       (wSmbusRequests34.dev.smbAwake = true ∧ wSmbusRequests34.dev.rd R.MGT_STATUS_PENDING = 0 ∧
       (wSmbusRequests34.dev.fwReady = true ∨ 6 = 1 ∨ 6 = 2 ∨ 6 = 17 ∧
       wSmbusRequests34.dev.word R.PWR_STATUS_RAIL_FAULT ≠ 0)) ∧ (rq [1]).pecOk = true ∧ (rq [1]).payload ≠ [] ∧
       (Option.map (fun r => (r.code, r.payload)) wSmbusRequests34.dev.mgt.cached = some (6, (rq [1]).payload))) ∧
     ((wSmbusRequests37, 6, 0) ∈ [(Instr.status (rq [1]), 1, 0), (Instr.telemetry (rq [1]), 2, 0), (Instr.sensors (rq [1]), 3, 1), (Instr.errlog (rq [1]), 4, 1), (Instr.errclr (rq [1]), 5, 2), (Instr.identity (rq [1]), 6, 0), (Instr.alertMask (rq [1]), 7, 2), (Instr.resetDevice (rq [1]), 16, 1), (Instr.railRetry (rq [1]), 17, 1)] ∧
       wSmbusRequests36.dev.pw.vaux = false)) :=
  ⟨by decide +kernel, by decide +kernel, by decide +kernel, by decide +kernel, by decide +kernel, by decide +kernel, by decide +kernel, by decide +kernel, by decide +kernel, by decide +kernel, by decide +kernel, by decide +kernel, by decide +kernel, by decide +kernel⟩

end Management

namespace DebugAccess

def g21 : Dev := (on.wr R.MGT_DBG_SCOPE 2)
def p21 : Dev := (on.wr R.HIF_LINK_DL_UP 1).setFn 0 {mse := true}

def wDebugPort1 : State := { dev := on }
def wDebugPort2 : State := { dev := on.wr R.SEQ_STATUS_ACTIVE 1 }
def wDebugPort3 : State := { dev := on.wr R.MGT_DBG_LOCKOUT 1 }
def wDebugPort4 : State := { dev := g21 }
def wDebugPort5 : State := { dev := g21.wr R.MGT_DBG_HALTED 2 }
def wDebugPort6 : State := { dev := g21 }
def wDebugPort7 : Nat := 2^63 + 0x24001 * 2^32 + 7
def wRegisterAccess1 : State := { dev := on }
def wRegisterAccess2 : State := { dev := p21 }
def wRegisterAccess3 : State := { dev := p21 }
def wRegisterAccess4 : State := { dev := p21 }
def wRegisterAccess5 : State := { dev := p21 }
def wRegisterAccess6 : State := { dev := p21 }
def wRegisterAccess7 : State := { dev := p21 }
def wRegisterAccess8 : State := { dev := {p21 with armWrite := some (100, 0x24001)} }
def wRegisterAccess9 : State := { dev := p21 }
def wRegisterAccess10 : State := { dev := p21 }
def wRegisterAccess11 : State := { dev := {p21 with rst := {asserted := [.pin]}} |>.wr R.RST_CAUSE 15 }
def wRegisterAccess12 : State := { dev := {(p21.wr R.RAS_SUM 15) with ras := {sumAt := 100, sumBits := 2}} }

/-- States and operands that meet the hypotheses of each clause of Obligations.DebugPort. -/
theorem witness_DebugPort :
    ((3 ≤ 3 ∧ 3 ≤ 5 ∧ wDebugPort1.dev.planActive = false) ∧
     (wDebugPort1.dev.rd R.MGT_DBG_LOCKOUT = 0) ∧
     (wDebugPort1.dev.rd R.MGT_DBG_SCOPE = 0) ∧
     (119 ∉ [3, 4, 5, 32]) ∧
     (wDebugPort4.dev.rd R.MGT_DBG_SCOPE ≠ 0 ∧ wDebugPort4.dev.running = true ∧ bitAt 5 63 = false ∧
       isHi (4 * bits 5 32 22) = false ∧ isHi (4 * bits 5 32 22 + 4) = false ∧ 4 * bits 5 32 22 ≠ 917512 ∧
       4 * bits 5 32 22 < 1507328 ∧ wDebugPort4.dev.blkAnswers (4 * bits 5 32 22) = true) ∧
     (wDebugPort4.dev.rd R.MGT_DBG_SCOPE = 2 ∧ bitAt 5 2 = true ∧ bitAt 5 3 = false) ∧
     (3 ≤ 4 ∧ 4 ≤ 5 ∧ wDebugPort2.dev.planActive = true) ∧
     (wDebugPort3.dev.rd R.MGT_DBG_LOCKOUT = 1) ∧
     (wDebugPort5.dev.rd R.MGT_DBG_SCOPE = 2 ∧ bitAt 9 2 = false ∧ bitAt 9 3 = true)) ∧
    (wDebugPort6.dev.rd R.MGT_DBG_SCOPE ≠ 0 ∧ wDebugPort6.dev.running = true ∧ bitAt wDebugPort7 63 = true ∧
      4 * bits wDebugPort7 32 22 = 589828 ∧ wDebugPort6.dev.inReset 3 = false ∧
      wDebugPort6.dev.blkAnswers 589828 = true ∧ wDebugPort6.dev.lostWrite 589828 = false) :=
  ⟨by decide +kernel, by decide +kernel⟩

/-- States and operands that meet the hypotheses of each clause of Obligations.RegisterAccess. -/
theorem witness_RegisterAccess :
    ((589828 < 2 ^ 40 ∧ wRegisterAccess1.dev.hears Master.pf = false) ∧
     (589828 < 2 ^ 40 ∧ wRegisterAccess2.dev.hears Master.pf = true ∧
       wRegisterAccess2.dev.reaches Master.pf 589828 = true ∧ Master.pf = Master.pf ∧
       masterNamed Master.pf 589828 = true ∧ 4 = 4 ∧ 589828 % 4 = 0 ∧ wRegisterAccess2.dev.blkAnswers 589828 = true ∧
       isHi 589828 = false ∧ isHi (589828 + 4) = false ∧ 589828 ≠ 917512) ∧
     (589828 < 2 ^ 40 ∧ wRegisterAccess2.dev.hears Master.pf = true ∧
       wRegisterAccess2.dev.reaches Master.pf 589828 = true ∧ Master.pf = Master.pf ∧ 589828 = 589828 ∧ 4 = 4 ∧
       wRegisterAccess2.dev.blkAnswers 589828 = true ∧ wRegisterAccess2.dev.blockHeld 589828 = false ∧
       wRegisterAccess2.dev.lostWrite 589828 = false) ∧
     (589829 < 2 ^ 40 ∧ wRegisterAccess3.dev.hears Master.pf = true ∧
       wRegisterAccess3.dev.reaches Master.pf 589829 = true ∧ masterNamed Master.pf 589829 = true ∧ ¬(4 = 4 ∧
       589829 % 4 = 0) ∧ ¬(4 = 8 ∧ 589829 % 8 = 0))) ∧
    ((1572864 < 2 ^ 40 ∧ wRegisterAccess4.dev.hears Master.pf = true ∧
       wRegisterAccess4.dev.reaches Master.pf 1572864 = true ∧ masterNamed Master.pf 1572864 = false) ∧
     (5242880 < 2 ^ 40 ∧ wRegisterAccess5.dev.hears Master.pf = true ∧
       wRegisterAccess5.dev.reaches Master.pf 5242880 = false ∧ onLink Master.pf = true) ∧
     (393264 < 2 ^ 40 ∧ wRegisterAccess6.dev.hears Master.pf = true ∧
       wRegisterAccess6.dev.reaches Master.pf 393264 = true ∧ Master.pf = Master.pf ∧
       masterNamed Master.pf 393264 = true ∧ 4 = 4 ∧ 393264 % 4 = 0 ∧ wRegisterAccess6.dev.blkAnswers 393264 = true ∧
       isHi 393264 = false ∧ isHi (393264 + 4) = true) ∧
     (393268 < 2 ^ 40 ∧ wRegisterAccess7.dev.hears Master.pf = true ∧
       wRegisterAccess7.dev.reaches Master.pf 393268 = true ∧ Master.pf = Master.pf ∧
       masterNamed Master.pf 393268 = true ∧ 4 = 4 ∧ 393268 % 4 = 0 ∧ wRegisterAccess7.dev.blkAnswers 393268 = true ∧
       isHi 393268 = true)) ∧
    ((589828 < 2 ^ 40 ∧ wRegisterAccess8.dev.hears Master.pf = true ∧
       wRegisterAccess8.dev.reaches Master.pf 589828 = true ∧ Master.pf = Master.pf ∧ 589828 = 589828 ∧ 4 = 4 ∧
       wRegisterAccess8.dev.blkAnswers 589828 = true ∧ wRegisterAccess8.dev.blockHeld 589828 = false ∧
       wRegisterAccess8.dev.lostWrite 589828 = true) ∧
     (917504 < 2 ^ 40 ∧ wRegisterAccess9.dev.hears Master.pf = true ∧ Master.pf = Master.pf ∧ 917504 < 1507328 ∧
       snapOffset (917504 / 65536) = some (917504 % 65536) ∧ 917504 ≠ 393280 ∧
       wRegisterAccess9.dev.blkAnswers 917504 = true ∧ wRegisterAccess9.dev.blockHeld 917504 = false ∧
       wRegisterAccess9.dev.lostWrite 917504 = false ∧ bitAt 1 0 = true) ∧
     (917504 < 2 ^ 40 ∧ wRegisterAccess10.dev.hears Master.pf = true ∧ Master.pf = Master.pf ∧ 917504 < 1507328 ∧
       snapOffset (917504 / 65536) = some (917504 % 65536) ∧ 917504 ≠ 393280 ∧
       wRegisterAccess10.dev.blkAnswers 917504 = true ∧ wRegisterAccess10.dev.blockHeld 917504 = false ∧
       wRegisterAccess10.dev.lostWrite 917504 = false ∧ bitAt 0 0 = false)) ∧
    ((65536 < 2 ^ 40 ∧ wRegisterAccess11.dev.hears Master.pf = true ∧ Master.pf = Master.pf ∧ 65536 = 65536 ∧
       wRegisterAccess11.dev.blkAnswers 65536 = true ∧ wRegisterAccess11.dev.blockHeld 65536 = false ∧
       wRegisterAccess11.dev.lostWrite 65536 = false) ∧
     (1376256 < 2 ^ 40 ∧ wRegisterAccess12.dev.hears Master.pf = true ∧ Master.pf = Master.pf ∧ 1376256 = 1376256 ∧
       wRegisterAccess12.dev.blkAnswers 1376256 = true ∧ wRegisterAccess12.dev.blockHeld 1376256 = false ∧
       wRegisterAccess12.dev.lostWrite 1376256 = false)) :=
  ⟨by decide +kernel, by decide +kernel, by decide +kernel, by decide +kernel⟩

end DebugAccess

end Sys2Proof.Tests
end

section
/-!
PROOFS. Register accesses: bits of words, the way of a write through the gate, and what the accessors of a register do.
-/

namespace Sys2Proof.Machine

/-! ### Bits of words -/

theorem bitAt_eq_testBit (v i : Nat) : bitAt v i = v.testBit i := by
  simp [bitAt, bits, Nat.testBit_eq_decide_div_mod_eq, Nat.shiftRight_eq_div_pow]

/-- Setting or clearing a bit changes that bit alone. -/
theorem bitAt_putBit (v i j : Nat) (b : Bool) : bitAt (putBit v i b) j = if j = i then b else bitAt v j := by
  have hlow : v % 2 ^ i < 2 ^ i := Nat.mod_lt _ (Nat.two_pow_pos _)
  have hsplit : putBit v i b = 2 ^ i * (2 * (v >>> (i + 1)) + b2n b) + v % 2 ^ i := by
    have hb : b2n b % 2 ^ 1 = b2n b := by cases b <;> rfl
    rw [putBit, putBits, hb]; ring
  simp only [bitAt_eq_testBit]
  rcases Nat.lt_trichotomy j i with hj | rfl | hj
  · rw [hsplit, Nat.testBit_two_pow_mul_add _ hlow, if_pos hj, if_neg hj.ne, Nat.testBit_mod_two_pow]
    simp [hj]
  · rw [hsplit, Nat.testBit_two_pow_mul_add _ hlow]
    cases b <;> simp [b2n]
  · rw [if_neg hj.ne', putBit, testBit_putBits_ge _ _ _ _ _ hj]

/-- A word built bit by bit has the bits that it was built of. -/
theorem bitAt_foldl_putBit (p : Nat → Bool) (n j : Nat) :
    bitAt ((List.range n).foldl (fun x i => putBit x i (p i)) 0) j = (decide (j < n) && p j) := by
  induction n with
  | zero => simp [bitAt_eq_testBit]
  | succ n ih =>
    rw [List.range_succ, List.foldl_append, List.foldl_cons, List.foldl_nil, bitAt_putBit, ih]
    by_cases hj : j = n
    · simp [hj]
    · have hlt : j < n + 1 ↔ j < n := by omega
      simp [hj, hlt]

/-- A field written with a word built bit by bit reads back those bits. -/
theorem Dev.bitAt_rdi_wri_foldl (d : Dev) (f : Fld) (i : Nat) (p : Nat → Bool) {j : Nat} (hj : j < f.w) :
    bitAt ((d.wri f i ((List.range f.w).foldl (fun x k => putBit x k (p k)) 0)).rdi f i) j = p j := by
  have hbit := bitAt_foldl_putBit p f.w j
  rw [bitAt_eq_testBit] at hbit ⊢
  rw [Dev.rdi_wri_same, Nat.testBit_mod_two_pow, hbit]
  simp [hj]

theorem putBits_zero_mod (v w x : Nat) : putBits v 0 w x % 2 ^ w = x % 2 ^ w := by
  simp [putBits, Nat.mod_one]

/-! ### The way of a request of the PF to PF BAR0 -/

theorem Dev.hears_running {d : Dev} {m : Master} (h : d.hears m = true) : d.running = true :=
  (Bool.and_eq_true_iff.mp h).1

/-- The PF's write takes the gate to the register when its block is out of reset and no Armature write wins. -/
theorem Dev.write32_pf {d : Dev} {a : Nat} (v : Nat) (hr : d.running = true) (hb : d.blkAnswers a = true)
    (hh : d.blockHeld a = false) (hl : d.lostWrite a = false) : d.write32 .pf a v = d.writeWord .pf a v := by
  simp [Dev.write32, Dev.gated, masterVf, masterHost, hr, hb, hh, hl]

/-- An Armature write of the same register in the same beat wins over the PF's (R17). -/
theorem Dev.write32_pf_lost {d : Dev} {a : Nat} (v : Nat) (hr : d.running = true) (hb : d.blkAnswers a = true)
    (hh : d.blockHeld a = false) (hl : d.lostWrite a = true) :
    d.write32 .pf a v = d.rasEvent 2 (blockOf a) 0 a := by
  simp [Dev.write32, Dev.gated, masterVf, masterHost, masterClient, hr, hb, hh, hl]

/-! ### Sizes -/

theorem sizeOk_iff (a size : Nat) : sizeOk a size = true ↔ (size = 4 ∧ a % 4 = 0) ∨ (size = 8 ∧ a % 8 = 0) := by
  simp [sizeOk]

theorem sizeOk_eq_false_iff (a size : Nat) :
    sizeOk a size = false ↔ ¬(size = 4 ∧ a % 4 = 0) ∧ ¬(size = 8 ∧ a % 8 = 0) := by
  rw [← Bool.not_eq_true, sizeOk_iff, not_or]

/-! ### Register writes -/

section Write

variable {d : Dev} {m : Master} {a : Nat}

theorem registerWrite_unheard (size v : Nat) (ha : a < cfgBase) (h : d.hears m = false) :
    registerWrite m a size v d = d := by
  simp [registerWrite, Nat.not_le.mpr ha, h]

/-- A write that its BAR takes goes to the register. -/
theorem registerWrite_reached (size v : Nat) (ha : a < cfgBase) (hits : d.hears m = true ∧ d.reaches m a = true) :
    registerWrite m a size v d = d.writeReg m a size v := by
  simp [registerWrite, Nat.not_le.mpr ha, hits]

/-- A write by the link that no BAR takes is answered (R603). -/
theorem registerWrite_noBar (size v : Nat) (ha : a < cfgBase) (hh : d.hears m = true) (hr : d.reaches m a = false)
    (hl : onLink m = true) : registerWrite m a size v d = d.answerUr (urFn m a) [] := by
  simp [registerWrite, Nat.not_le.mpr ha, hh, hr, hl]

theorem Dev.writeReg_unnamed (size v : Nat) (h : masterNamed m a = false) : d.writeReg m a size v = d := by
  simp [Dev.writeReg, h]

theorem Dev.writeReg_badSize {size : Nat} (v : Nat) (hn : masterNamed m a = true) (hs : sizeOk a size = false) :
    d.writeReg m a size v = d.sizeError m a := by
  simp [Dev.writeReg, hn, hs]

theorem Dev.writeReg_word (v : Nat) (hn : masterNamed m a = true) (ha : a % 4 = 0) :
    d.writeReg m a 4 v = d.write32 m a v := by
  simp [Dev.writeReg, hn, sizeOk, ha]

end Write

/-! ### Register reads -/

section Read

variable {d : Dev} {m : Master} {a : Nat}

theorem registerRead_unheard (size : Nat) (h : d.hears m = false) : registerRead m a size d = d := by
  simp [registerRead, h]

/-- A read that its BAR takes returns the register's value. -/
theorem registerRead_reached (size : Nat) (hits : d.hears m = true ∧ d.reaches m a = true) :
    registerRead m a size d = (d.readValue m a size).2.emit (.readData (d.readValue m a size).1 size) := by
  simp [registerRead, hits]

/-- A read by the link that no BAR takes is answered (R603). -/
theorem registerRead_noBar (size : Nat) (hh : d.hears m = true) (hr : d.reaches m a = false) (hl : onLink m = true) :
    registerRead m a size d = d.answerUr (urFn m a) [] := by
  simp [registerRead, hh, hr, hl]

theorem Dev.readValue_unnamed (size : Nat) (h : masterNamed m a = false) : d.readValue m a size = (0, d) := by
  simp [Dev.readValue, h]

theorem Dev.readSized_badSize {size : Nat} (seen : Nat → Nat) (hi : Nat → Bool) (err : Dev → Dev)
    (hs : sizeOk a size = false) : d.readSized m seen hi a size err = (2 ^ (8 * size) - 1, err d) := by
  obtain ⟨h4, h8⟩ := (sizeOk_eq_false_iff a size).mp hs
  rw [Dev.readSized, if_neg h4, if_neg h8]

/-- A read of a size or alignment that R9 does not support returns all ones and is an access error (R10). -/
theorem Dev.readValue_badSize {size : Nat} (hn : masterNamed m a = true) (hs : sizeOk a size = false) :
    d.readValue m a size = (2 ^ (8 * size) - 1, d.sizeError m a) := by
  simp only [Dev.readValue, hn, hs, Bool.not_true, Bool.false_and, Bool.false_eq_true, if_false]
  cases m <;> simp only [Dev.readReg, Dev.sizeError, Dev.readSized_badSize _ _ _ hs]

/-- The PF's 32-bit read of a block that answers is a read of the word. -/
theorem Dev.readValue_pf_word (hn : masterNamed .pf a = true) (ha : a % 4 = 0) (hb : d.blkAnswers a = true) :
    d.readValue .pf a 4 = d.read32 .pf d.seenWord isHi a := by
  simp [Dev.readValue, hn, hb, Dev.readReg, Dev.readSized, ha]

variable (seen : Nat → Nat) {hi : Nat → Bool}

/-- A _HI word reads the master's shadow (R12). -/
theorem Dev.read32_hi (h : hi a = true) : d.read32 m seen hi a = (sget 0 d.hi (hiKey m a), d) := by
  simp [Dev.read32, h]

theorem Dev.read32_plain (h : hi a = false) (h' : hi (a + 4) = false) (hf : a ≠ 0xE0008) :
    d.read32 m seen hi a = (seen a, d) := by
  simp [Dev.read32, h, h', hf]

/-- A _LO word reads as it is found and leaves its _HI word in the master's shadow (R11); reads take no time. -/
theorem Dev.read32_lo (h : hi a = false) (h' : hi (a + 4) = true) :
    (d.read32 m seen hi a).1 = seen a ∧
    sget 0 (d.read32 m seen hi a).2.hi (hiKey m (a + 4)) = seen (a + 4) ∧
    (d.read32 m seen hi a).2.out = d.out ∧ (d.read32 m seen hi a).2.beat = d.beat ∧
    (d.read32 m seen hi a).2.mem = d.mem := by
  simp only [Dev.read32, h, h', if_true, Bool.false_eq_true, if_false]
  split <;> simp

end Read

/-! ### Words with W1C bits, SNAP words and CAL_PAGE -/

theorem fieldsAt_CAL_PAGE : fieldsAt pfFields 0x90004 = [R.CAL_PAGE] := by decide +kernel

/-- A write gives a field the low bits of its value alone. -/
theorem Dev.wri_congr (d : Dev) (f : Fld) (i : Nat) {v x : Nat} (h : v % 2 ^ f.w = x % 2 ^ f.w) :
    d.wri f i v = d.wri f i x := by
  rw [Dev.wri, h, Dev.wri]

/-- CAL_PAGE has no rule of its own: a write gives it the word's low bits. -/
theorem Dev.writeWord_CAL_PAGE (d : Dev) (m : Master) (v : Nat) : d.writeWord m 0x90004 v = d.wri R.CAL_PAGE 0 v := by
  have hplain : d.writeWord m 0x90004 v = d.plainWord m 0x90004 v := by simp [Dev.writeWord, inPage0, snapOffset]
  have helem : R.CAL_PAGE.elems (8 * 0x90004) = [0] := by decide
  have hput : d.putElem R.CAL_PAGE R.CAL_PAGE (8 * 0x90004) v 0 =
      d.wri R.CAL_PAGE 0 (putBits (d.rdi R.CAL_PAGE 0) 0 4 (bits v 0 4)) := by
    simp [Dev.putElem, partOf, partLo, partHi, Fld.key, R.CAL_PAGE]
  have hcut : putBits (d.rdi R.CAL_PAGE 0) 0 4 (bits v 0 4) % 2 ^ 4 = v % 2 ^ 4 := by
    rw [putBits_zero_mod]; simp [bits]
  calc d.writeWord m 0x90004 v = d.putFields [R.CAL_PAGE] id (8 * 0x90004) v := by
        rw [hplain, Dev.plainWord, fieldsAt_CAL_PAGE]; simp [R.CAL_PAGE]
    _ = d.putElem R.CAL_PAGE R.CAL_PAGE (8 * 0x90004) v 0 := by
        rw [Dev.putFields, List.foldl_cons, List.foldl_nil, helem]; rfl
    _ = d.wri R.CAL_PAGE 0 v := hput.trans (d.wri_congr _ _ hcut)

/-- A word with W1C bits takes the PF's W1C write. -/
theorem w1cWrite_pf {d : Dev} {a : Nat} (v : Nat) (hh : d.hears .pf = true) (ha : a % 4 = 0)
    (hf : (fieldsAt pfFields a).any (fun f => f.acc == .w1c) = true) : w1cWrite .pf a v d = d.write32 .pf a v := by
  simp only [w1cWrite, hh, hf, masterVf, ha]
  rfl

theorem w1cWrite_unheard {d : Dev} {m : Master} (a v : Nat) (h : d.hears m = false) : w1cWrite m a v d = d := by
  simp [w1cWrite, h]

theorem Dev.writeWord_RST_CAUSE (d : Dev) (m : Master) (v : Nat) : d.writeWord m 0x10000 v = d.causeClear v := by
  simp [Dev.writeWord, inPage0, snapOffset]

theorem Dev.writeWord_RAS_SUM (d : Dev) (m : Master) (v : Nat) : d.writeWord m 0x150000 v = d.rasClear v := by
  simp [Dev.writeWord, inPage0, snapOffset]

theorem blockSnap_unheard {d : Dev} {m : Master} (a v : Nat) (h : d.hears m = false) : blockSnap m a v d = d := by
  simp [blockSnap, h]

/-- The PF's write of a block's SNAP register. -/
theorem blockSnap_pf {d : Dev} {a : Nat} (v : Nat) (hh : d.hears .pf = true) (ha : a < 0x170000)
    (hs : snapOffset (a / 0x10000) = some (a % 0x10000)) : blockSnap .pf a v d = d.write32 .pf a v := by
  simp [blockSnap, hh, ha, hs]

/-- No block's SNAP register lies in client 0's set-up page. -/
theorem inPage0_eq_false_of_snapOffset {a o : Nat} (hs : snapOffset (a / 0x10000) = some o) : inPage0 a = false := by
  by_contra h
  have hb : a / 0x10000 = 0x0D := by simp [inPage0] at h; omega
  simp [hb, snapOffset] at hs

/-- A write of SNAP captures the block's group when its bit 0 is 1 (R15). -/
theorem Dev.writeWord_snap {d : Dev} {m : Master} {a : Nat} (v : Nat) (ha : a < 0x170000)
    (hs : snapOffset (a / 0x10000) = some (a % 0x10000)) (hc : a ≠ 0x60040) :
    d.writeWord m a v = if bitAt v 0 then d.snapBlock (a / 0x10000) else d := by
  have hw : ¬0x200000 ≤ a := by omega
  simp [Dev.writeWord, inPage0_eq_false_of_snapOffset hs, hw, hs, ha, Dev.snapWord, hc]

/-! ### What each access gives -/

section Clauses

variable {s : State} {a : Nat}

/-- A read of a _LO word of PF BAR0 by the PF. -/
theorem registerRead_pf_lo (hits : s.dev.hears .pf = true ∧ s.dev.reaches .pf a = true)
    (hn : masterNamed .pf a = true) (ha : a % 4 = 0) (hb : s.dev.blkAnswers a = true) (hlo : isHi a = false)
    (hhi : isHi (a + 4) = true) : Gives (.registerRead .pf a 4) s (fun e =>
      e.out = .readData (s.dev.seenWord a) 4 :: s.dev.out ∧
      sget 0 e.hi (hiKey .pf (a + 4)) = s.dev.seenWord (a + 4) ∧ e.beat = s.dev.beat ∧ e.mem = s.dev.mem) := by
  refine Gives.of_onDev (registerRead .pf a 4) rfl ?_
  rw [registerRead_reached 4 hits, Dev.readValue_pf_word hn ha hb]
  obtain ⟨hval, hshadow, hout, hbeat, hmem⟩ := Dev.read32_lo (d := s.dev) (m := .pf) s.dev.seenWord hlo hhi
  exact ⟨by simp only [Dev.emit, hval, hout], hshadow, hbeat, hmem⟩

/-- A write of CAL_PAGE by the PF. -/
theorem registerWrite_pf_CAL_PAGE (v : Nat) (hits : s.dev.hears .pf = true ∧ s.dev.reaches .pf 0x90004 = true)
    (hb : s.dev.blkAnswers 0x90004 = true) (hh : s.dev.blockHeld 0x90004 = false)
    (hl : s.dev.lostWrite 0x90004 = false) : Gives (.registerWrite .pf 0x90004 4 v) s (fun e =>
      e.rd R.CAL_PAGE = v % 16 ∧ RegsKept s.dev e [R.CAL_PAGE.key 0] ∧ e = { s.dev with regs := e.regs }) := by
  refine Gives.of_onDev (registerWrite .pf 0x90004 4 v) rfl ?_
  rw [registerWrite_reached 4 v (by decide) hits, Dev.writeReg_word v (by decide) (by decide),
    Dev.write32_pf v (Dev.hears_running hits.1) hb hh hl, Dev.writeWord_CAL_PAGE]
  exact ⟨Dev.rdi_wri_same _ _ _ _, (RegsKept.refl _ _).wri _ (by simp), rfl⟩

/-- A W1C write of RST_CAUSE by the PF leaves the bits whose source is asserted (R166). -/
theorem w1cWrite_pf_RST_CAUSE (v : Nat) (hr : s.dev.hears .pf = true) (hb : s.dev.blkAnswers 0x10000 = true)
    (hh : s.dev.blockHeld 0x10000 = false) (hl : s.dev.lostWrite 0x10000 = false) :
    Gives (.w1cWrite .pf 0x10000 v) s (fun e => (∀ i, i < 12 → bitAt (e.rd R.RST_CAUSE) i =
      (bitAt (s.dev.rd R.RST_CAUSE) i && (!bitAt v i || (s.dev.rst.asserted.map (fun x => x.bit)).contains i))) ∧
      RegsKept s.dev e [R.RST_CAUSE.key 0] ∧ e = { s.dev with regs := e.regs }) := by
  refine Gives.of_onDev (w1cWrite .pf 0x10000 v) rfl ?_
  rw [w1cWrite_pf v hr (by decide) (by decide +kernel), Dev.write32_pf v (Dev.hears_running hr) hb hh hl,
    Dev.writeWord_RST_CAUSE]
  exact ⟨fun i hi => Dev.bitAt_rdi_wri_foldl _ R.RST_CAUSE 0 _ hi, (RegsKept.refl _ _).wri _ (by simp), rfl⟩

/-- A W1C write of RAS_SUM by the PF leaves the bits that an event set in this beat (R969). -/
theorem w1cWrite_pf_RAS_SUM (v : Nat) (hr : s.dev.hears .pf = true) (hb : s.dev.blkAnswers 0x150000 = true)
    (hh : s.dev.blockHeld 0x150000 = false) (hl : s.dev.lostWrite 0x150000 = false) :
    Gives (.w1cWrite .pf 0x150000 v) s (fun e => (∀ i, i < 13 → bitAt (e.rd R.RAS_SUM) i =
      (bitAt (s.dev.rd R.RAS_SUM) i &&
        (!bitAt v i || (decide (s.dev.ras.sumAt = s.dev.beat) && bitAt s.dev.ras.sumBits i)))) ∧
      RegsKept s.dev e [R.RAS_SUM.key 0] ∧ e = { s.dev with regs := e.regs }) := by
  have hkept (i : Nat) : bitAt (if s.dev.ras.sumAt = s.dev.beat then s.dev.ras.sumBits else 0) i =
      (decide (s.dev.ras.sumAt = s.dev.beat) && bitAt s.dev.ras.sumBits i) := by
    split <;> simp [*, bitAt_eq_testBit]
  refine Gives.of_onDev (w1cWrite .pf 0x150000 v) rfl ?_
  rw [w1cWrite_pf v hr (by decide) (by decide +kernel), Dev.write32_pf v (Dev.hears_running hr) hb hh hl,
    Dev.writeWord_RAS_SUM]
  refine ⟨fun i hi => ?_, (RegsKept.refl _ _).wri _ (by simp), rfl⟩
  rw [← hkept]
  exact Dev.bitAt_rdi_wri_foldl _ R.RAS_SUM 0 _ hi

end Clauses

/-- Settles O59: a request is judged in turn by whether the device hears it, whether a BAR takes it, whether the
tables name its offset and whether R9 supports its size; what is left goes through the gate to the word. -/
theorem registerAccess : Obligations.RegisterAccess := by
  unfold Obligations.RegisterAccess
  intro s m a size v ha d hits err free
  have herr : err = d.sizeError m a := by cases m <;> rfl
  have hread : exec (.registerRead m a size) s = .next { s with dev := registerRead m a size d } := rfl
  have hwrite : exec (.registerWrite m a size v) s = .next { s with dev := registerWrite m a size v d } := rfl
  have hw1c : exec (.w1cWrite m a v) s = .next { s with dev := w1cWrite m a v d } := rfl
  have hsnap : exec (.blockSnap m a v) s = .next { s with dev := blockSnap m a v d } := rfl
  refine ⟨?unheard, ?unnamed, ?badSize, ?noBar, ?plainRead, ?loRead, ?hiRead, ?page, ?lost, ?snap, ?cause, ?summary⟩
  case unheard =>
    intro hh
    rw [hread, hwrite, hw1c, hsnap, registerRead_unheard size hh, registerWrite_unheard size v ha hh,
      w1cWrite_unheard a v hh, blockSnap_unheard a v hh]
    exact ⟨rfl, rfl, rfl, rfl⟩
  case unnamed =>
    intro h hn
    rw [hread, hwrite, registerWrite_reached size v ha h, Dev.writeReg_unnamed size v hn, registerRead_reached size h,
      Dev.readValue_unnamed size hn]
    exact ⟨rfl, rfl⟩
  case badSize =>
    intro h hn h4 h8
    have hs : sizeOk a size = false := (sizeOk_eq_false_iff a size).mpr ⟨h4, h8⟩
    rw [hread, hwrite, registerWrite_reached size v ha h, Dev.writeReg_badSize v hn hs, registerRead_reached size h,
      Dev.readValue_badSize hn hs, herr]
    exact ⟨rfl, rfl⟩
  case noBar =>
    intro hh hr hl
    rw [hread, hwrite, registerRead_noBar size hh hr hl, registerWrite_noBar size v ha hh hr hl]
    exact ⟨rfl, rfl⟩
  case plainRead =>
    rintro h rfl hn rfl h4 hb hlo hhi hf
    rw [hread, registerRead_reached 4 h, Dev.readValue_pf_word hn h4 hb, Dev.read32_plain _ hlo hhi hf]
    rfl
  case loRead =>
    rintro h rfl hn rfl h4 hb hlo hhi
    exact registerRead_pf_lo h hn h4 hb hlo hhi
  case hiRead =>
    rintro h rfl hn rfl h4 hb hhi
    rw [hread, registerRead_reached 4 h, Dev.readValue_pf_word hn h4 hb, Dev.read32_hi _ hhi]
    rfl
  case page =>
    rintro h rfl rfl rfl ⟨hb, hh, hl⟩
    exact registerWrite_pf_CAL_PAGE v h hb hh hl
  case lost =>
    rintro h rfl rfl rfl hb hh hl
    rw [hwrite, registerWrite_reached 4 v ha h, Dev.writeReg_word v (by decide) (by decide),
      Dev.write32_pf_lost v (Dev.hears_running h.1) hb hh hl]
    rfl
  case snap =>
    rintro hr rfl hlt hs hc ⟨hb, hh, hl⟩
    rw [hsnap, blockSnap_pf v hr hlt hs, Dev.write32_pf v (Dev.hears_running hr) hb hh hl,
      Dev.writeWord_snap v hlt hs hc]
    exact ⟨fun hv => by rw [if_pos hv], fun hv => by rw [if_neg (by simp [hv])]⟩
  case cause =>
    rintro hr rfl rfl ⟨hb, hh, hl⟩
    exact w1cWrite_pf_RST_CAUSE v hr hb hh hl
  case summary =>
    rintro hr rfl rfl ⟨hb, hh, hl⟩
    exact w1cWrite_pf_RAS_SUM v hr hb hh hl

end Sys2Proof.Machine
end

section
/-!
PROOFS. The error summary: what an event that merges, one that takes a new entry and one that finds the log full do (R966-R969).
-/

namespace Sys2Proof.Machine

/-! ### Keys of the error summary's fields -/

/-- Fields of an entry of the log lie at different bits of its 128. -/
theorem Fld.key_ne_of_log {f g : Fld} {n : Nat} (hf : f.stride = 128) (hg : g.stride = 128) (h : f.bit ≠ g.bit) :
    f.key n ≠ g.key n := by
  simp only [Fld.key, hf, hg]; omega

/-- A field below the log lies in none of its entries. -/
theorem Fld.key_ne_of_lt_log {f g : Fld} {i n : Nat} (hf : 0xa88000 ≤ f.bit) (hg : g.key i < 0xa88000) :
    g.key i ≠ f.key n := by
  simp only [Fld.key] at hg ⊢; omega

/-- A register written through one of the event classes reads as before everywhere but at that class's flag. -/
theorem Dev.rdi_evt_ne (d : Dev) {c : Nat} {f : Fld} {i : Nat} (h : f.key i ≠ R.HIF_EVT_PEND.key c) :
    (d.evt c).rdi f i = d.rdi f i := d.rdi_wri_ne 1 h

@[simp] theorem Dev.rdi_evt_same (d : Dev) (c : Nat) : (d.evt c).rdi R.HIF_EVT_PEND c = 1 :=
  d.rdi_wri_same R.HIF_EVT_PEND c 1

theorem Dev.rdi_alert_ne (d : Dev) (b : Nat) {f : Fld} {i : Nat} (h : f.key i ≠ R.MGT_STATUS_ALERT.key 0) :
    (d.alert b).rdi f i = d.rdi f i := by
  unfold Dev.alert
  split
  · exact d.rdi_wri_ne 1 h
  · rfl

theorem RegsKept.evt {d e : Dev} {ks : List Nat} (h : RegsKept d e ks) {c : Nat} (hk : R.HIF_EVT_PEND.key c ∈ ks) :
    RegsKept d (e.evt c) ks := (h.wri 1 hk).of_regs rfl

theorem RegsKept.alert {d e : Dev} {ks : List Nat} (h : RegsKept d e ks) (b : Nat)
    (hk : R.MGT_STATUS_ALERT.key 0 ∈ ks) : RegsKept d (e.alert b) ks := by
  unfold Dev.alert
  split
  · exact h.wri 1 hk
  · exact h

/-- A field whose key a frame does not list reads as before. -/
theorem RegsKept.rdi {d e : Dev} {ks : List Nat} (h : RegsKept d e ks) {f : Fld} {i : Nat} (hk : f.key i ∉ ks) :
    e.rdi f i = d.rdi f i := Dev.rdi_of_sfind (h _ hk)

theorem RegsKeptRas.rdi {d e : Dev} {ks : List Nat} (h : RegsKeptRas d e ks) {f : Fld} {i : Nat} (hk : f.key i ∉ ks)
    (hr : rasKeys (f.key i) = false) : e.rdi f i = d.rdi f i := Dev.rdi_of_sfind (h _ hk hr)

/-- A counter that is raised reads one more, up to its width. -/
theorem Dev.rdi_inci_same (d : Dev) (f : Fld) (i : Nat) : (d.inci f i).rdi f i = satAdd f.w (d.rdi f i) 1 := by
  have hpos := Nat.two_pow_pos f.w
  exact (Dev.rdi_wri_same _ _ _ _).trans (Nat.mod_eq_of_lt (Nat.lt_of_le_of_lt (Nat.min_le_right _ _) (by omega)))

/-! ### A new entry -/

/-- Keys that a new entry at position `n` of the log writes. -/
def entryKeys (n : Nat) : List Nat :=
  [R.RAS_LOG_WR_NEXT.key 0, R.RAS_LOG_STAMP.key n, R.RAS_LOG_CLASS.key n, R.RAS_LOG_BLOCK.key n,
    R.RAS_LOG_CLIENT.key n, R.RAS_LOG_COUNT.key n, R.RAS_LOG_DETAIL.key n, R.HIF_EVT_PEND.key 0,
    R.MGT_STATUS_ALERT.key 0]

theorem entryKeys_cases {n k : Nat} (h : k ∈ entryKeys n) :
    k = R.RAS_LOG_WR_NEXT.key 0 ∨ k = R.HIF_EVT_PEND.key 0 ∨ 0xa88000 ≤ k := by
  simp only [entryKeys, List.mem_cons, List.not_mem_nil, or_false] at h
  rcases h with rfl | rfl | rfl | rfl | rfl | rfl | rfl | rfl | rfl
  case inl => exact .inl rfl
  case inr.inr.inr.inr.inr.inr.inr.inl => exact .inr (.inl rfl)
  all_goals exact .inr (.inr (Nat.le_trans (by decide) (Nat.le_add_right _ _)))

/-- They are keys of the error summary. -/
theorem rasKeys_of_mem_entryKeys {n k : Nat} (hn : n < 256) (h : k ∈ entryKeys n) : rasKeys k = true := by
  simp only [entryKeys, List.mem_cons, List.not_mem_nil, or_false] at h
  rcases h with rfl | rfl | rfl | rfl | rfl | rfl | rfl | rfl | rfl
  case inl => rfl
  case inr.inr.inr.inr.inr.inr.inr.inl => rfl
  case inr.inr.inr.inr.inr.inr.inr.inr => rfl
  all_goals exact rasKeys_log rfl (by decide) hn

theorem not_mem_entryKeys {n k : Nat} (hn : n < 256) (h : rasKeys k = false) : k ∉ entryKeys n := fun hk => by
  rw [rasKeys_of_mem_entryKeys hn hk] at h; cases h

/-- From `d` to `e` a new entry is written at the log's next position (R966). -/
structure RasEntered (d e : Dev) (c blk cl detail : Nat) (mg : Bool) : Prop where
  next : e.rd R.RAS_LOG_WR_NEXT = (d.rd R.RAS_LOG_WR_NEXT + 1) % 256
  stamp : e.rdi R.RAS_LOG_STAMP (d.rd R.RAS_LOG_WR_NEXT) = d.stamp
  cls : e.rdi R.RAS_LOG_CLASS (d.rd R.RAS_LOG_WR_NEXT) = c % 256
  blk : e.rdi R.RAS_LOG_BLOCK (d.rd R.RAS_LOG_WR_NEXT) = blk % 256
  client : e.rdi R.RAS_LOG_CLIENT (d.rd R.RAS_LOG_WR_NEXT) = cl % 2 ^ 16
  count : e.rdi R.RAS_LOG_COUNT (d.rd R.RAS_LOG_WR_NEXT) = 1
  detail : e.rdi R.RAS_LOG_DETAIL (d.rd R.RAS_LOG_WR_NEXT) = detail % 2 ^ 32
  event : e.rdi R.HIF_EVT_PEND 0 = 1
  newest : e.ras.newest = some d.beat
  merge : e.ras.merge = mg
  alert : bitAt (d.rd R.MGT_ALERT_MASK) c = true → e.rd R.MGT_STATUS_ALERT = 1
  kept : RegsKept d e (entryKeys (d.rd R.RAS_LOG_WR_NEXT))

theorem Dev.stamp_lt (d : Dev) : d.stamp < 2 ^ 32 := Nat.mod_lt _ (Nat.two_pow_pos _)

/-- With the log full an entry is dropped and counted (R968). -/
theorem Dev.rasWrite_full {d : Dev} (cls blk cl detail : Nat) (mg : Bool)
    (h : (d.rd R.RAS_LOG_WR_NEXT + 1) % 256 = d.rd R.RAS_LOG_RD) :
    d.rasWrite cls blk cl detail mg = d.inc R.RAS_LOG_WR_LOST := by
  rw [Dev.rasWrite, if_pos h]

/-- The words of a new entry and the pointer past it. -/
def Dev.rasFill (d : Dev) (n cls blk cl detail : Nat) : Dev :=
  ((((((d.wri R.RAS_LOG_STAMP n d.stamp).wri R.RAS_LOG_CLASS n cls).wri R.RAS_LOG_BLOCK n blk).wri
    R.RAS_LOG_CLIENT n cl).wri R.RAS_LOG_COUNT n 1).wri R.RAS_LOG_DETAIL n detail).wri R.RAS_LOG_WR_NEXT 0 (n + 1)

/-- What a new entry does beside its words: what R967 keeps of it, its PF event and its alert. -/
def Dev.rasNotice (d : Dev) (cls : Nat) (mg : Bool) : Dev :=
  (({ d with ras := { d.ras with newest := some d.beat, merge := mg } } : Dev).evt 0).alert cls

theorem Dev.rasWrite_room {d : Dev} (cls blk cl detail : Nat) (mg : Bool)
    (h : (d.rd R.RAS_LOG_WR_NEXT + 1) % 256 ≠ d.rd R.RAS_LOG_RD) :
    d.rasWrite cls blk cl detail mg = (d.rasFill (d.rd R.RAS_LOG_WR_NEXT) cls blk cl detail).rasNotice cls mg := by
  rw [Dev.rasWrite, if_neg h]; rfl

theorem Dev.rdi_rasNotice (d : Dev) (cls : Nat) (mg : Bool) {f : Fld} {i : Nat} (he : f.key i ≠ R.HIF_EVT_PEND.key 0)
    (ha : f.key i ≠ R.MGT_STATUS_ALERT.key 0) : (d.rasNotice cls mg).rdi f i = d.rdi f i :=
  (Dev.rdi_alert_ne _ _ ha).trans (Dev.rdi_evt_ne _ he)

theorem Dev.rasNotice_event (d : Dev) (cls : Nat) (mg : Bool) : (d.rasNotice cls mg).rdi R.HIF_EVT_PEND 0 = 1 :=
  (Dev.rdi_alert_ne _ _ (by decide)).trans (Dev.rdi_evt_same _ 0)

@[simp] theorem Dev.rasNotice_ras (d : Dev) (cls : Nat) (mg : Bool) :
    (d.rasNotice cls mg).ras = { d.ras with newest := some d.beat, merge := mg } := by simp [Dev.rasNotice]

theorem Dev.rasNotice_alert {d : Dev} {cls : Nat} (mg : Bool) (h : bitAt (d.rd R.MGT_ALERT_MASK) cls = true) :
    (d.rasNotice cls mg).rd R.MGT_STATUS_ALERT = 1 := by
  have hmask (r : Ras) : (({ d with ras := r } : Dev).evt 0).rd R.MGT_ALERT_MASK = d.rd R.MGT_ALERT_MASK :=
    Dev.rdi_evt_ne _ (by decide)
  rw [Dev.rasNotice, Dev.alert, if_pos (by rw [hmask]; exact h)]
  exact Dev.rdi_wri_same _ _ _ _

theorem RegsKept.rasNotice {d e : Dev} {ks : List Nat} (h : RegsKept d e ks) (cls : Nat) (mg : Bool)
    (he : R.HIF_EVT_PEND.key 0 ∈ ks) (ha : R.MGT_STATUS_ALERT.key 0 ∈ ks) : RegsKept d (e.rasNotice cls mg) ks := by
  have hras : RegsKept d { e with ras := { e.ras with newest := some e.beat, merge := mg } } ks := h
  exact (hras.evt he).alert cls ha

theorem Dev.rasFill_kept (d : Dev) (n cls blk cl detail : Nat) :
    RegsKept d (d.rasFill n cls blk cl detail) (entryKeys n) :=
  (((((((RegsKept.refl _ _).wri _ (by simp [entryKeys])).wri _ (by simp [entryKeys])).wri _ (by simp [entryKeys])).wri _
    (by simp [entryKeys])).wri _ (by simp [entryKeys])).wri _ (by simp [entryKeys])).wri _ (by simp [entryKeys])

theorem Dev.rdi_rasFill (d : Dev) (n cls blk cl detail : Nat) :
    let e := d.rasFill n cls blk cl detail
    e.rdi R.RAS_LOG_WR_NEXT 0 = (n + 1) % 256 ∧ e.rdi R.RAS_LOG_STAMP n = d.stamp ∧
    e.rdi R.RAS_LOG_CLASS n = cls % 256 ∧ e.rdi R.RAS_LOG_BLOCK n = blk % 256 ∧
    e.rdi R.RAS_LOG_CLIENT n = cl % 2 ^ 16 ∧ e.rdi R.RAS_LOG_COUNT n = 1 ∧
    e.rdi R.RAS_LOG_DETAIL n = detail % 2 ^ 32 := by
  have hlog {f : Fld} (hf : 0xa88000 ≤ f.bit) : f.key n ≠ R.RAS_LOG_WR_NEXT.key 0 :=
    (Fld.key_ne_of_lt_log hf (by decide)).symm
  refine ⟨Dev.rdi_wri_same _ _ _ _, ?_, ?_, ?_, ?_, ?_, ?_⟩ <;>
    rw [Dev.rasFill, Dev.rdi_wri_ne _ _ (hlog (by decide))] <;>
    simp (disch := (apply Fld.key_ne_of_log rfl rfl; decide)) only [Dev.rdi_wri_ne, Dev.rdi_wri_same]
  · exact Nat.mod_eq_of_lt d.stamp_lt
  all_goals rfl

/-- With room in the log a new entry is written (R966). -/
theorem Dev.rasWrite_entered {d : Dev} (cls blk cl detail : Nat) (mg : Bool)
    (h : (d.rd R.RAS_LOG_WR_NEXT + 1) % 256 ≠ d.rd R.RAS_LOG_RD) :
    RasEntered d (d.rasWrite cls blk cl detail mg) cls blk cl detail mg := by
  obtain ⟨hnext, hstamp, hcls, hblk, hcl, hcount, hdetail⟩ :=
    d.rdi_rasFill (d.rd R.RAS_LOG_WR_NEXT) cls blk cl detail
  have hkept := d.rasFill_kept (d.rd R.RAS_LOG_WR_NEXT) cls blk cl detail
  rw [Dev.rasWrite_room cls blk cl detail mg h]
  have hn : d.rd R.RAS_LOG_WR_NEXT < 256 := d.rdi_lt _ _
  have hlog {f : Fld} (hf : 0xa88000 ≤ f.bit ∧ f.bit < 0xa88080 ∧ f.stride = 128) :=
    (d.rasFill (d.rd R.RAS_LOG_WR_NEXT) cls blk cl detail).rdi_rasNotice cls mg (f := f) (i := d.rd R.RAS_LOG_WR_NEXT)
      (by simp only [Fld.key, hf, R.HIF_EVT_PEND]; omega) (by simp only [Fld.key, hf, R.MGT_STATUS_ALERT]; omega)
  exact {
    next := (Dev.rdi_rasNotice _ _ _ (by decide) (by decide)).trans hnext
    stamp := (hlog (by decide)).trans hstamp
    cls := (hlog (by decide)).trans hcls
    blk := (hlog (by decide)).trans hblk
    client := (hlog (by decide)).trans hcl
    count := (hlog (by decide)).trans hcount
    detail := (hlog (by decide)).trans hdetail
    event := Dev.rasNotice_event _ _ _
    newest := by rw [Dev.rasNotice_ras]; rfl
    merge := by rw [Dev.rasNotice_ras]
    alert := fun ha => Dev.rasNotice_alert mg (by
      rw [Dev.rd_eq, hkept.rdi (not_mem_entryKeys hn (by decide))]; exact ha)
    kept := hkept.rasNotice _ _ (by simp [entryKeys]) (by simp [entryKeys]) }

/-! ### An event -/

/-- What every event does first: its class's bit of RAS_SUM, and the bits set at this beat (R969). -/
def Dev.rasNoted (d : Dev) (cls : Nat) : Dev :=
  { d.wr R.RAS_SUM (putBit (d.rd R.RAS_SUM) cls true) with
    ras := { d.ras with sumAt := d.beat
                        sumBits := putBit (if d.ras.sumAt = d.beat then d.ras.sumBits else 0) cls true } }

/-- Position of the newest entry. -/
def Dev.rasTop (d : Dev) : Nat := (d.rd R.RAS_LOG_WR_NEXT + 255) % 256

/-- An event of its class, block and client merges into the newest entry (R967). -/
def Dev.RasJoins (d : Dev) (cls blk cl : Nat) (mg : Bool) : Prop :=
  mg = true ∧ d.ras.merge = true ∧ d.rdi R.RAS_LOG_CLASS d.rasTop = cls ∧ d.rdi R.RAS_LOG_BLOCK d.rasTop = blk ∧
    d.rdi R.RAS_LOG_CLIENT d.rasTop = cl ∧ ∃ b, d.ras.newest = some b ∧ d.beat < b + 250000

theorem Dev.rasMerges_iff (d : Dev) (cls blk cl : Nat) (mg : Bool) :
    (mg && d.rasMerges cls blk cl) = true ↔ d.RasJoins cls blk cl mg := by
  unfold Dev.rasMerges Dev.RasJoins Dev.rasTop
  cases d.ras.newest <;> simp only [Bool.and_eq_true, decide_eq_true_eq, and_assoc] <;> simp

theorem Dev.rasNoted_kept (d : Dev) (cls : Nat) : RegsKept d (d.rasNoted cls) [R.RAS_SUM.key 0] :=
  ((RegsKept.refl d _).wri _ (by simp)).of_regs rfl

theorem Dev.rdi_rasNoted (d : Dev) (cls : Nat) {f : Fld} {i : Nat} (h : f.key i ≠ R.RAS_SUM.key 0) :
    (d.rasNoted cls).rdi f i = d.rdi f i := (d.rasNoted_kept cls).rdi (by simpa using h)

theorem Dev.rasNoted_log (d : Dev) (cls : Nat) {f : Fld} {i : Nat} (h : 0xa80001 ≤ f.bit) :
    (d.rasNoted cls).rdi f i = d.rdi f i :=
  d.rdi_rasNoted cls (by simp only [Fld.key, R.RAS_SUM]; omega)

theorem Dev.rasNoted_sum (d : Dev) {cls : Nat} (h : cls < 13) :
    (d.rasNoted cls).rdi R.RAS_SUM 0 = putBit (d.rdi R.RAS_SUM 0) cls true :=
  (d.rdi_wri_same R.RAS_SUM 0 _).trans (Nat.mod_eq_of_lt (putBit_lt (d.rdi_lt _ _) h _))

theorem Dev.rasNoted_joins (d : Dev) (c cls blk cl : Nat) (mg : Bool) :
    (d.rasNoted c).RasJoins cls blk cl mg ↔ d.RasJoins cls blk cl mg := by
  have hnext : (d.rasNoted c).rasTop = d.rasTop := by
    unfold Dev.rasTop; rw [Dev.rd_eq, d.rasNoted_log c (by decide)]; rfl
  unfold Dev.RasJoins
  rw [hnext, d.rasNoted_log c (by decide), d.rasNoted_log c (by decide), d.rasNoted_log c (by decide)]
  rfl

/-- An event that meets R967 raises the newest entry's COUNT. -/
theorem Dev.rasEvent_joins {d : Dev} {cls blk cl : Nat} (detail : Nat) {mg : Bool} (h : d.RasJoins cls blk cl mg) :
    d.rasEvent cls blk cl detail mg = (d.rasNoted cls).inci R.RAS_LOG_COUNT d.rasTop := by
  have hm : (mg && (d.rasNoted cls).rasMerges cls blk cl) = true :=
    (Dev.rasMerges_iff _ _ _ _ _).mpr ((d.rasNoted_joins cls cls blk cl mg).mpr h)
  have hnext : (d.rasNoted cls).rasTop = d.rasTop := by
    unfold Dev.rasTop; rw [Dev.rd_eq, d.rasNoted_log cls (by decide)]; rfl
  rw [← hnext]
  exact if_pos hm

/-- Any other event takes a new entry. -/
theorem Dev.rasEvent_new {d : Dev} {cls blk cl : Nat} (detail : Nat) {mg : Bool} (h : ¬d.RasJoins cls blk cl mg) :
    d.rasEvent cls blk cl detail mg = (d.rasNoted cls).rasWrite cls blk cl detail mg := by
  have hm : ¬(mg && (d.rasNoted cls).rasMerges cls blk cl) = true := fun hm =>
    h ((d.rasNoted_joins cls cls blk cl mg).mp ((Dev.rasMerges_iff _ _ _ _ _).mp hm))
  exact if_neg hm

/-- Writing an entry leaves RAS_SUM alone. -/
theorem Dev.rasWrite_sum (d : Dev) (cls blk cl detail : Nat) (mg : Bool) :
    (d.rasWrite cls blk cl detail mg).rdi R.RAS_SUM 0 = d.rdi R.RAS_SUM 0 := by
  by_cases h : (d.rd R.RAS_LOG_WR_NEXT + 1) % 256 = d.rd R.RAS_LOG_RD
  · rw [Dev.rasWrite_full _ _ _ _ _ h]
    exact d.rdi_wri_ne _ (by decide)
  · refine (Dev.rasWrite_entered cls blk cl detail mg h).kept.rdi fun hk => ?_
    rcases entryKeys_cases hk with he | he | he <;> exact absurd he (by decide)

/-- An event sets its class's bit of RAS_SUM and no other. -/
theorem Dev.rasEvent_sum (d : Dev) {cls : Nat} (blk cl detail : Nat) (mg : Bool) (hc : cls < 13) :
    (d.rasEvent cls blk cl detail mg).rdi R.RAS_SUM 0 = putBit (d.rdi R.RAS_SUM 0) cls true := by
  rw [← d.rasNoted_sum hc]
  by_cases h : d.RasJoins cls blk cl mg
  · rw [Dev.rasEvent_joins detail h]
    exact Dev.rdi_wri_ne _ _ (Fld.key_ne_of_lt_log (by decide) (by decide))
  · rw [Dev.rasEvent_new detail h]
    exact Dev.rasWrite_sum _ _ _ _ _ _

theorem Dev.rasEvent_sum_bit (d : Dev) {cls : Nat} (blk cl detail : Nat) (mg : Bool) (hc : cls < 13) :
    bitAt ((d.rasEvent cls blk cl detail mg).rd R.RAS_SUM) cls = true := by
  rw [Dev.rd_eq, d.rasEvent_sum blk cl detail mg hc, bitAt_putBit, if_pos rfl]

/-- What an event that merges leaves (R967). -/
theorem Dev.rasEvent_merged {d : Dev} {cls blk cl : Nat} (detail : Nat) {mg : Bool} (hc : cls < 13)
    (h : d.RasJoins cls blk cl mg) :
    let e := d.rasEvent cls blk cl detail mg
    e = { d with regs := e.regs, ras := e.ras } ∧
    e.rdi R.RAS_LOG_COUNT d.rasTop = satAdd 8 (d.rdi R.RAS_LOG_COUNT d.rasTop) 1 ∧
    bitAt (e.rd R.RAS_SUM) cls = true ∧ RegsKept d e [R.RAS_SUM.key 0, R.RAS_LOG_COUNT.key d.rasTop] := by
  have hcount : (d.rasNoted cls).rdi R.RAS_LOG_COUNT d.rasTop = d.rdi R.RAS_LOG_COUNT d.rasTop :=
    d.rasNoted_log cls (by decide)
  refine ⟨?_, ?_, d.rasEvent_sum_bit blk cl detail mg hc, ?_⟩
  all_goals rw [Dev.rasEvent_joins detail h]
  · rfl
  · rw [Dev.rdi_inci_same, hcount]; rfl
  · exact RegsKept.wri (fun k hk => (d.rasNoted_kept cls) k (by simp_all)) _ (by simp)

/-- An event that does not merge, with room in the log. -/
theorem Dev.rasEvent_entered {d : Dev} {cls blk cl : Nat} (detail : Nat) {mg : Bool} 
    (h : ¬d.RasJoins cls blk cl mg) (hroom : (d.rd R.RAS_LOG_WR_NEXT + 1) % 256 ≠ d.rd R.RAS_LOG_RD) :
    RasEntered (d.rasNoted cls) (d.rasEvent cls blk cl detail mg) cls blk cl detail mg := by
  rw [Dev.rasEvent_new detail h]
  refine Dev.rasWrite_entered cls blk cl detail mg ?_
  rwa [Dev.rd_eq, Dev.rd_eq, d.rasNoted_log cls (by decide), d.rasNoted_log cls (by decide)]

/-- An event that does not merge, with the log full. -/
theorem Dev.rasEvent_full {d : Dev} {cls blk cl : Nat} (detail : Nat) {mg : Bool} 
    (h : ¬d.RasJoins cls blk cl mg) (hroom : (d.rd R.RAS_LOG_WR_NEXT + 1) % 256 = d.rd R.RAS_LOG_RD) :
    d.rasEvent cls blk cl detail mg = (d.rasNoted cls).inc R.RAS_LOG_WR_LOST := by
  rw [Dev.rasEvent_new detail h]
  refine Dev.rasWrite_full cls blk cl detail mg ?_
  rwa [Dev.rd_eq, Dev.rd_eq, d.rasNoted_log cls (by decide), d.rasNoted_log cls (by decide)]

/-- What an event that takes a new entry leaves (R966). -/
theorem Dev.rasEvent_newEntry {d : Dev} {cls blk cl : Nat} (detail : Nat) {mg : Bool} (hc : cls < 13)
    (h : ¬d.RasJoins cls blk cl mg) (hroom : (d.rd R.RAS_LOG_WR_NEXT + 1) % 256 ≠ d.rd R.RAS_LOG_RD) :
    let e := d.rasEvent cls blk cl detail mg
    let w := d.rd R.RAS_LOG_WR_NEXT
    e.rd R.RAS_LOG_WR_NEXT = (w + 1) % 256 ∧ e.rdi R.RAS_LOG_STAMP w = d.stamp ∧ e.rdi R.RAS_LOG_CLASS w = cls ∧
    e.rdi R.RAS_LOG_BLOCK w = blk % 256 ∧ e.rdi R.RAS_LOG_CLIENT w = cl % 2 ^ 16 ∧ e.rdi R.RAS_LOG_COUNT w = 1 ∧
    e.rdi R.RAS_LOG_DETAIL w = detail % 2 ^ 32 ∧ bitAt (e.rd R.RAS_SUM) cls = true ∧ e.rdi R.HIF_EVT_PEND 0 = 1 ∧
    e.ras.newest = some d.beat ∧ e.ras.merge = mg ∧
    (bitAt (d.rd R.MGT_ALERT_MASK) cls = true → e.rd R.MGT_STATUS_ALERT = 1) ∧
    RegsKept d e [R.RAS_SUM.key 0, R.RAS_LOG_WR_NEXT.key 0, R.RAS_LOG_STAMP.key w, R.RAS_LOG_CLASS.key w,
      R.RAS_LOG_BLOCK.key w, R.RAS_LOG_CLIENT.key w, R.RAS_LOG_COUNT.key w, R.RAS_LOG_DETAIL.key w,
      R.HIF_EVT_PEND.key 0, R.MGT_STATUS_ALERT.key 0] := by
  have hw : (d.rasNoted cls).rd R.RAS_LOG_WR_NEXT = d.rd R.RAS_LOG_WR_NEXT := d.rasNoted_log cls (by decide)
  have hstamp : (d.rasNoted cls).stamp = d.stamp :=
    congrArg (bits · 16 32) (d.rdi_rasNoted cls (f := R.CAD_PHASE) (by decide))
  have hmask : (d.rasNoted cls).rd R.MGT_ALERT_MASK = d.rd R.MGT_ALERT_MASK := d.rasNoted_log cls (by decide)
  have hnew := Dev.rasEvent_entered detail h hroom
  have hkept : RegsKept d (d.rasEvent cls blk cl detail mg) (R.RAS_SUM.key 0 :: entryKeys (d.rd R.RAS_LOG_WR_NEXT)) :=
    fun k hk => by
      obtain ⟨hsum, hentry⟩ := not_or.mp fun h => hk (List.mem_cons.mpr h)
      exact (hnew.kept k (hw ▸ hentry)).trans (d.rasNoted_kept cls k (by simpa using hsum))
  refine ⟨?_, ?_, ?_, ?_, ?_, ?_, ?_, d.rasEvent_sum_bit blk cl detail mg hc, hnew.event, hnew.newest, hnew.merge,
    fun ha => hnew.alert (hmask ▸ ha), hkept⟩
  · rw [hnew.next, hw]
  · rw [← hw, hnew.stamp, hstamp]
  · rw [← hw, hnew.cls, Nat.mod_eq_of_lt (by omega)]
  · rw [← hw, hnew.blk]
  · rw [← hw, hnew.client]
  · rw [← hw, hnew.count]
  · rw [← hw, hnew.detail]

/-- What an event leaves that finds the log full (R968). -/
theorem Dev.rasEvent_lost {d : Dev} {cls blk cl : Nat} (detail : Nat) {mg : Bool} (hc : cls < 13)
    (h : ¬d.RasJoins cls blk cl mg) (hfull : (d.rd R.RAS_LOG_WR_NEXT + 1) % 256 = d.rd R.RAS_LOG_RD) :
    let e := d.rasEvent cls blk cl detail mg
    e.rd R.RAS_LOG_WR_LOST = satAdd 16 (d.rd R.RAS_LOG_WR_LOST) 1 ∧ bitAt (e.rd R.RAS_SUM) cls = true ∧
    RegsKept d e [R.RAS_SUM.key 0, R.RAS_LOG_WR_LOST.key 0] := by
  have hlost : (d.rasNoted cls).rdi R.RAS_LOG_WR_LOST 0 = d.rdi R.RAS_LOG_WR_LOST 0 := d.rasNoted_log cls (by decide)
  refine ⟨?_, d.rasEvent_sum_bit blk cl detail mg hc, ?_⟩
  all_goals rw [Dev.rasEvent_full detail h hfull]
  · exact (Dev.rdi_inci_same _ _ _).trans (by rw [hlost]; rfl)
  · exact RegsKept.wri (fun k hk => (d.rasNoted_kept cls) k (by simp_all)) _ (by simp)

/-! ### Failures of a stack or channel -/

/-- An event that may not merge takes a new entry, into which none merges. -/
theorem Dev.rasEvent_unmerged {d : Dev} (cls blk cl detail : Nat)
    (hroom : (d.rd R.RAS_LOG_WR_NEXT + 1) % 256 ≠ d.rd R.RAS_LOG_RD) :
    let e := d.rasEvent cls blk cl detail false
    e.rd R.RAS_LOG_WR_NEXT = (d.rd R.RAS_LOG_WR_NEXT + 1) % 256 ∧ e.ras.merge = false := by
  have halone : ¬d.RasJoins cls blk cl false := fun h => by cases h.1
  have hnew := Dev.rasEvent_entered detail halone hroom
  have hw : (d.rasNoted cls).rd R.RAS_LOG_WR_NEXT = d.rd R.RAS_LOG_WR_NEXT := d.rasNoted_log cls (by decide)
  exact ⟨by rw [hnew.next, hw], hnew.merge⟩

theorem Dev.failChannel_entry {d : Dev} {c : Nat} (hc : c < 8) (h : d.rdi R.MEM_T2_STATUS_FAILED c = 0)
    (hroom : (d.rd R.RAS_LOG_WR_NEXT + 1) % 256 ≠ d.rd R.RAS_LOG_RD) :
    (d.failChannel c).rd R.RAS_LOG_WR_NEXT = (d.rd R.RAS_LOG_WR_NEXT + 1) % 256 ∧
      (d.failChannel c).ras.merge = false := by
  have hlog {f : Fld} (hf : 0xa80001 ≤ f.bit) :
      (((d.wri R.MEM_T2_STATUS_FAILED c 1).wri R.MEM_T2_STATUS_ACTIVE c 0).wri R.MEM_T2_SIZE c 0).rdi f 0 =
        d.rdi f 0 := by
    rw [Dev.rdi_wri_ne, Dev.rdi_wri_ne, Dev.rdi_wri_ne] <;>
      simp only [Fld.key, R.MEM_T2_STATUS_FAILED, R.MEM_T2_STATUS_ACTIVE, R.MEM_T2_SIZE] <;> omega
  rw [Dev.failChannel, if_neg (by simp [h])]
  rw [Dev.rd_eq d, ← hlog (f := R.RAS_LOG_WR_NEXT) (by decide)]
  refine Dev.rasEvent_unmerged 4 0x0B noClient (0xC0000000 + c) ?_
  rwa [Dev.rd_eq, Dev.rd_eq, hlog (by decide), hlog (by decide)]

theorem Dev.failStack_entry {d : Dev} {u : Nat} (hu : u < 6) (h : d.rdi R.MEM_T1_STATUS_FAILED u = 0)
    (hroom : (d.rd R.RAS_LOG_WR_NEXT + 1) % 256 ≠ d.rd R.RAS_LOG_RD) :
    (d.failStack u).rd R.RAS_LOG_WR_NEXT = (d.rd R.RAS_LOG_WR_NEXT + 1) % 256 ∧ (d.failStack u).ras.merge = false := by
  have hlog {f : Fld} (hf : 0xa80001 ≤ f.bit) : (d.wri R.MEM_T1_STATUS_FAILED u 1).rdi f 0 = d.rdi f 0 :=
    d.rdi_wri_ne 1 (by simp only [Fld.key, R.MEM_T1_STATUS_FAILED]; omega)
  rw [Dev.failStack, if_neg (by simp [h])]
  rw [Dev.rd_eq d, ← hlog (f := R.RAS_LOG_WR_NEXT) (by decide)]
  refine Dev.rasEvent_unmerged 4 0x0B noClient (0x80000000 + u) ?_
  rwa [Dev.rd_eq, Dev.rd_eq, hlog (by decide), hlog (by decide)]

end Sys2Proof.Machine
end

section
/-!
PROOFS. Errors of the plan store and of the control cores' memory, and heartbeats (R970, R971, R973, R1013).
-/

namespace Sys2Proof.Machine

/-! ### Errors of internal memories and heartbeats -/

theorem planStoreError_idle {d : Dev} (standby : Bool) (h : d.running = false) : planStoreError standby d = d := by
  simp [planStoreError, h]

theorem coreMemoryError_idle {d : Dev} (core : Nat) (h : d.running = false) : coreMemoryError core d = d := by
  simp [coreMemoryError, h]

theorem heartbeatTimeout_asleep {d : Dev} (core : Nat) (h : d.fwReady = false) : heartbeatTimeout core d = d := by
  simp [heartbeatTimeout, h]

theorem heartbeatTimeout_ready {d : Dev} (core : Nat) (h : d.fwReady = true) :
    heartbeatTimeout core d = d.rasEvent 10 0x15 0xFFFF core := if_pos h

/-- An uncorrectable error of the active half halts the running plan (R971). -/
theorem planStoreError_active {d : Dev} (hr : d.running = true) (hp : d.planActive = true) :
    planStoreError false d = (d.rasEvent 5 0x07 noClient 0).setSq (fun q => { q with haltPending := true }) := by
  have hp' : (d.rasEvent 5 0x07 noClient 0).planActive = true := by
    rw [← hp, Dev.planActive, Dev.planActive, Dev.isSet_eq, Dev.isSet_eq, Dev.rdi_rasEvent _ _ _ _ _ _ (by decide)]
  simp only [planStoreError, hr, b2n, Bool.not_true, Bool.false_eq_true, if_false, Bool.not_false, if_true, hp']

/-- What emptying the standby halves writes (R382, R388). -/
theorem Dev.dropStandby_kept {d e : Dev} {ks : List Nat} (h : RegsKeptRas d e ks)
    (hs : R.SEQ_STATUS_STANDBY.key 0 ∈ ks) (hg : R.SEQ_STATUS_STAGING.key 0 ∈ ks) : RegsKeptRas d e.dropStandby ks := by
  have hmem : RegsKeptRas d { e with
      sq := { e.sq with standby := [], sbyForms := [], staging := none }
      mem := { e.mem with tileSby := [] } } ks := h
  exact (hmem.wri 0 hs).wri 0 hg

theorem Dev.rdi_dropStandby_ne (d : Dev) {f : Fld} {i : Nat} (hs : f.key i ≠ R.SEQ_STATUS_STANDBY.key 0)
    (hg : f.key i ≠ R.SEQ_STATUS_STAGING.key 0) : d.dropStandby.rdi f i = d.rdi f i :=
  (Dev.rdi_wri_ne _ _ hg).trans (Dev.rdi_wri_ne _ _ hs)

/-- An uncorrectable error of the standby half with no arm pending and nothing being staged. -/
theorem planStoreError_standby {d : Dev} (hr : d.running = true) (ha : d.sq.arm = none) (hs : d.sq.staging = none) :
    planStoreError true d = (d.rasEvent 5 0x07 noClient 1).dropStandby := by
  simp [planStoreError, hr, ha, hs, b2n]

@[simp] theorem Dev.dropStandby_sq (d : Dev) :
    d.dropStandby.sq = { d.sq with standby := [], sbyForms := [], staging := none } := rfl
@[simp] theorem Dev.dropStandby_beat (d : Dev) : d.dropStandby.beat = d.beat := rfl
@[simp] theorem Dev.dropStandby_mem (d : Dev) : d.dropStandby.mem = { d.mem with tileSby := [] } := rfl

theorem Dev.dropStandby_standby (d : Dev) : d.dropStandby.rd R.SEQ_STATUS_STANDBY = 0 :=
  (Dev.rdi_wri_ne _ _ (by decide)).trans (Dev.rdi_wri_same _ _ _ _)

theorem Dev.dropStandby_staging (d : Dev) : d.dropStandby.rd R.SEQ_STATUS_STAGING = 0 := Dev.rdi_wri_same _ _ _ _

/-- What an error of the active half leaves. -/
theorem planStoreError_active_spec {d : Dev} (hr : d.running = true) (hp : d.planActive = true) :
    let e := planStoreError false d
    e.sq = { d.sq with haltPending := true } ∧ bitAt (e.rd R.RAS_SUM) 5 = true ∧ RegsKeptRas d e [] ∧
      e.beat = d.beat := by
  have hsum := d.rasEvent_sum_bit 0x07 noClient 0 true (cls := 5) (by decide)
  have hkept := ((RegsKept.refl d []).ras).rasEvent 5 0x07 noClient 0 true
  rw [planStoreError_active hr hp]
  exact ⟨by rw [Dev.setSq, Dev.rasEvent_sq], hsum, hkept, d.rasEvent_beat 5 0x07 noClient 0 true⟩

/-- What an error of the standby half leaves when nothing is pending or being staged. -/
theorem planStoreError_standby_spec {d : Dev} (hr : d.running = true) (ha : d.sq.arm = none)
    (hs : d.sq.staging = none) :
    let e := planStoreError true d
    e.sq = { d.sq with standby := [], sbyForms := [], staging := none } ∧ e.mem = { d.mem with tileSby := [] } ∧
      e.rd R.SEQ_STATUS_STANDBY = 0 ∧ e.rd R.SEQ_STATUS_STAGING = 0 ∧ bitAt (e.rd R.RAS_SUM) 5 = true ∧
      RegsKeptRas d e [R.SEQ_STATUS_STANDBY.key 0, R.SEQ_STATUS_STAGING.key 0] ∧ e.beat = d.beat := by
  have hsum := d.rasEvent_sum_bit 0x07 noClient 1 true (cls := 5) (by decide)
  have hkept := ((RegsKept.refl d [R.SEQ_STATUS_STANDBY.key 0, R.SEQ_STATUS_STAGING.key 0]).ras).rasEvent 5 0x07
    noClient 1 true
  rw [planStoreError_standby hr ha hs]
  refine ⟨by rw [Dev.dropStandby_sq, Dev.rasEvent_sq], by rw [Dev.dropStandby_mem, Dev.rasEvent_mem],
    Dev.dropStandby_standby _, Dev.dropStandby_staging _, ?_, Dev.dropStandby_kept hkept (by simp) (by simp), ?_⟩
  · rw [Dev.rd_eq, Dev.rdi_dropStandby_ne _ (by decide) (by decide)]; exact hsum
  · rw [Dev.dropStandby_beat, Dev.rasEvent_beat]

/-- A command that waits is found in the rings of its client alone. -/
theorem Dev.cmd?_congr {d e : Dev} (h : e.clients = d.clients) (c q : Nat) : e.cmd? c q = d.cmd? c q := by
  simp only [Dev.cmd?, Dev.cmds, Dev.client, h]

/-! ### Dropping the pending arm -/

@[simp] theorem Dev.noteRefusal_sq (d : Dev) (w : Nat) : (d.noteRefusal w).sq = d.sq := rfl
@[simp] theorem Dev.noteRefusal_beat (d : Dev) (w : Nat) : (d.noteRefusal w).beat = d.beat := rfl
@[simp] theorem Dev.noteRefusal_clients (d : Dev) (w : Nat) : (d.noteRefusal w).clients = d.clients := rfl
@[simp] theorem Dev.dropArm_sq (d : Dev) : d.dropArm.sq = { d.sq with arm := none } := rfl
@[simp] theorem Dev.dropArm_beat (d : Dev) : d.dropArm.beat = d.beat := rfl
/-- Keys that forgetting the pending arm writes: its status and HELD. -/
def armKeys : List Nat :=
  [R.SEQ_PLAN_ARM_PENDING.key 0, R.SEQ_PLAN_ARM_TARGET.key 0, R.SEQ_PLAN_ARM_WAIT.key 0, R.CAD_STATUS_HELD.key 0]

theorem Dev.dropArm_kept (d : Dev) : RegsKept d d.dropArm armKeys := by
  have harm := (((RegsKept.refl d armKeys).wri (f := R.SEQ_PLAN_ARM_PENDING) (i := 0) 0 (by decide)).wri
    (f := R.SEQ_PLAN_ARM_TARGET) (i := 0) 0 (by decide)).wri (f := R.SEQ_PLAN_ARM_WAIT) (i := 0) 0 (by decide)
  have hheld := harm.wri (f := R.CAD_STATUS_HELD) (i := 0) (b2n (d.cad.due.isSome && d.sq.frameAt.isSome)) (by decide)
  exact hheld.of_regs rfl

theorem Dev.noteRefusal_word (d : Dev) (w : Nat) : (d.noteRefusal w).rdi R.SEQ_REFUSE 0 = w % 2 ^ 32 :=
  (Dev.rdi_evt_ne _ (by decide)).trans (Dev.rdi_wri_same _ _ _ _)

theorem Dev.noteRefusal_event (d : Dev) (w : Nat) : (d.noteRefusal w).rdi R.HIF_EVT_PEND 1 = 1 := Dev.rdi_evt_same _ 1

/-- An arm whose command has ended fails by being forgotten. -/
theorem Dev.armFail_ended {d : Dev} {a : Arm} (st det : Nat) (ha : d.sq.arm = some a) (hc : d.cmd? 0 a.seqNo = none) :
    d.armFail st det = d.dropArm := by
  simp only [Dev.armFail, ha, hc]

/-- The device once the pending arm of the standby half is refused for the plan store. -/
def Dev.armLost (d : Dev) : Dev :=
  ((d.rasEvent 5 0x07 noClient 1).noteRefusal (refuseWord 14 (d.armPlan 0) 0xFFFF)).dropArm

theorem Dev.armLost_sq (d : Dev) : d.armLost.sq = { d.sq with arm := none } := by
  rw [Dev.armLost, Dev.dropArm_sq, Dev.noteRefusal_sq, Dev.rasEvent_sq]

theorem Dev.armLost_beat (d : Dev) : d.armLost.beat = d.beat := by
  rw [Dev.armLost, Dev.dropArm_beat, Dev.noteRefusal_beat, Dev.rasEvent_beat]

theorem Dev.armLost_refuse (d : Dev) :
    d.armLost.rdi R.SEQ_REFUSE 0 = refuseWord 14 (d.armPlan 0) 0xFFFF % 2 ^ 32 := by
  rw [Dev.armLost, (Dev.dropArm_kept _).rdi (by decide), Dev.noteRefusal_word]

theorem Dev.armLost_event (d : Dev) : d.armLost.rdi R.HIF_EVT_PEND 1 = 1 := by
  rw [Dev.armLost, (Dev.dropArm_kept _).rdi (by decide), Dev.noteRefusal_event]

/-- An uncorrectable error of the standby half drops its pending arm, whose command has ended, and then the half unless
another image is being staged. -/
theorem planStoreError_armed {d : Dev} {a : Arm} (hr : d.running = true) (ha : d.sq.arm = some a) (ht : a.target = 0)
    (hc : d.cmd? 0 a.seqNo = none) :
    planStoreError true d = if d.sq.staging.isSome then d.armLost else d.armLost.dropStandby := by
  have hplan : (d.rasEvent 5 0x07 noClient 1).armPlan 0 = d.armPlan 0 := by
    simp only [Dev.armPlan, Dev.armForms, Dev.rasEvent_sq]
  have hfail (w : Nat) := Dev.armFail_ended (d := (d.rasEvent 5 0x07 noClient 1).noteRefusal w) (a := a) stUnavailable w
    (by rw [Dev.noteRefusal_sq, Dev.rasEvent_sq, ha])
    ((Dev.cmd?_congr (by rw [Dev.noteRefusal_clients, Dev.rasEvent_clients]) _ _).trans hc)
  have hstaging : d.armLost.sq.staging = d.sq.staging := by rw [Dev.armLost_sq]
  rw [← hstaging, Dev.armLost]
  simp only [planStoreError, hr, Bool.not_true, Bool.false_eq_true, if_false, b2n, if_true, Dev.rasEvent_sq, ha,
    Option.any_some, ht, beq_self_eq_true, hplan, hfail]

/-- What the loss of a pending arm leaves (R971, R973). -/
theorem planStoreError_armed_spec {d : Dev} {a : Arm} (hr : d.running = true) (ha : d.sq.arm = some a)
    (ht : a.target = 0) (hc : d.cmd? 0 a.seqNo = none) :
    let e := planStoreError true d
    e.sq.arm = none ∧ e.rd R.SEQ_REFUSE = refuseWord 14 (d.armPlan 0) 0xFFFF % 2 ^ 32 ∧ e.rdi R.HIF_EVT_PEND 1 = 1 ∧
    (d.sq.staging = none → e.sq.standby = []) ∧ e.beat = d.beat := by
  rw [planStoreError_armed hr ha ht hc]
  by_cases hs : d.sq.staging.isSome
  · rw [if_pos hs]
    exact ⟨by rw [Dev.armLost_sq], d.armLost_refuse, d.armLost_event, fun h => by simp [h] at hs, d.armLost_beat⟩
  · rw [if_neg hs]
    refine ⟨by rw [Dev.dropStandby_sq, Dev.armLost_sq], ?_, ?_, fun _ => by rw [Dev.dropStandby_sq],
      (Dev.dropStandby_beat _).trans d.armLost_beat⟩
    · exact (Dev.rdi_dropStandby_ne _ (by decide) (by decide)).trans d.armLost_refuse
    · exact (Dev.rdi_dropStandby_ne _ (by decide) (by decide)).trans d.armLost_event

/-- An uncorrectable error of a control core's memory stops that core (R1013). -/
theorem coreMemoryError_spec {d : Dev} (core : Nat) (hr : d.running = true) :
    let e := coreMemoryError core d
    bitAt (e.rd R.RAS_SUM) 5 = true ∧ RegsKeptRas d e [] ∧ (core < 4 → core ∈ e.boot.dead) ∧
      (core = 4 → e.boot = d.boot) ∧ e.sq = d.sq ∧ e.beat = d.beat := by
  have hsum := d.rasEvent_sum_bit 0x15 noClient core true (cls := 5) (by decide)
  have hkept := ((RegsKept.refl d []).ras).rasEvent 5 0x15 noClient core true
  have hsq := d.rasEvent_sq 5 0x15 noClient core true
  have hbeat := d.rasEvent_beat 5 0x15 noClient core true
  have hboot := d.rasEvent_boot 5 0x15 noClient core true
  simp only [coreMemoryError, hr, Bool.not_true, Bool.false_eq_true, if_false]
  split
  · exact ⟨hsum, hkept, fun _ => List.mem_cons_self, by omega, hsq, hbeat⟩
  · next hdead => exact ⟨hsum, hkept, fun hc => by simpa [hc] using hdead, fun _ => hboot, hsq, hbeat⟩

end Sys2Proof.Machine
end

section
/-!
PROOFS. A thermal sample, first part: what the readings of sensors write and leave alone (R956, R958).
-/

namespace Sys2Proof.Machine

/-! ### What a thermal sample leaves alone before it judges the temperature -/

/-- From `d` to `e` a part of a thermal sample has run: it may write the registers of `ks`, the runs of the sensors and
references, and THERMAL events; a bit 7 of RAS_SUM that was set stays set. -/
structure ThermalKept (d e : Dev) (ks : List Nat) : Prop where
  time : e.beat = d.beat ∧ e.free = d.free ∧ e.out = d.out
  rst : e.rst = d.rst
  flags : e.thm.flags = d.thm.flags
  enter : e.thm.enter = d.thm.enter
  sum : bitAt (d.rd R.RAS_SUM) 7 = true → bitAt (e.rd R.RAS_SUM) 7 = true
  regs : RegsKeptRas d e ks

namespace ThermalKept

variable {d e f : Dev} {ks ks' : List Nat}

theorem refl (d : Dev) (ks : List Nat) : ThermalKept d d ks :=
  ⟨⟨rfl, rfl, rfl⟩, rfl, rfl, rfl, id, (RegsKept.refl d ks).ras⟩

theorem trans (h : ThermalKept d e ks) (h' : ThermalKept e f ks') : ThermalKept d f (ks ++ ks') where
  time := ⟨h'.time.1.trans h.time.1, h'.time.2.1.trans h.time.2.1, h'.time.2.2.trans h.time.2.2⟩
  rst := h'.rst.trans h.rst
  flags := h'.flags.trans h.flags
  enter := h'.enter.trans h.enter
  sum := fun hs => h'.sum (h.sum hs)
  regs := fun k hk hr => by
    obtain ⟨hks, hks'⟩ := not_or.mp fun hm => hk (List.mem_append.mpr hm)
    exact (h'.regs k hks' hr).trans (h.regs k hks hr)

theorem mono (h : ThermalKept d e ks) (hs : ks ⊆ ks') : ThermalKept d e ks' :=
  { h with regs := fun k hk => h.regs k fun hm => hk (hs hm) }

theorem wri (h : ThermalKept d e ks) {g : Fld} {i : Nat} (v : Nat) (hk : g.key i ∈ ks) (hs : g.key i < 0xa80000) :
    ThermalKept d (e.wri g i v) ks where
  time := h.time
  rst := h.rst
  flags := h.flags
  enter := h.enter
  sum := fun hd => by
    rw [Dev.rd_eq, Dev.rdi_wri_ne _ _ (Nat.ne_of_gt hs)]
    exact h.sum hd
  regs := h.regs.wri v hk

/-- Changes of the runs of sensors and references. -/
theorem setThm (h : ThermalKept d e ks) {g : Thm → Thm} (hf : (g e.thm).flags = e.thm.flags)
    (he : (g e.thm).enter = e.thm.enter) : ThermalKept d (e.setThm g) ks :=
  { h with flags := hf.trans h.flags, enter := he.trans h.enter }

theorem thermalEvent (h : ThermalKept d e ks) (detail : Nat) : ThermalKept d (e.thermalEvent detail) ks where
  time := by simpa [Dev.thermalEvent] using h.time
  rst := by simpa [Dev.thermalEvent] using h.rst
  flags := by simpa [Dev.thermalEvent] using h.flags
  enter := by simpa [Dev.thermalEvent] using h.enter
  sum := fun _ => e.rasEvent_sum_bit 0x03 noClient detail true (by decide)
  regs := h.regs.rasEvent _ _ _ _ _

theorem eventIf (h : ThermalKept d e ks) (p : Prop) [Decidable p] (detail : Nat) :
    ThermalKept d (if p then e.thermalEvent detail else e) ks := by
  split
  · exact h.thermalEvent detail
  · exact h

/-- A field of no listed register reads as before. -/
theorem rdi (h : ThermalKept d e ks) {g : Fld} {i : Nat} (hk : g.key i ∉ ks) (hr : rasKeys (g.key i) = false) :
    e.rdi g i = d.rdi g i := h.regs.rdi hk hr

end ThermalKept

/-! ### The readings of sensors -/

/-- Keys of a sensor's register. -/
def sensorKeys (i : Nat) : List Nat := [R.THM_SENS_READING.key i, R.THM_SENS_INVALID.key i, R.THM_SENS_EXCL.key i]

theorem sensorKeys_index {i k : Nat} (h : k ∈ sensorKeys i) : k = 0x180800 + 32 * i + (k - 0x180800) % 32 := by
  simp only [sensorKeys, Fld.key, R.THM_SENS_READING, R.THM_SENS_INVALID, R.THM_SENS_EXCL, List.mem_cons,
    List.not_mem_nil, or_false] at h
  omega

theorem rasKeys_sensor {i k : Nat} (h : k ∈ sensorKeys i) (hi : i < 48) : rasKeys k = false := by
  have hk := sensorKeys_index h
  simp only [rasKeys, Bool.or_eq_false_iff, decide_eq_false_iff_not, beq_eq_false_iff_ne]
  omega

/-- The registers of other sensors. -/
theorem not_mem_sensors {l : List Nat} {i k : Nat} (hk : k ∈ sensorKeys i) (hi : i ∉ l) : k ∉ l.flatMap sensorKeys := by
  rw [List.mem_flatMap]
  rintro ⟨j, hj, hkj⟩
  have hki := sensorKeys_index hk
  have hkj := sensorKeys_index hkj
  exact hi ((by omega : i = j) ▸ hj)

theorem not_mem_sensors_of_lt {l : List Nat} {k : Nat} (hk : k < 0x180800) : k ∉ l.flatMap sensorKeys := by
  rw [List.mem_flatMap]
  rintro ⟨j, -, hkj⟩
  have := sensorKeys_index hkj
  omega

/-- READING of a reading (R956). -/
def readingWord (r : Option Int) : Nat :=
  match r with
  | some v => ofInt 16 v
  | none => 0x8000

/-- A sensor's reading kept: its register, and whether it is excluded. -/
def Dev.sensorPut (d : Dev) (i : Nat) (r : Option Int) (now : Bool) : Dev :=
  ((d.wri R.THM_SENS_READING i (readingWord r)).wri R.THM_SENS_INVALID i (b2n (!readingOk r))).wri R.THM_SENS_EXCL i
    (b2n now)

theorem Dev.sensorSample_absent {d : Dev} {i : Nat} (r : Option Int) (h : d.sensorHere i = false) :
    d.sensorSample i r = d := by simp [Dev.sensorSample, h]

/-- Runs of a sensor after a reading. -/
def Thm.sensorRuns (t : Thm) (i bad good : Nat) : Thm :=
  { t with badRun := t.badRun.set i bad, goodRun := t.goodRun.set i good }

/-- Runs of invalid and of valid readings with this one. -/
def Thm.badNext (t : Thm) (i : Nat) (r : Option Int) : Nat := if readingOk r then 0 else nth 0 t.badRun i + 1
def Thm.goodNext (t : Thm) (i : Nat) (r : Option Int) : Nat := if readingOk r then nth 0 t.goodRun i + 1 else 0

/-- A sensor is excluded after this reading (R958). -/
def Dev.exclNext (d : Dev) (i : Nat) (r : Option Int) : Bool :=
  if d.isSeti R.THM_SENS_EXCL i then decide (d.thm.goodNext i r < 64) else decide (3 ≤ d.thm.badNext i r)

theorem Dev.sensorSample_present {d : Dev} {i : Nat} (r : Option Int) (h : d.sensorHere i = true) :
    d.sensorSample i r =
      (let e := (d.sensorPut i r (d.exclNext i r)).setThm fun t =>
         t.sensorRuns i (d.thm.badNext i r) (d.thm.goodNext i r)
       if d.isSeti R.THM_SENS_EXCL i = d.exclNext i r then e else e.thermalEvent (0x100 + i)) := by
  unfold Dev.sensorSample
  rw [if_neg (by simp [h])]
  rfl

theorem Dev.sensorPut_kept (d : Dev) {i : Nat} (hi : i < 48) (r : Option Int) (now : Bool) :
    ThermalKept d (d.sensorPut i r now) (sensorKeys i) := by
  have hlt {f : Fld} (h : f.stride = 32 ∧ f.bit < 0x180820) : f.key i < 0xa80000 := by simp only [Fld.key, h]; omega
  exact (((ThermalKept.refl d _).wri _ (by simp [sensorKeys]) (hlt (by decide))).wri _ (by simp [sensorKeys])
    (hlt (by decide))).wri _ (by simp [sensorKeys]) (hlt (by decide))

/-- A sensor's sample writes its own register, and an entry when the sensor is excluded or returns. -/
theorem Dev.sensorSample_kept (d : Dev) {i : Nat} (hi : i < 48) (r : Option Int) :
    ThermalKept d (d.sensorSample i r) (sensorKeys i) := by
  cases h : d.sensorHere i with
  | false => rw [Dev.sensorSample_absent r h]; exact ThermalKept.refl d _
  | true =>
    have hput := (d.sensorPut_kept hi r (d.exclNext i r)).setThm
      (g := fun t => t.sensorRuns i (d.thm.badNext i r) (d.thm.goodNext i r)) rfl rfl
    rw [Dev.sensorSample_present r h]
    dsimp only
    split
    · exact hput
    · exact hput.thermalEvent _

theorem Dev.sensorPut_own (d : Dev) (i : Nat) (r : Option Int) (now : Bool) :
    (d.sensorPut i r now).rdi R.THM_SENS_READING i = readingWord r % 2 ^ 16 ∧
    (d.sensorPut i r now).rdi R.THM_SENS_INVALID i = b2n (!readingOk r) ∧
    (d.sensorPut i r now).rdi R.THM_SENS_EXCL i = b2n now := by
  have hbit (b : Bool) : b2n b % 2 ^ 1 = b2n b := by cases b <;> rfl
  have hne {f g : Fld} (h : f.stride = 32 ∧ g.stride = 32 ∧ f.bit ≠ g.bit) : f.key i ≠ g.key i := by
    simp only [Fld.key, h]; omega
  refine ⟨?_, ?_, (Dev.rdi_wri_same _ _ _ _).trans (hbit now)⟩
  · rw [Dev.sensorPut, Dev.rdi_wri_ne _ _ (hne (by decide)),
      Dev.rdi_wri_ne _ _ (hne (by decide))]
    exact Dev.rdi_wri_same _ _ _ _
  · rw [Dev.sensorPut, Dev.rdi_wri_ne _ _ (hne (by decide)), Dev.rdi_wri_same]
    exact hbit _

/-- The sensor's own register after its sample, and the class of the entry when the sensor is excluded or returns. -/
theorem Dev.sensorSample_own {d : Dev} {i : Nat} (hi : i < 48) (r : Option Int) (h : d.sensorHere i = true) :
    let e := d.sensorSample i r
    e.rdi R.THM_SENS_READING i = readingWord r % 2 ^ 16 ∧
    e.rdi R.THM_SENS_INVALID i = b2n (!readingOk r) ∧ e.rdi R.THM_SENS_EXCL i = b2n (d.exclNext i r) ∧
    (d.isSeti R.THM_SENS_EXCL i ≠ d.exclNext i r → bitAt (e.rd R.RAS_SUM) 7 = true) := by
  have hput := d.sensorPut_own i r (d.exclNext i r)
  rw [Dev.sensorSample_present r h]
  dsimp only
  split
  · next heq => exact ⟨hput.1, hput.2.1, hput.2.2, fun hne => absurd heq hne⟩
  · have hev {f : Fld} (hk : f.key i ∈ sensorKeys i) (e : Dev) : (e.thermalEvent (0x100 + i)).rdi f i = e.rdi f i :=
      Dev.rdi_rasEvent _ _ _ _ _ _ (rasKeys_sensor hk hi)
    refine ⟨(hev (by simp [sensorKeys]) _).trans hput.1, (hev (by simp [sensorKeys]) _).trans hput.2.1,
      (hev (by simp [sensorKeys]) _).trans hput.2.2, fun _ => ?_⟩
    exact Dev.rasEvent_sum_bit _ _ _ _ _ (by decide)

theorem nth_set_ne {α : Type} (a : α) (l : List α) {i j : Nat} (x : α) (h : j ≠ i) :
    nth a (l.set j x) i = nth a l i := by
  simp only [nth, List.getElem?_set_ne h]

/-- The run of invalid readings of another sensor. -/
theorem Dev.sensorSample_badRun (d : Dev) {i j : Nat} (r : Option Int) (h : j ≠ i) :
    nth 0 (d.sensorSample j r).thm.badRun i = nth 0 d.thm.badRun i := by
  cases hj : d.sensorHere j with
  | false => rw [Dev.sensorSample_absent r hj]
  | true =>
    have hset := nth_set_ne 0 d.thm.badRun (d.thm.badNext j r) h
    rw [Dev.sensorSample_present r hj]
    dsimp only
    split
    · exact hset
    · rw [Dev.thermalEvent, Dev.rasEvent_thm]; exact hset

/-- The sensors of a list take their readings in turn. -/
def Dev.sampleSensors (d : Dev) (rs : List (Option Int)) (l : List Nat) : Dev :=
  l.foldl (fun a i => a.sensorSample i (nth none rs i)) d

theorem Dev.sampleSensors_append (d : Dev) (rs : List (Option Int)) (l l' : List Nat) :
    d.sampleSensors rs (l ++ l') = (d.sampleSensors rs l).sampleSensors rs l' := List.foldl_append

theorem Dev.sampleSensors_kept (rs : List (Option Int)) {l : List Nat} (hl : ∀ i ∈ l, i < 48) (d : Dev) :
    ThermalKept d (d.sampleSensors rs l) (l.flatMap sensorKeys) := by
  induction l generalizing d with
  | nil => exact ThermalKept.refl d _
  | cons i l ih =>
    exact (d.sensorSample_kept (hl i List.mem_cons_self) _).trans (ih (fun j hj => hl j (List.mem_cons_of_mem _ hj)) _)

theorem Dev.sampleSensors_badRun (rs : List (Option Int)) {l : List Nat} {i : Nat} (hi : i ∉ l) (d : Dev) :
    nth 0 (d.sampleSensors rs l).thm.badRun i = nth 0 d.thm.badRun i := by
  induction l generalizing d with
  | nil => rfl
  | cons j l ih =>
    obtain ⟨hij, hil⟩ := not_or.mp fun h => hi (List.mem_cons.mpr h)
    exact (ih hil _).trans (d.sensorSample_badRun _ (Ne.symm hij))

/-- Whether a sensor is there does not change in a sample. -/
theorem Dev.sensorHere_congr {d e : Dev} (h : e.rdi R.GLB_ID_VARIANT 0 = d.rdi R.GLB_ID_VARIANT 0) (i : Nat) :
    e.sensorHere i = d.sensorHere i := by
  unfold Dev.sensorHere
  rw [show e.variant = d.variant from h]

theorem Dev.sampleSensors_here (rs : List (Option Int)) {l : List Nat} (hl : ∀ i ∈ l, i < 48) (d : Dev) (i : Nat) :
    (d.sampleSensors rs l).sensorHere i = d.sensorHere i :=
  Dev.sensorHere_congr ((d.sampleSensors_kept rs hl).rdi (not_mem_sensors_of_lt (by decide)) (by decide)) i

/-- A sensor samples once, after some of the others and before the rest. -/
theorem exists_range_split {i n : Nat} (hi : i < n) : ∃ l l', List.range n = l ++ i :: l' ∧ i ∉ l ∧ i ∉ l' ∧
    (∀ j ∈ l, j < n) ∧ ∀ j ∈ l', j < n := by
  obtain ⟨l, l', hl⟩ := List.append_of_mem (List.mem_range.mpr hi)
  have hnd : (l ++ i :: l').Nodup := hl ▸ List.nodup_range
  have hmem (j : Nat) (hj : j ∈ l ++ i :: l') : j < n := List.mem_range.mp (hl ▸ hj)
  refine ⟨l, l', hl, fun h => ?_, ?_, fun j hj => hmem j (by simp [hj]), fun j hj => hmem j (by simp [hj])⟩
  · exact (List.nodup_append.mp hnd).2.2 i h i List.mem_cons_self rfl
  · exact (List.nodup_cons.mp (List.nodup_append.mp hnd).2.1).1

/-- What the samples of all sensors leave of one that was included: its register, and the class of its entry when the
sample excludes it. -/
theorem Dev.sampleSensors_own (d : Dev) (rs : List (Option Int)) {i : Nat} (hi : i < 48) (h : d.sensorHere i = true)
    (hx : d.rdi R.THM_SENS_EXCL i = 0) :
    let r := nth none rs i
    let e := d.sampleSensors rs (List.range 48)
    e.rdi R.THM_SENS_READING i = readingWord r % 2 ^ 16 ∧ e.rdi R.THM_SENS_INVALID i = b2n (!readingOk r) ∧
    e.rdi R.THM_SENS_EXCL i = b2n (decide (3 ≤ d.thm.badNext i r)) ∧
    (3 ≤ d.thm.badNext i r → bitAt (e.rd R.RAS_SUM) 7 = true) := by
  intro r
  obtain ⟨l, l', hl, hil, hil', hlt, hlt'⟩ := exists_range_split hi
  have hsplit : d.sampleSensors rs (List.range 48) = ((d.sampleSensors rs l).sensorSample i r).sampleSensors rs l' := by
    rw [hl, Dev.sampleSensors_append]; rfl
  have hbefore := d.sampleSensors_kept rs hlt
  have hafter := ((d.sampleSensors rs l).sensorSample i r).sampleSensors_kept rs hlt'
  have hkept {f : Fld} (hf : f.key i ∈ sensorKeys i) := hafter.rdi (not_mem_sensors hf hil') (rasKeys_sensor hf hi)
  have hmem : R.THM_SENS_EXCL.key i ∈ sensorKeys i := by simp [sensorKeys]
  have hx' : (d.sampleSensors rs l).rdi R.THM_SENS_EXCL i = 0 :=
    (hbefore.rdi (not_mem_sensors hmem hil) (rasKeys_sensor hmem hi)).trans hx
  have hnext : (d.sampleSensors rs l).exclNext i r = decide (3 ≤ d.thm.badNext i r) := by
    simp only [Dev.exclNext, Dev.isSeti_eq, hx', Thm.badNext, d.sampleSensors_badRun rs hil]
    rfl
  obtain ⟨hread, hinv, hexcl, hsum⟩ := (d.sampleSensors rs l).sensorSample_own hi r
    ((d.sampleSensors_here rs hlt i).trans h)
  rw [hnext] at hexcl hsum
  dsimp only
  rw [hsplit]
  exact ⟨(hkept (by simp [sensorKeys])).trans hread, (hkept (by simp [sensorKeys])).trans hinv,
    (hkept hmem).trans hexcl, fun h3 => hafter.sum (hsum (by simp [hx', h3]))⟩

end Sys2Proof.Machine
end

section
/-!
PROOFS. A thermal sample, second part: the cross-check, the temperature and the levels (R959-R962).
-/

namespace Sys2Proof.Machine

/-! ### The cross-check and the temperature -/

/-- Keys of THM_STATUS that a sample writes before it judges the temperature. -/
def thermalKeys : List Nat :=
  [R.THM_STATUS_XCHECK_PHO.key 0, R.THM_STATUS_XCHECK_PLI.key 0, R.THM_STATUS_EXCLUDED.key 0,
    R.THM_STATUS_SENS_DEGRADED.key 0, R.THM_STATUS_T.key 0]

/-- Runs of a reference above and within its group. -/
def Thm.refRuns (t : Thm) (g above within : Nat) : Thm :=
  { t with xAbove := t.xAbove.set g above, xWithin := t.xWithin.set g within }

theorem xcheckFld_mem (g : Nat) : (xcheckFld g).key 0 ∈ thermalKeys := by
  unfold xcheckFld; split <;> decide

theorem xcheckFld_inj {g k : Nat} (h : (xcheckFld k).key 0 = (xcheckFld g).key 0) : xcheckFld k = xcheckFld g := by
  unfold xcheckFld at h ⊢
  split at h <;> split at h <;> simp_all [Fld.key, R.THM_STATUS_XCHECK_PHO, R.THM_STATUS_XCHECK_PLI]

theorem xcheckFld_lt (g : Nat) : (xcheckFld g).key 0 < 0xa80000 := by
  unfold xcheckFld; split <;> decide

/-- A cross-check writes its bit, and an entry when the reference fails (R959). -/
theorem Dev.crossCheck_kept (d : Dev) (rs : List (Option Int)) (g : Nat) (ref : Int) :
    ThermalKept d (d.crossCheck rs g ref) thermalKeys := by
  have hflag (above within : Nat) (b : Bool) :
      ThermalKept d ((d.setThm fun t => t.refRuns g above within).flag (xcheckFld g) b) thermalKeys :=
    ((ThermalKept.refl d _).setThm (g := fun t => t.refRuns g above within) rfl rfl).wri _ (xcheckFld_mem g)
      (xcheckFld_lt g)
  unfold Dev.crossCheck
  split
  · exact ThermalKept.refl d _
  · exact (hflag _ _ _).eventIf _ _

/-- A reference at its group's highest reading passes the cross-check. -/
theorem Dev.crossCheck_agree {d : Dev} {rs : List (Option Int)} {g : Nat} {ref : Int}
    (ht : topOf (d.usable rs (16 * g) 16) = some ref) (hx : d.rdi (xcheckFld g) 0 = 0) :
    d.crossCheck rs g ref = (d.setThm fun t => t.refRuns g 0 0).wri (xcheckFld g) 0 0 := by
  simp [Dev.crossCheck, ht, hx, Thm.refRuns, b2n]

/-! ### The levels -/

/-- Samples in a row below the level's release, and at the level, with this one. -/
def Thm.leaveNext (t : Thm) (l : Nat) (v : Int) : Nat := if v < levelT l - 32 then nth 0 t.leave l + 1 else 0
def Thm.enterNext (t : Thm) (l : Nat) (v : Int) : Nat := if levelT l ≤ v then nth 0 t.enter l + 1 else 0

theorem Thm.level_of_set {t : Thm} {l : Nat} (v : Int) (hf : nth false t.flags l = true) :
    t.level l v = if 64 ≤ t.leaveNext l v
      then { t with flags := t.flags.set l false, leave := t.leave.set l 0, enter := t.enter.set l 0 }
      else { t with leave := t.leave.set l (t.leaveNext l v) } := by
  rw [Thm.level, if_pos hf]; rfl

theorem Thm.level_of_clear {t : Thm} {l : Nat} (v : Int) (hf : nth false t.flags l = false) :
    t.level l v = if 8 ≤ t.enterNext l v
      then { t with flags := t.flags.set l true, enter := t.enter.set l 0, leave := t.leave.set l 0 }
      else { t with enter := t.enter.set l (t.enterNext l v) } := by
  rw [Thm.level, if_neg (by simp [hf])]; rfl

/-- A level stays clear below its threshold, and before its eighth sample there. -/
theorem Thm.level_stays_clear {t : Thm} {l : Nat} {v : Int} (hf : nth false t.flags l = false)
    (h : v < levelT l ∨ nth 0 t.enter l < 7) : (t.level l v).flags = t.flags := by
  have hn : ¬8 ≤ t.enterNext l v := by unfold Thm.enterNext; split <;> omega
  rw [Thm.level_of_clear v hf, if_neg hn]

/-- A level stays set at its threshold. -/
theorem Thm.level_stays_set {t : Thm} {l : Nat} {v : Int} (hf : nth false t.flags l = true) (h : levelT l ≤ v) :
    (t.level l v).flags = t.flags ∧ (t.level l v).enter = t.enter := by
  have hn : ¬64 ≤ t.leaveNext l v := by unfold Thm.leaveNext; split <;> omega
  rw [Thm.level_of_set v hf, if_neg hn]
  exact ⟨rfl, rfl⟩

/-- The eighth sample at its threshold sets a level. -/
theorem Thm.level_becomes_set {t : Thm} {l : Nat} {v : Int} (hf : nth false t.flags l = false) (h : levelT l ≤ v)
    (he : nth 0 t.enter l = 7) : (t.level l v).flags = t.flags.set l true := by
  have hn : 8 ≤ t.enterNext l v := by rw [Thm.enterNext, if_pos h, he]
  rw [Thm.level_of_clear v hf, if_pos hn]

/-- A level counts its own samples. -/
theorem Thm.level_enter (t : Thm) {l m : Nat} (v : Int) (h : l ≠ m) :
    nth 0 (t.level l v).enter m = nth 0 t.enter m := by
  cases hf : nth false t.flags l with
  | false => rw [Thm.level_of_clear v hf]; split <;> exact nth_set_ne 0 _ _ h
  | true =>
    rw [Thm.level_of_set v hf]
    split
    · exact nth_set_ne 0 _ _ h
    · rfl

/-- The three levels in turn. -/
def Thm.levels (t : Thm) (v : Int) : Thm := ((t.level 0 v).level 1 v).level 2 v

/-- No level is entered by a sample below WARN, or within seven samples. -/
theorem Thm.levels_stay_clear {t : Thm} {v : Int} (hf : t.flags = [false, false, false])
    (h : v < 760 ∨ t.enter = [0, 0, 0]) : (t.levels v).flags = [false, false, false] := by
  have hlevel (l : Nat) (hl : l < 3) (u : Thm) (hu : u.flags = [false, false, false])
      (he : nth 0 u.enter l = nth 0 t.enter l) : (u.level l v).flags = [false, false, false] := by
    rw [← hu]
    refine Thm.level_stays_clear (by rw [hu]; interval_cases l <;> rfl) ?_
    rcases h with h | h
    · left; interval_cases l <;> simp [levelT] <;> omega
    · right; rw [he, h]; interval_cases l <;> decide
  refine hlevel 2 (by decide) _ (hlevel 1 (by decide) _ (hlevel 0 (by decide) _ hf rfl) ?_) ?_
  · exact t.level_enter v (by decide)
  · exact (Thm.level_enter _ v (by decide)).trans (t.level_enter v (by decide))

/-- The eighth sample at TRIP. -/
theorem Thm.levels_trip {t : Thm} {v : Int} (hf : t.flags = [true, true, false]) (he : t.enter = [0, 0, 7])
    (h : 920 ≤ v) : (t.levels v).flags = [true, true, true] := by
  obtain ⟨hf0, he0⟩ := Thm.level_stays_set (t := t) (l := 0) (v := v) (by rw [hf]; rfl) (by simp [levelT]; omega)
  obtain ⟨hf1, he1⟩ := Thm.level_stays_set (t := t.level 0 v) (l := 1) (v := v) (by rw [hf0, hf]; rfl)
    (by simp [levelT]; omega)
  have htrip := Thm.level_becomes_set (t := (t.level 0 v).level 1 v) (l := 2) (v := v) (by rw [hf1, hf0, hf]; rfl)
    (by simpa [levelT] using h) (by rw [he1, he0, he]; rfl)
  rw [Thm.levels, htrip, hf1, hf0, hf]
  rfl

theorem Thm.state_of_flags {t u : Thm} (h : t.flags = u.flags) : t.state = u.state := by simp only [Thm.state, h]

/-! ### A sample, step by step -/

/-- The device of a sample once its sensors are read (R956, R958). -/
def Dev.thermalSensed (d : Dev) (rs : List (Option Int)) : Dev :=
  (d.setThm fun t => { t with began := true }).sampleSensors rs (List.range 48)

/-- The cross-check of both references, and the count of excluded sensors (R958, R959). -/
def Dev.thermalCheck (d : Dev) (rs : List (Option Int)) (r14 r15 : Int) : Dev :=
  let e := (d.crossCheck rs 0 r14).crossCheck rs 1 r15
  let e := e.wr R.THM_STATUS_EXCLUDED e.excludedCount
  e.flag R.THM_STATUS_SENS_DEGRADED (decide (4 < e.excludedCount))

/-- The device of a sample once its sensors and references are read. -/
def Dev.thermalRead (d : Dev) (rs : List (Option Int)) (r14 r15 : Int) : Dev :=
  (d.thermalSensed rs).thermalCheck rs r14 r15

/-- The temperature taken, and the flags of WARN, HOT and TRIP that follow from it (R960-R962). -/
def Dev.thermalJudge (d : Dev) (v : Int) : Dev :=
  (d.wr R.THM_STATUS_T (ofInt 16 v)).setThm fun t => t.levels v

@[simp] theorem Dev.thermalJudge_thm (d : Dev) (v : Int) : (d.thermalJudge v).thm = d.thm.levels v := rfl
@[simp] theorem Dev.thermalJudge_beat (d : Dev) (v : Int) : (d.thermalJudge v).beat = d.beat := rfl
theorem Dev.thermalJudge_time (d : Dev) (v : Int) : (d.thermalJudge v).beat = d.beat ∧
    (d.thermalJudge v).free = d.free ∧ (d.thermalJudge v).out = d.out := ⟨rfl, rfl, rfl⟩
@[simp] theorem Dev.thermalJudge_rst (d : Dev) (v : Int) : (d.thermalJudge v).rst = d.rst := rfl

theorem Dev.thermalChange_same (d : Dev) (n : Nat) : d.thermalChange n n = d := if_pos rfl

theorem thermalSample_off {d : Dev} (rs : List (Option Int)) (r14 r15 : Int)
    (h : ¬(d.pw.vaux = true ∧ (d.railsUp = true ∨ d.thm.began = true))) : thermalSample rs r14 r15 d = d := by
  unfold thermalSample
  refine if_pos ?_
  revert h
  cases d.pw.vaux <;> cases d.railsUp <;> cases d.thm.began <;> simp

/-- A sample once the rails have been up: reading, then judging, then a change of state. -/
theorem thermalSample_on {d : Dev} (rs : List (Option Int)) (r14 r15 : Int)
    (h : d.pw.vaux = true ∧ (d.railsUp = true ∨ d.thm.began = true)) :
    thermalSample rs r14 r15 d =
      (let e := d.thermalRead rs r14 r15
       let f := e.thermalJudge (e.superT rs [r14, r15])
       f.thermalChange ((e.wr R.THM_STATUS_T (ofInt 16 (e.superT rs [r14, r15]))).rd R.THM_STATUS_STATE)
         f.thm.state) := by
  have hon : ¬(!d.pw.vaux || !(d.railsUp || d.thm.began)) = true := by
    revert h; cases d.pw.vaux <;> cases d.railsUp <;> cases d.thm.began <;> simp
  unfold thermalSample
  rw [if_neg hon]
  rfl

theorem Dev.thermalSensed_kept (d : Dev) (rs : List (Option Int)) :
    ThermalKept d (d.thermalSensed rs) ((List.range 48).flatMap sensorKeys) :=
  ((ThermalKept.refl d []).setThm (g := fun t => { t with began := true }) rfl rfl).trans
    (Dev.sampleSensors_kept rs (fun _ hi => List.mem_range.mp hi) _)

theorem Dev.thermalCheck_kept (d : Dev) (rs : List (Option Int)) (r14 r15 : Int) :
    ThermalKept d (d.thermalCheck rs r14 r15) thermalKeys := by
  have hboth := (d.crossCheck_kept rs 0 r14).trans (Dev.crossCheck_kept _ rs 1 r15)
  have hcross := hboth.mono (ks' := thermalKeys) (by simp)
  exact (hcross.wri _ (by decide) (by decide)).wri _ (by decide) (by decide)

theorem Dev.thermalRead_kept (d : Dev) (rs : List (Option Int)) (r14 r15 : Int) :
    ThermalKept d (d.thermalRead rs r14 r15) ((List.range 48).flatMap sensorKeys ++ thermalKeys) :=
  (d.thermalSensed_kept rs).trans (Dev.thermalCheck_kept _ rs r14 r15)

/-! ### A sample that leaves the state as it is -/

theorem thermalRead_state_key : R.THM_STATUS_STATE.key 0 ∉ (List.range 48).flatMap sensorKeys ++ thermalKeys := by
  rw [List.mem_append, not_or]
  exact ⟨not_mem_sensors_of_lt (by decide), by decide⟩

/-- What a sample makes of the device it has read, by the flags it had. -/
theorem thermalSample_judged {d : Dev} (rs : List (Option Int)) (r14 r15 : Int)
    (hon : d.pw.vaux = true ∧ (d.railsUp = true ∨ d.thm.began = true)) :
    let e := d.thermalRead rs r14 r15
    let f := e.thermalJudge (e.superT rs [r14, r15])
    thermalSample rs r14 r15 d = f.thermalChange (d.rd R.THM_STATUS_STATE) f.thm.state := by
  have hread : (d.thermalRead rs r14 r15).rd R.THM_STATUS_STATE = d.rd R.THM_STATUS_STATE :=
    (d.thermalRead_kept rs r14 r15).rdi thermalRead_state_key (by decide)
  intro e f
  have hwas : (e.wr R.THM_STATUS_T (ofInt 16 (e.superT rs [r14, r15]))).rd R.THM_STATUS_STATE =
      d.rd R.THM_STATUS_STATE :=
    (Dev.rdi_wri_ne _ _ (by decide)).trans hread
  rw [thermalSample_on rs r14 r15 hon]
  dsimp only
  rw [hwas]

/-- A sample that enters no level ends with its temperature. -/
theorem thermalSample_steady {d : Dev} (rs : List (Option Int)) (r14 r15 : Int)
    (hon : d.pw.vaux = true ∧ (d.railsUp = true ∨ d.thm.began = true)) (hs : d.rd R.THM_STATUS_STATE = 0)
    (hf : d.thm.flags = [false, false, false])
    (h : (d.thermalRead rs r14 r15).superT rs [r14, r15] < 760 ∨ d.thm.enter = [0, 0, 0]) :
    thermalSample rs r14 r15 d =
      (d.thermalRead rs r14 r15).thermalJudge ((d.thermalRead rs r14 r15).superT rs [r14, r15]) ∧
    (thermalSample rs r14 r15 d).thm.flags = [false, false, false] := by
  have hkept := d.thermalRead_kept rs r14 r15
  have hflags := Thm.levels_stay_clear (hkept.flags.trans hf) (h.imp_right hkept.enter.trans)
  have hsteady : thermalSample rs r14 r15 d = _ := thermalSample_judged rs r14 r15 hon
  have hclear : ({} : Thm).state = 0 := rfl
  rw [hs, Dev.thermalJudge_thm, Thm.state_of_flags (u := {}) hflags, hclear, Dev.thermalChange_same] at hsteady
  exact ⟨hsteady, by rw [hsteady, Dev.thermalJudge_thm]; exact hflags⟩

/-- Registers that judging the temperature leaves alone. -/
theorem Dev.rdi_thermalJudge (d : Dev) (v : Int) {f : Fld} {i : Nat} (h : f.key i ≠ R.THM_STATUS_T.key 0) :
    (d.thermalJudge v).rdi f i = d.rdi f i := Dev.rdi_wri_ne _ _ h

theorem ofInt_lt (w : Nat) (v : Int) : ofInt w v < 2 ^ w := by
  have hpos : (0 : Int) < ((2 ^ w : Nat) : Int) := by exact_mod_cast Nat.two_pow_pos w
  have h1 := Int.emod_nonneg v (Int.ne_of_gt hpos)
  have h2 := Int.emod_lt_of_pos v hpos
  unfold ofInt; omega

theorem Dev.thermalJudge_T (d : Dev) (v : Int) : (d.thermalJudge v).rd R.THM_STATUS_T = ofInt 16 v :=
  (Dev.rdi_wri_same _ R.THM_STATUS_T 0 _).trans (Nat.mod_eq_of_lt (ofInt_lt 16 v))

/-! ### The third invalid reading in a row -/

theorem not_mem_thermalKeys {i k : Nat} (h : k ∈ sensorKeys i) : k ∉ thermalKeys := fun ht => by
  have hk := sensorKeys_index h
  have hle : ∀ k ∈ thermalKeys, k < 0x180800 := by decide
  exact absurd (hle k ht) (by omega)

/-- A sensor's register after the whole sample is what its reading left. -/
theorem Dev.thermalRead_sensor (d : Dev) (rs : List (Option Int)) (r14 r15 : Int) {f : Fld} {i : Nat} (hi : i < 48)
    (hf : f.key i ∈ sensorKeys i) : (d.thermalRead rs r14 r15).rdi f i = (d.thermalSensed rs).rdi f i :=
  (Dev.thermalCheck_kept _ rs r14 r15).rdi (not_mem_thermalKeys hf) (rasKeys_sensor hf hi)

/-- The samples of one that was included, as `Dev.sampleSensors_own` gives them. -/
theorem Dev.thermalRead_own (d : Dev) (rs : List (Option Int)) (r14 r15 : Int) {i : Nat} (hi : i < 48)
    (h : d.sensorHere i = true) (hx : d.rdi R.THM_SENS_EXCL i = 0) :
    let r := nth none rs i
    let e := d.thermalRead rs r14 r15
    e.rdi R.THM_SENS_READING i = readingWord r % 2 ^ 16 ∧ e.rdi R.THM_SENS_INVALID i = b2n (!readingOk r) ∧
    e.rdi R.THM_SENS_EXCL i = b2n (decide (3 ≤ d.thm.badNext i r)) ∧
    (3 ≤ d.thm.badNext i r → bitAt (e.rd R.RAS_SUM) 7 = true) := by
  obtain ⟨hread, hinv, hexcl, hsum⟩ := (d.setThm fun t => { t with began := true }).sampleSensors_own rs hi h hx
  exact ⟨(d.thermalRead_sensor rs r14 r15 hi (by simp [sensorKeys])).trans hread,
    (d.thermalRead_sensor rs r14 r15 hi (by simp [sensorKeys])).trans hinv,
    (d.thermalRead_sensor rs r14 r15 hi (by simp [sensorKeys])).trans hexcl,
    fun h3 => (Dev.thermalCheck_kept _ rs r14 r15).sum (hsum h3)⟩

theorem sensor_key_ne_T {i k : Nat} (h : k ∈ sensorKeys i) : k ≠ R.THM_STATUS_T.key 0 := fun he =>
  not_mem_thermalKeys h (he ▸ by decide)

/-- The third invalid reading in a row excludes a sensor (R958). -/
theorem thermalSample_excludes {d : Dev} {rs : List (Option Int)} (r14 r15 : Int) {i : Nat} (hi : i < 48)
    (hon : d.pw.vaux = true ∧ (d.railsUp = true ∨ d.thm.began = true)) (hh : d.sensorHere i = true)
    (hr : nth none rs i = none) (hb : nth 0 d.thm.badRun i = 2) (hx : d.rdi R.THM_SENS_EXCL i = 0)
    (hf : d.thm.flags = [false, false, false]) (he : d.thm.enter = [0, 0, 0]) (hs : d.rd R.THM_STATUS_STATE = 0) :
    let e := thermalSample rs r14 r15 d
    e.rdi R.THM_SENS_EXCL i = 1 ∧ e.rdi R.THM_SENS_INVALID i = 1 ∧ e.rdi R.THM_SENS_READING i = 0x8000 ∧
      bitAt (e.rd R.RAS_SUM) 7 = true ∧ e.rd R.THM_STATUS_STATE = 0 ∧ e.beat = d.beat := by
  have hkept := d.thermalRead_kept rs r14 r15
  have hstate := hkept.rdi thermalRead_state_key (by decide)
  obtain ⟨hread, hinv, hexcl, hsum⟩ := d.thermalRead_own rs r14 r15 hi hh hx
  have hbad : d.thm.badNext i (nth none rs i) = 3 := by rw [hr, Thm.badNext, hb]; rfl
  rw [hbad] at hexcl hsum
  rw [hr] at hread hinv
  have hjudge {f : Fld} (hk : f.key i ∈ sensorKeys i) (v : Int) :=
    (d.thermalRead rs r14 r15).rdi_thermalJudge v (sensor_key_ne_T hk)
  dsimp only
  rw [(thermalSample_steady rs r14 r15 hon hs hf (.inr he)).1]
  refine ⟨(hjudge (by simp [sensorKeys]) _).trans hexcl, (hjudge (by simp [sensorKeys]) _).trans hinv,
    (hjudge (by simp [sensorKeys]) _).trans hread, ?_, ?_,
    (Dev.thermalJudge_beat _ _).trans hkept.time.1⟩
  · rw [Dev.rd_eq, Dev.rdi_thermalJudge _ _ (by decide)]; exact hsum (by decide)
  · rw [Dev.rd_eq, Dev.rdi_thermalJudge _ _ (by decide)]; exact hstate.trans hs

/-! ### One reading of all sensors -/

/-- The fold of `topOf` over readings that are all one value. -/
theorem topOf_eq_of_forall {l : List Int} {v : Int} (hne : l ≠ []) (h : ∀ x ∈ l, x = v) : topOf l = some v := by
  have hrep : l = List.replicate l.length v := List.eq_replicate_iff.mpr ⟨rfl, h⟩
  obtain ⟨n, hn⟩ : ∃ n, l.length = n + 1 := Nat.exists_eq_succ_of_ne_zero (by simpa using hne)
  rw [hrep, hn]
  clear hrep hn
  induction n with
  | zero => rfl
  | succ n ih =>
    rw [List.replicate_succ', topOf, List.foldl_append]
    rw [topOf] at ih
    rw [ih]
    simp

section Uniform

/-- Every sensor reads one valid value, none of them is excluded and neither reference has failed. -/
structure UniformSample (d : Dev) (v : Int) (rs : List (Option Int)) : Prop where
  rs : rs = List.replicate 48 (some v)
  valid : -320 ≤ v ∧ v ≤ 1200
  excl : ∀ j < 48, d.sensorHere j = true → d.rdi R.THM_SENS_EXCL j = 0
  xcheck : ∀ g, d.rdi (xcheckFld g) 0 = 0

variable {d e : Dev} {v : Int} {rs : List (Option Int)}

theorem UniformSample.reading (h : UniformSample d v rs) {i : Nat} (hi : i < 48) : nth none rs i = some v := by
  rw [h.rs, nth, List.getElem?_replicate_of_lt hi, Option.getD_some]

theorem UniformSample.readingOk (h : UniformSample d v rs) : readingOk (some v) = true := by
  simp [Machine.readingOk, h.valid]

theorem ThermalKept.here {ks : List Nat} (h : ThermalKept d e ks) (hk : R.GLB_ID_VARIANT.key 0 ∉ ks) (i : Nat) :
    e.sensorHere i = d.sensorHere i := Dev.sensorHere_congr (h.rdi hk (by decide)) i

/-- Reading the sensors excludes none. -/
theorem UniformSample.sensed (h : UniformSample d v rs) : UniformSample (d.thermalSensed rs) v rs := by
  have hkept := d.thermalSensed_kept rs
  refine ⟨h.rs, h.valid, fun j hj hh => ?_, fun g => ?_⟩
  · have hhere : d.sensorHere j = true := (hkept.here (not_mem_sensors_of_lt (by decide)) j).symm.trans hh
    obtain ⟨-, -, hexcl, -⟩ :=
      (d.setThm fun t => { t with began := true }).sampleSensors_own rs hj hhere (h.excl j hj hhere)
    refine hexcl.trans ?_
    rw [h.reading hj, Thm.badNext, h.readingOk]
    rfl
  · refine (hkept.rdi (not_mem_sensors_of_lt ?_) ?_).trans (h.xcheck g) <;> unfold xcheckFld <;> split <;> decide

/-- Writes of THM_STATUS that leave the two XCHECK bits clear. -/
theorem UniformSample.checked (h : UniformSample d v rs) (hk : ThermalKept d e thermalKeys)
    (hx : ∀ g, e.rdi (xcheckFld g) 0 = 0) : UniformSample e v rs := by
  refine ⟨h.rs, h.valid, fun j hj hh => ?_, hx⟩
  have hmem : R.THM_SENS_EXCL.key j ∈ sensorKeys j := by simp [sensorKeys]
  exact (hk.rdi (not_mem_thermalKeys hmem) (rasKeys_sensor hmem hj)).trans
    (h.excl j hj ((hk.here (by decide) j).symm.trans hh))

/-- The readings that count are all that value. -/
theorem UniformSample.usable (h : UniformSample d v rs) (lo n : Nat) : ∀ x ∈ d.usable rs lo n, x = v := by
  intro x hx
  obtain ⟨i, hi, hx⟩ := List.mem_filterMap.mp hx
  split at hx
  · by_cases hlt : i < 48
    · rw [h.reading hlt] at hx; exact (Option.some.inj hx).symm
    · rw [h.rs, nth, List.getElem?_eq_none (by simpa using hlt)] at hx; cases hx
  · cases hx

/-- A present sensor's reading counts. -/
theorem UniformSample.mem_usable (h : UniformSample d v rs) {lo n : Nat} (hn : 0 < n) (hlo : lo < 48)
    (hh : d.sensorHere lo = true) : v ∈ d.usable rs lo n := by
  refine List.mem_filterMap.mpr ⟨lo, List.mem_map.mpr ⟨0, List.mem_range.mpr hn, Nat.zero_add lo⟩, ?_⟩
  rw [h.reading hlo, h.readingOk, Dev.isSeti_eq, h.excl lo hlo hh, hh]
  rfl

theorem UniformSample.mem_usable_group (h : UniformSample d v rs) {g : Nat} (hg : g < 2) :
    v ∈ d.usable rs (16 * g) 16 := by
  refine h.mem_usable (by decide) (by omega) ?_
  interval_cases g <;> rfl

/-- A cross-check with a reference at that value leaves the sample uniform. -/
theorem UniformSample.crossCheck (h : UniformSample d v rs) {g : Nat} (hg : g < 2) :
    UniformSample (d.crossCheck rs g v) v rs := by
  have htop := topOf_eq_of_forall (List.ne_nil_of_mem (h.mem_usable_group hg)) (h.usable (16 * g) 16)
  refine h.checked (d.crossCheck_kept rs g v) fun k => ?_
  rw [Dev.crossCheck_agree htop (h.xcheck g)]
  by_cases hk : (xcheckFld k).key 0 = (xcheckFld g).key 0
  · rw [xcheckFld_inj hk]
    exact (Dev.rdi_wri_same _ _ _ _).trans (Nat.zero_mod _)
  · exact (Dev.rdi_wri_ne _ _ hk).trans (h.xcheck k)

/-- No present sensor is excluded. -/
theorem UniformSample.excludedCount (h : UniformSample d v rs) : d.excludedCount = 0 := by
  rw [Dev.excludedCount, countIf, List.length_eq_zero_iff, List.filter_eq_nil_iff]
  intro i hi
  cases hh : d.sensorHere i with
  | false => simp
  | true => simp [h.excl i (List.mem_range.mp hi) hh]

/-- Both references stand behind their groups, and take no part in the maximum. -/
theorem UniformSample.refsIn (h : UniformSample d v rs) (refs : List Int) : d.refsIn rs refs = [] := by
  refine List.filterMap_eq_nil_iff.mpr fun g hg => if_neg ?_
  have hne := List.ne_nil_of_mem (h.mem_usable_group (List.mem_range.mp hg))
  rw [Dev.isSet_eq, h.xcheck g]
  simpa using hne

/-- The temperature is the value. -/
theorem UniformSample.superT (h : UniformSample d v rs) (refs : List Int) : d.superT rs refs = v := by
  have hne := List.ne_nil_of_mem (h.mem_usable (lo := 0) (n := 48) (by decide) (by decide) rfl)
  rw [Dev.superT, h.refsIn, List.append_nil, topOf_eq_of_forall hne (h.usable 0 48), h.excludedCount]
  rfl

theorem xcheckFld_ne {f : Fld} (g : Nat)
    (h : f.key 0 ≠ R.THM_STATUS_XCHECK_PHO.key 0 ∧ f.key 0 ≠ R.THM_STATUS_XCHECK_PLI.key 0) :
    (xcheckFld g).key 0 ≠ f.key 0 := by
  unfold xcheckFld; split
  · exact h.1.symm
  · exact h.2.symm

/-- The references and the count of excluded sensors leave the sample uniform, with none excluded. -/
theorem UniformSample.thermalCheck (h : UniformSample d v rs) :
    UniformSample (d.thermalCheck rs v v) v rs ∧ (d.thermalCheck rs v v).rd R.THM_STATUS_EXCLUDED = 0 := by
  have hcross := (h.crossCheck (g := 0) (by decide)).crossCheck (g := 1) (by decide)
  have hkeep {f : Fld} (e : Dev) (n : Nat) (he : UniformSample e v rs) (hf : f.key 0 ∈ thermalKeys ∧ f.key 0 < 0xa80000)
      (hx : f.key 0 ≠ R.THM_STATUS_XCHECK_PHO.key 0 ∧ f.key 0 ≠ R.THM_STATUS_XCHECK_PLI.key 0) :
      UniformSample (e.wri f 0 n) v rs :=
    he.checked ((ThermalKept.refl e _).wri n hf.1 hf.2) fun g =>
      (Dev.rdi_wri_ne _ _ (xcheckFld_ne g hx)).trans (he.xcheck g)
  have hcount := hcross.excludedCount
  refine ⟨hkeep _ _ (hkeep _ _ hcross (by decide) (by decide)) (by decide) (by decide), ?_⟩
  refine (Dev.rdi_wri_ne _ _ (by decide)).trans ((Dev.rdi_wri_same _ _ _ _).trans ?_)
  rw [hcount]
  rfl

/-- What reading one valid value everywhere leaves. -/
theorem UniformSample.thermalRead (h : UniformSample d v rs) :
    (d.thermalRead rs v v).superT rs [v, v] = v ∧ (d.thermalRead rs v v).rd R.THM_STATUS_EXCLUDED = 0 :=
  ⟨h.sensed.thermalCheck.1.superT _, h.sensed.thermalCheck.2⟩

/-- A sensor that reads that value. -/
theorem UniformSample.thermalRead_own (h : UniformSample d v rs) {i : Nat} (hi : i < 48) (hh : d.sensorHere i = true) :
    let e := d.thermalRead rs v v
    e.rdi R.THM_SENS_READING i = ofInt 16 v ∧ e.rdi R.THM_SENS_INVALID i = 0 ∧ e.rdi R.THM_SENS_EXCL i = 0 := by
  obtain ⟨hread, hinv, hexcl, -⟩ := d.thermalRead_own rs v v hi hh (h.excl i hi hh)
  rw [h.reading hi] at hread hinv hexcl
  rw [Thm.badNext, h.readingOk] at hexcl
  rw [h.readingOk] at hinv
  exact ⟨hread.trans (Nat.mod_eq_of_lt (ofInt_lt 16 v)), hinv, hexcl⟩

end Uniform

end Sys2Proof.Machine
end

section
/-!
PROOFS. A thermal sample, third part: the state that follows, and the TRIP source (R963, R965). Statement O56.
-/

namespace Sys2Proof.Machine

/-- A sample below WARN makes the one reading the temperature and leaves the state NORMAL. -/
theorem thermalSample_normal {d : Dev} {v : Int} {rs : List (Option Int)} (h : UniformSample d v rs)
    (hon : d.pw.vaux = true ∧ (d.railsUp = true ∨ d.thm.began = true)) (hv : v < 760)
    (hf : d.thm.flags = [false, false, false]) (hs : d.rd R.THM_STATUS_STATE = 0) {i : Nat} (hi : i < 48) :
    let e := thermalSample rs v v d
    e.rd R.THM_STATUS_T = ofInt 16 v ∧ e.rd R.THM_STATUS_STATE = 0 ∧ e.rd R.THM_STATUS_EXCLUDED = 0 ∧
      (d.sensorHere i = true → e.rdi R.THM_SENS_READING i = ofInt 16 v ∧ e.rdi R.THM_SENS_INVALID i = 0 ∧
        e.rdi R.THM_SENS_EXCL i = 0) ∧ e.thm.flags = [false, false, false] ∧ e.rst = d.rst ∧ e.beat = d.beat := by
  have hkept := d.thermalRead_kept rs v v
  obtain ⟨hT, hexcluded⟩ := h.thermalRead
  obtain ⟨heq, hflags⟩ := thermalSample_steady rs v v hon hs hf (.inl (by rw [hT]; exact hv))
  intro e
  have he : e = (d.thermalRead rs v v).thermalJudge v := heq.trans (by rw [hT])
  have hkeep {f : Fld} {j : Nat} (hk : f.key j ≠ R.THM_STATUS_T.key 0) :
      e.rdi f j = (d.thermalRead rs v v).rdi f j := by
    rw [he]; exact Dev.rdi_thermalJudge _ _ hk
  refine ⟨by rw [he]; exact Dev.thermalJudge_T _ _, ?_, ?_, fun hh => ?_, hflags, ?_, ?_⟩
  · exact (hkeep (by decide)).trans ((hkept.rdi thermalRead_state_key (by decide)).trans hs)
  · exact (hkeep (by decide)).trans hexcluded
  · obtain ⟨hread, hinv, hexcl⟩ := h.thermalRead_own hi hh
    exact ⟨(hkeep (sensor_key_ne_T (i := i) (by simp [sensorKeys]))).trans hread,
      (hkeep (sensor_key_ne_T (i := i) (by simp [sensorKeys]))).trans hinv,
      (hkeep (sensor_key_ne_T (i := i) (by simp [sensorKeys]))).trans hexcl⟩
  · rw [he, Dev.thermalJudge_rst]; exact hkept.rst
  · rw [he, Dev.thermalJudge_beat]; exact hkept.time.1

/-! ### The TRIP source -/

/-- The device with a source's cause bit set and, when it is a level, the source asserted. -/
def Dev.raised (d : Dev) (src : Src) (level : Bool) : Dev :=
  if level then
    { d.cause src with
      rst := { (d.cause src).rst with asserted := src :: (d.cause src).rst.asserted.filter (· ≠ src) } }
  else d.cause src

theorem Dev.assertSrc_starts {d : Dev} (src : Src) (r : Reach) (level : Bool) (h : d.rst.ep = none) :
    d.assertSrc src r level = (d.raised src level).startEpisode src r := d.assertSrc_none src r level h

theorem Dev.raised_cause (d : Dev) (src : Src) (level : Bool) :
    (d.raised src level).rdi R.RST_CAUSE 0 = putBit (d.rdi R.RST_CAUSE 0) src.bit true := by
  cases level <;> exact d.cause_rd src

theorem Dev.raised_time (d : Dev) (src : Src) (level : Bool) :
    (d.raised src level).beat = d.beat ∧ (d.raised src level).free = d.free ∧ (d.raised src level).out = d.out := by
  cases level <;> exact ⟨rfl, rfl, rfl⟩

theorem Dev.rdi_raised_ne (d : Dev) (src : Src) (level : Bool) {f : Fld} {i : Nat} (h : f.key i ≠ R.RST_CAUSE.key 0) :
    (d.raised src level).rdi f i = d.rdi f i := by
  cases level <;> exact Dev.rdi_wri_ne _ _ h

/-- A source that asserts outside an episode starts one of its own (R153). -/
theorem Dev.assertSrc_sourceJoined {d : Dev} (src : Src) (r : Reach) (level : Bool) (h : d.rst.ep = none) :
    SourceJoined d (d.assertSrc src r level) src r := by
  obtain ⟨hbeat, hfree, hout, -⟩ := (d.raised src level).takeReach_parts r
  obtain ⟨hbeat', hfree', hout'⟩ := d.raised_time src level
  rw [Dev.assertSrc_starts src r level h]
  refine ⟨((d.raised src level).takeReach_cause r).trans (d.raised_cause src level), ⟨_, rfl, rfl, ?_, ?_, ?_⟩,
    hbeat.trans hbeat', hfree.trans hfree', hout.trans hout'⟩
  · rw [bitAt_eq_testBit, Nat.testBit_two_pow_self]
  · cases r <;> rfl
  · rw [h]; exact hbeat.trans hbeat'

/-- Starting an episode is its reach and the record of the episode. -/
theorem Dev.startEpisode_parts (d : Dev) (src : Src) (r : Reach) :
    (d.startEpisode src r).regs = (d.takeReach r).regs ∧ (d.startEpisode src r).thm = (d.takeReach r).thm ∧
    (d.startEpisode src r).rst.asserted = (d.takeReach r).rst.asserted := by
  rw [Dev.startEpisode]
  generalize d.takeReach r = t
  exact ⟨rfl, rfl, rfl⟩

/-- A source that joined after changes which touch neither the cause nor the episode joined from before them. -/
theorem SourceJoined.of_before {d d' e : Dev} {src : Src} {r : Reach} (h : SourceJoined d' e src r)
    (hc : d'.rd R.RST_CAUSE = d.rd R.RST_CAUSE) (hr : d'.rst = d.rst)
    (ht : d'.beat = d.beat ∧ d'.free = d.free ∧ d'.out = d.out) : SourceJoined d e src r where
  cause := hc ▸ h.cause
  episode := by
    have hepisode := h.episode
    rwa [hr, ht.1] at hepisode
  time := by rw [← ht.1, ← ht.2.1, ← ht.2.2]; exact h.time

/-- A source of DEVICE reach leaves what only FULL reach clears: such a register but the cause, the alert and the parked
legs. -/
theorem Dev.rdi_assertSrc_device {d : Dev} (src : Src) (level : Bool) (h : d.rst.ep = none) {f g : Fld} {i : Nat}
    (hf : fldAt (f.key i) = some g) (hc : g.cls.clearedBy .device = false) (hk : reachKeys (f.key i) = false) :
    (d.assertSrc src .device level).rdi f i = d.rdi f i := by
  obtain ⟨hcause, halert, hpark⟩ := reachKeys_eq_false hk
  have htaken : ((d.raised src level).takeReach .device).rdi f i = (d.raised src level).rdi f i :=
    Dev.rdi_of_sfind (by rw [Dev.sfind_takeReach _ _ _ _ hf hpark halert, hc]; rfl)
  rw [Dev.assertSrc_starts src _ level h, Dev.rdi_congr (Dev.startEpisode_parts _ src .device).1, htaken]
  exact d.rdi_raised_ne src level hcause

theorem Dev.alertChange_thm (d : Dev) (was : List Bool) : (d.alertChange was).thm = d.thm := by
  rw [Dev.alertChange_regs_only]

theorem Dev.takeReach_device_thm (d : Dev) : (d.takeReach .device).thm = d.thm := by
  have happly : (d.applyReach .device).thm = d.thm := by
    simp only [Dev.applyReach, Dev.unparkAll]
    rw [Dev.setWord_regs_only]
    simp [Dev.clearRegs]
  rcases d.takeReach_cases .device with h | h <;> rw [h]
  · rw [happly]
  · rw [Dev.alertChange_thm, happly]

theorem Dev.assertSrc_device_thm {d : Dev} (src : Src) (level : Bool) (h : d.rst.ep = none) :
    (d.assertSrc src .device level).thm = d.thm := by
  rw [Dev.assertSrc_starts src _ level h, (Dev.startEpisode_parts _ src .device).2.1, Dev.takeReach_device_thm]
  cases level <;> rfl

/-- A level source stays asserted in the episode that it starts with a DEVICE reach. -/
theorem Dev.mem_asserted_device {d : Dev} (src : Src) (h : d.rst.ep = none) :
    src ∈ (d.assertSrc src .device true).rst.asserted := by
  obtain ⟨-, -, -, -, -, -, -, -, -, -, -, -, -, hrst, -⟩ := (d.raised src true).takeReach_parts .device
  rw [Dev.assertSrc_starts src _ _ h, (Dev.startEpisode_parts _ src .device).2.2, hrst, Dev.applyReach_asserted]
  exact List.mem_cons_self

/-! ### The eighth sample at TRIP -/

/-- The device of a change to TRIP before its source asserts (R965). -/
def Dev.tripNoted (d : Dev) : Dev := ((d.wr R.THM_STATUS_STATE 3).thermalEvent 3).evt 2

theorem Dev.thermalChange_trip (d : Dev) : d.thermalChange 2 3 = d.tripNoted.assertSrc .therm .device true := rfl

theorem Dev.tripNoted_parts (d : Dev) : d.tripNoted.beat = d.beat ∧ d.tripNoted.free = d.free ∧
    d.tripNoted.out = d.out ∧ d.tripNoted.rst = d.rst ∧ d.tripNoted.thm = d.thm := by
  simp [Dev.tripNoted, Dev.thermalEvent]

theorem Dev.rdi_tripNoted (d : Dev) {f : Fld} {i : Nat} (hr : rasKeys (f.key i) = false) :
    d.tripNoted.rdi f i = (d.wri R.THM_STATUS_STATE 0 3).rdi f i :=
  (Dev.rdi_evt _ (by decide) hr).trans (Dev.rdi_rasEvent _ _ _ _ _ _ hr)

theorem fldAt_THM_STATUS_STATE : fldAt (R.THM_STATUS_STATE.key 0) = some R.THM_STATUS_STATE := by decide +kernel

theorem fldAt_THM_STATUS_T : fldAt (R.THM_STATUS_T.key 0) = some R.THM_STATUS_T := by decide +kernel

/-- What a change from HOT to TRIP leaves outside an episode. -/
theorem Dev.thermalChange_trip_spec {d : Dev} (h : d.rst.ep = none) :
    let e := d.thermalChange 2 3
    e.rd R.THM_STATUS_STATE = 3 ∧ e.rd R.THM_STATUS_T = d.rd R.THM_STATUS_T ∧ e.thm = d.thm ∧
    SourceJoined d e .therm .device ∧ Src.therm ∈ e.rst.asserted := by
  obtain ⟨hbeat, hfree, hout, hrst, hthm⟩ := d.tripNoted_parts
  have hep : d.tripNoted.rst.ep = none := by rw [hrst, h]
  have hjoin := Dev.assertSrc_sourceJoined .therm .device true hep
  have hcause : d.tripNoted.rd R.RST_CAUSE = d.rd R.RST_CAUSE :=
    (d.rdi_tripNoted (by decide)).trans (Dev.rdi_wri_ne _ _ (by decide))
  intro e
  have he : e = d.tripNoted.assertSrc .therm .device true := d.thermalChange_trip
  have hread {f : Fld} (hf : fldAt (f.key 0) = some f) (hc : f.cls.clearedBy .device = false)
      (hk : reachKeys (f.key 0) = false) (hr : rasKeys (f.key 0) = false) :
      e.rd f = (d.wri R.THM_STATUS_STATE 0 3).rd f := by
    rw [he, Dev.rd_eq, Dev.rdi_assertSrc_device .therm true hep hf hc hk, d.rdi_tripNoted hr]; rfl
  refine ⟨?_, ?_, ?_, ?_, ?_⟩
  · rw [hread fldAt_THM_STATUS_STATE (by decide) (by decide) (by decide)]
    exact Dev.rdi_wri_same _ _ _ _
  · rw [hread fldAt_THM_STATUS_T (by decide) (by decide) (by decide)]
    exact Dev.rdi_wri_ne _ _ (by decide)
  · rw [he, Dev.assertSrc_device_thm .therm true hep, hthm]
  · rw [he]
    exact hjoin.of_before hcause hrst ⟨hbeat, hfree, hout⟩
  · rw [he]; exact Dev.mem_asserted_device .therm hep

/-- The eighth sample at TRIP enters it and joins the THERM source. -/
theorem thermalSample_trip {d : Dev} {v : Int} {rs : List (Option Int)} (h : UniformSample d v rs)
    (hon : d.pw.vaux = true ∧ (d.railsUp = true ∨ d.thm.began = true)) (hep : d.rst.ep = none) (hv : 920 ≤ v)
    (hf : d.thm.flags = [true, true, false]) (he : d.thm.enter = [0, 0, 7]) (hs : d.rd R.THM_STATUS_STATE = 2) :
    let e := thermalSample rs v v d
    e.rd R.THM_STATUS_STATE = 3 ∧ e.thermN = true ∧ e.thm.flags = [true, true, true] ∧
      e.rd R.THM_STATUS_T = ofInt 16 v ∧ SourceJoined d e .therm .device ∧ Src.therm ∈ e.rst.asserted := by
  have hkept := d.thermalRead_kept rs v v
  have hflags : ((d.thermalRead rs v v).thm.levels v).flags = [true, true, true] :=
    Thm.levels_trip (hkept.flags.trans hf) (hkept.enter.trans he) hv
  have hstate : ((d.thermalRead rs v v).thm.levels v).state = 3 :=
    Thm.state_of_flags (u := { flags := [true, true, true] }) hflags
  have hjudged : thermalSample rs v v d = _ := thermalSample_judged rs v v hon
  rw [h.thermalRead.1, hs, Dev.thermalJudge_thm, hstate] at hjudged
  have hrst : ((d.thermalRead rs v v).thermalJudge v).rst = d.rst := (Dev.thermalJudge_rst _ _).trans hkept.rst
  obtain ⟨hst, hT, hthm, hjoin, hmem⟩ :=
    Dev.thermalChange_trip_spec (d := (d.thermalRead rs v v).thermalJudge v) (by rw [hrst, hep])
  have htime : ((d.thermalRead rs v v).thermalJudge v).beat = d.beat ∧
      ((d.thermalRead rs v v).thermalJudge v).free = d.free ∧ ((d.thermalRead rs v v).thermalJudge v).out = d.out := by
    obtain ⟨hbeat, hfree, hout⟩ := (d.thermalRead rs v v).thermalJudge_time v
    rw [hbeat, hfree, hout]; exact hkept.time
  have hcause : ((d.thermalRead rs v v).thermalJudge v).rd R.RST_CAUSE = d.rd R.RST_CAUSE :=
    (Dev.rdi_thermalJudge _ _ (by decide)).trans (hkept.rdi (by
      rw [List.mem_append, not_or]; exact ⟨not_mem_sensors_of_lt (by decide), by decide⟩) (by decide))
  intro e
  have heq : e = ((d.thermalRead rs v v).thermalJudge v).thermalChange 2 3 := hjudged
  rw [← heq] at hst hT hthm hjoin hmem
  refine ⟨hst, by rw [Dev.thermN, hst]; rfl, by rw [hthm, Dev.thermalJudge_thm, hflags],
    hT.trans (Dev.thermalJudge_T _ _),
    hjoin.of_before hcause hrst htime, hmem⟩

/-- Settles O56: each clause is what its operation's lemma says, for samples, heartbeats, memory errors and events. -/
theorem supervisionAndErrors : Obligations.SupervisionAndErrors := by
  unfold Obligations.SupervisionAndErrors
  intro s rs r14 r15 v i core cls blk cl detail mg a hi hcore hcls d w top on joins
  have hsample : exec (.thermalSample rs r14 r15) s = onDev (thermalSample rs r14 r15) s := rfl
  have hheart (hc : core < 4) : exec (.heartbeatTimeout core) s = .next { s with dev := heartbeatTimeout core d } :=
    congrArg (unit · (onDev (heartbeatTimeout core) s)) (decide_eq_true hc)
  have hcore5 : exec (.controlCoreMemoryUe core) s = .next { s with dev := coreMemoryError core d } :=
    congrArg (unit · (onDev (coreMemoryError core) s)) (decide_eq_true hcore)
  have hstore : exec (.planStoreUncorrectableError mg) s = .next { s with dev := planStoreError mg d } := rfl
  have huniform (hrs : rs = List.replicate 48 (some v)) (hv : -320 ≤ v ∧ v ≤ 1200)
      (hx : (List.range 48).all (fun j => d.rdi R.THM_SENS_EXCL j == 0) = true)
      (hpho : d.rd R.THM_STATUS_XCHECK_PHO = 0) (hpli : d.rd R.THM_STATUS_XCHECK_PLI = 0) : UniformSample d v rs :=
    { rs := hrs
      valid := hv
      excl := fun j hj _ => by simpa using List.all_eq_true.mp hx j (List.mem_range.mpr hj)
      xcheck := fun g => by unfold xcheckFld; split <;> assumption }
  refine ⟨?off, ?normal, ?excludes, ?trip, ?asleep, ?heartbeat, ?idle, ?active, ?standby, ?armed, ?core, ?merged,
    ?entered, ?lost, ?channel, ?stack⟩
  case off => intro h; rw [hsample, onDev_eq, thermalSample_off rs r14 r15 h]
  case normal =>
    rintro hon hrs rfl rfl hlo hhi hx hpho hpli hf hs
    exact Gives.of_onDev _ hsample
      (thermalSample_normal (huniform hrs ⟨hlo, by omega⟩ hx hpho hpli) hon hhi hf hs hi)
  case excludes =>
    intro hon hh hr hb _ hx hf he hs
    exact Gives.of_onDev _ hsample (thermalSample_excludes r14 r15 hi hon hh hr hb hx hf he hs)
  case trip =>
    rintro hon hrun hrs rfl rfl hlo hhi hx hpho hpli hf he hs
    have hep : d.rst.ep = none := Option.isNone_iff_eq_none.mp (Bool.and_eq_true_iff.mp hrun).2
    exact Gives.of_onDev _ hsample
      (thermalSample_trip (huniform hrs ⟨by omega, hhi⟩ hx hpho hpli) hon hep hlo hf he hs)
  case asleep => intro hc hr; rw [hheart hc, heartbeatTimeout_asleep core hr]
  case heartbeat => intro hc hr; rw [hheart hc, heartbeatTimeout_ready core hr]
  case idle =>
    intro hr
    rw [hstore, hcore5, planStoreError_idle mg hr, coreMemoryError_idle core hr]
    exact ⟨rfl, rfl⟩
  case active => exact fun hr hp => Gives.of_onDev (planStoreError false) rfl (planStoreError_active_spec hr hp)
  case standby => exact fun hr ha hs => Gives.of_onDev (planStoreError true) rfl (planStoreError_standby_spec hr ha hs)
  case armed =>
    exact fun hr ha ht hc => Gives.of_onDev (planStoreError true) rfl (planStoreError_armed_spec hr ha ht hc)
  case core => exact fun hr => ⟨_, hcore5, coreMemoryError_spec core hr⟩
  case merged => exact fun h => Dev.rasEvent_merged detail hcls h
  case entered => exact fun h hroom => Dev.rasEvent_newEntry detail hcls h hroom
  case lost => exact fun h hfull => Dev.rasEvent_lost detail hcls h hfull
  case channel => exact fun hroom hf => Dev.failChannel_entry (Nat.mod_lt _ (by decide)) hf hroom
  case stack => exact fun hroom hf => Dev.failStack_entry (Nat.mod_lt _ (by decide)) hf hroom

end Sys2Proof.Machine
end

section
/-!
PROOFS. SMBus management: what each command does once its request is acted on (R976-R986). Statement O57.
-/

namespace Sys2Proof.Machine

/-! ### The requests and what they do -/

/-- What a command does once acted on: STATUS, the reply data, and the device (SUP.4). -/
def smbAct (code : Nat) (a : List Nat) (d : Dev) : Nat × List Nat × Dev :=
  match code with
  | 0x01 => (0, d.statusRecord, d)
  | 0x02 => (0, d.telemetryRecord, d)
  | 0x03 => if u8 a 0 < 4 then (0, d.sensorPage (u8 a 0), d) else (3, [], d)
  | 0x04 => (0, d.rasEntry (u8 a 0) ++ [d.rd R.RAS_LOG_WR_NEXT], d)
  | 0x05 => (0, [], d.rasClear (u16 a 0))
  | 0x06 => (0, d.identityRecord, d)
  | 0x07 => (0, leBytes 2 (d.rd R.MGT_ALERT_MASK), d.setAlertMask (u16 a 0))
  | 0x10 =>
    if u8 a 0 ≠ 0xA5 then (3, [], d)
    else if d.sealedMode then (2, [], d)
    else (0, [], { d with mgt := { d.mgt with resetDue := true } })
  | _ =>
    if 4 ≤ u8 a 0 then (3, [], d)
    else if !d.isSeti R.PWR_STATUS_RAIL_FAULT (u8 a 0) then (2, [], d)
    else (if d.pw.seq = .falling then 1 else 0, [], d.railRetry (u8 a 0))

/-- The requests that carry arguments, with the code and the argument count of each. -/
def smbCommands (req : SmbReq) : List (Instr × Nat × Nat) :=
  [(.status req, 1, 0), (.telemetry req, 2, 0), (.sensors req, 3, 1), (.errlog req, 4, 1),
    (.errclr req, 5, 2), (.identity req, 6, 0), (.alertMask req, 7, 2), (.resetDevice req, 0x10, 1),
    (.railRetry req, 0x11, 1)]

/-- Each command is a request that is judged alike and acted on by its own rule. -/
theorem exec_smbCommand {req : SmbReq} {op : Instr} {code nargs : Nat} (h : (op, code, nargs) ∈ smbCommands req)
    (s : State) : exec op s = .next { s with dev := s.dev.smbRequest code nargs req (smbAct code) } := by
  simp only [smbCommands, List.mem_cons, Prod.mk.injEq, List.not_mem_nil, or_false] at h
  rcases h with ⟨rfl, rfl, rfl⟩ | ⟨rfl, rfl, rfl⟩ | ⟨rfl, rfl, rfl⟩ | ⟨rfl, rfl, rfl⟩ | ⟨rfl, rfl, rfl⟩ |
    ⟨rfl, rfl, rfl⟩ | ⟨rfl, rfl, rfl⟩ | ⟨rfl, rfl, rfl⟩ | ⟨rfl, rfl, rfl⟩ <;> rfl

theorem smbCommands_code_lt {req : SmbReq} {op : Instr} {code nargs : Nat} (h : (op, code, nargs) ∈ smbCommands req) :
    code < 256 := by
  simp only [smbCommands, List.mem_cons, Prod.mk.injEq, List.not_mem_nil, or_false] at h
  omega

/-! ### How a request is judged -/

/-- A request's code is acknowledged (R164, R242, R243, R979). -/
def Dev.SmbAcked (d : Dev) (code : Nat) : Prop :=
  d.smbAwake = true ∧ d.rd R.MGT_STATUS_PENDING = 0 ∧
    (d.fwReady = true ∨ code = 1 ∨ code = 2 ∨ (code = 0x11 ∧ d.word R.PWR_STATUS_RAIL_FAULT ≠ 0))

/-- It is the last request acted on. -/
def Dev.SmbCached (d : Dev) (code : Nat) (req : SmbReq) : Prop :=
  d.mgt.cached.map (fun r => (r.code, r.payload)) = some (code, req.payload)

/-- A request that is acknowledged, whole and new. -/
def Dev.SmbGood (d : Dev) (code : Nat) (req : SmbReq) : Prop :=
  d.SmbAcked code ∧ req.pecOk = true ∧ req.payload ≠ [] ∧ ¬d.SmbCached code req

theorem Dev.pending_lt (d : Dev) : d.rdi R.MGT_STATUS_PENDING 0 < 2 := d.rdi_lt _ _

theorem Dev.smbAck_iff (d : Dev) (code : Nat) : d.smbAwake = true → (d.smbAck code = true ↔ d.SmbAcked code) := by
  intro hw
  have hp : (d.rdi R.MGT_STATUS_PENDING 0 = 1) ↔ ¬d.rdi R.MGT_STATUS_PENDING 0 = 0 := by
    have := d.pending_lt; omega
  have hf : d.railFaults = d.word R.PWR_STATUS_RAIL_FAULT := rfl
  simp only [Dev.smbAck, Dev.SmbAcked, Bool.and_eq_true, Bool.or_eq_true, beq_iff_eq, decide_eq_true_eq, hf]
  simp [hw, hp, or_assoc]

theorem Dev.smbRepeat_iff (d : Dev) (code : Nat) (req : SmbReq) :
    d.smbRepeat code req.payload = true ↔ d.SmbCached code req := by
  unfold Dev.smbRepeat Dev.SmbCached
  cases d.mgt.cached <;> simp

section Judge

variable {d : Dev} {code nargs : Nat} {req : SmbReq} {act : List Nat → Dev → Nat × List Nat × Dev}

theorem Dev.smbRequest_asleep (h : d.smbAwake = false) : d.smbRequest code nargs req act = d.emit .smbNack := by
  simp [Dev.smbRequest, h]

theorem Dev.smbRequest_refused (hw : d.smbAwake = true) (h : ¬d.SmbAcked code) :
    d.smbRequest code nargs req act = (d.inc R.MGT_CNT0_NACK).emit .smbNack := by
  have hack : d.smbAck code = false := Bool.eq_false_iff.mpr fun ha => h ((d.smbAck_iff code hw).mp ha)
  simp only [Dev.smbRequest, hw, hack, Bool.not_true, Bool.false_eq_true, if_false, Bool.not_false, if_true]

theorem Dev.smbRequest_damaged (h : d.SmbAcked code) (hp : req.pecOk = false ∨ req.payload = []) :
    d.smbRequest code nargs req act = ((d.inc R.MGT_CNT0_PEC_ERR).rasEvent 12 0x16 noClient 0).emit .smbNack := by
  have hbad : (!req.pecOk || req.payload.isEmpty) = true := by
    rcases hp with hp | hp <;> simp [hp]
  simp only [Dev.smbRequest, h.1, (d.smbAck_iff code h.1).mpr h, hbad, Bool.not_true, Bool.false_eq_true,
    if_false, if_true]

theorem Dev.smbRequest_repeated (h : d.SmbAcked code) (hp : req.pecOk = true) (hne : req.payload ≠ [])
    (hc : d.SmbCached code req) : d.smbRequest code nargs req act = d.inc R.MGT_CNT1_REPEAT := by
  simp only [Dev.smbRequest, h.1, (d.smbAck_iff code h.1).mpr h, hp, List.isEmpty_eq_false_iff.mpr hne,
    (d.smbRepeat_iff code req).mpr hc, Bool.not_true, Bool.false_eq_true, Bool.or_self, if_false, if_true]

theorem Dev.smbRequest_good (h : d.SmbGood code req) : d.smbRequest code nargs req act =
    if req.payload.length ≠ nargs + 1 then d.smbDone code req.payload 3 []
    else (act (req.payload.drop 1) d).2.2.smbDone code req.payload (act (req.payload.drop 1) d).1
      (act (req.payload.drop 1) d).2.1 := by
  obtain ⟨hack, hp, hne, hnew⟩ := h
  have hrep : d.smbRepeat code req.payload = false :=
    Bool.eq_false_iff.mpr fun hr => hnew ((d.smbRepeat_iff code req).mp hr)
  simp only [Dev.smbRequest, hack.1, (d.smbAck_iff code hack.1).mpr hack, hp, List.isEmpty_eq_false_iff.mpr hne, hrep,
    Bool.not_true, Bool.false_eq_true, Bool.or_self, if_false]

theorem Dev.smbRequest_badCount (h : d.SmbGood code req) (hl : req.payload.length ≠ nargs + 1) :
    d.smbRequest code nargs req act = d.smbDone code req.payload 3 [] := by
  rw [Dev.smbRequest_good h, if_pos hl]

/-- A request acted on, by what its rule gives. -/
theorem Dev.smbRequest_acted (h : d.SmbGood code req) (hl : req.payload.length = nargs + 1) {st : Nat} {data : List Nat}
    {e : Dev} (ha : act (req.payload.drop 1) d = (st, data, e)) :
    d.smbRequest code nargs req act = e.smbDone code req.payload st data := by
  rw [Dev.smbRequest_good h, if_neg (not_not.mpr hl), ha]

end Judge

/-! ### A request that is done -/

/-- Keys that completing a request writes. -/
def smbKeys : List Nat := [R.MGT_STATUS_LASTCMD.key 0, R.MGT_STATUS_SEQ.key 0, R.MGT_STATUS_PENDING.key 0]

/-- From `d` to `e` a request is completed with a STATUS and reply data (R977, R978). -/
def SmbDone (d e : Dev) (code : Nat) (req : SmbReq) (st : Nat) (data : List Nat) : Prop :=
  e.mgt.cached = some ⟨code, req.payload, st, data⟩ ∧ e.rd R.MGT_STATUS_LASTCMD = code ∧
    e.rd R.MGT_STATUS_SEQ = u8 req.payload 0 ∧ e.rd R.MGT_STATUS_PENDING = (if st = 1 then 1 else 0) ∧ e.beat = d.beat

theorem u8_lt (l : List Nat) (o : Nat) : u8 l o < 256 := by
  unfold u8
  match h : bytesAt l o 1 with
  | [] => decide
  | [b] => simp only [leVal]; omega
  | b :: c :: r =>
    have hlen : (bytesAt l o 1).length ≤ 1 := List.length_take_le _ _
    rw [h] at hlen; simp at hlen

theorem Dev.smbDone_done {d e : Dev} {code : Nat} (req : SmbReq) (st : Nat) (data : List Nat) (hc : code < 256)
    (hb : e.beat = d.beat) : SmbDone d (e.smbDone code req.payload st data) code req st data := by
  refine ⟨rfl, ?_, ?_, ?_, hb⟩
  · exact (Dev.rdi_wri_ne _ _ (by decide)).trans ((Dev.rdi_wri_same _ _ _ _).trans (Nat.mod_eq_of_lt hc))
  · exact (Dev.rdi_wri_same _ _ _ _).trans (Nat.mod_eq_of_lt (u8_lt _ _))
  · refine (Dev.rdi_wri_ne _ _ (by decide)).trans ((Dev.rdi_wri_ne _ _ (by decide)).trans ?_)
    refine (Dev.rdi_wri_same _ _ _ _).trans ?_
    by_cases h : st = 1 <;> simp [h, b2n, R.MGT_STATUS_PENDING]

theorem RegsKept.smbDone {d e : Dev} {ks : List Nat} (h : RegsKept d e ks) (code : Nat) (req : SmbReq) (st : Nat)
    (data : List Nat) (hk : smbKeys ⊆ ks) : RegsKept d (e.smbDone code req.payload st data) ks := by
  have hcache (m : Mgt) : RegsKept d { e with mgt := m } ks := h
  exact (((hcache _).wri (f := R.MGT_STATUS_PENDING) (i := 0) _ (hk (by decide))).wri
    (f := R.MGT_STATUS_LASTCMD) (i := 0) _ (hk (by decide))).wri (f := R.MGT_STATUS_SEQ) (i := 0) _ (hk (by decide))

theorem Dev.smbDone_pw (d : Dev) (code : Nat) (p : List Nat) (st : Nat) (data : List Nat) :
    (d.smbDone code p st data).pw = d.pw := rfl

theorem Dev.rdi_smbDone_ne (d : Dev) (code : Nat) (p : List Nat) (st : Nat) (data : List Nat) {f : Fld} {i : Nat}
    (h : f.key i ∉ smbKeys) : (d.smbDone code p st data).rdi f i = d.rdi f i :=
  ((RegsKept.refl d smbKeys).smbDone code ⟨p, true⟩ st data (List.Subset.refl _)).rdi h

/-- A failure of the interface raises its counter and writes a MGMT entry (R978, R980). -/
theorem Dev.smbFailure_spec (d : Dev) {f : Fld} (hf : rasKeys (f.key 0) = false) :
    let e := (d.inc f).rasEvent 12 0x16 noClient 0
    e.rd f = satAdd f.w (d.rd f) 1 ∧ bitAt (e.rd R.RAS_SUM) 12 = true ∧ e.mgt = d.mgt ∧ e.out = d.out ∧
    RegsKeptRas d e [f.key 0] ∧ e.beat = d.beat := by
  refine ⟨?_, Dev.rasEvent_sum_bit _ _ _ _ _ (by decide), Dev.rasEvent_mgt _ _ _ _ _ _,
    Dev.rasEvent_out _ _ _ _ _ _, ?_, Dev.rasEvent_beat _ _ _ _ _ _⟩
  · exact (Dev.rdi_rasEvent _ _ _ _ _ _ hf).trans (d.rdi_inci_same f 0)
  · exact (RegsKept.wri (RegsKept.refl _ _) _ (by simp)).ras.rasEvent _ _ _ _ _

/-! ### RAIL_RETRY takes no time -/

theorem Dev.retryReply_beat (d : Dev) (st : Nat) : (d.retryReply st).beat = d.beat := by
  unfold Dev.retryReply; split <;> rfl

theorem Dev.nextRamp_beat (d : Dev) : d.nextRamp.beat = d.beat := by
  unfold Dev.nextRamp
  split
  · split <;> rfl
  · rfl

theorem Dev.softStartDone_beat (d : Dev) : d.softStartDone.beat = d.beat := by
  unfold Dev.softStartDone; split <;> rfl

theorem Dev.startUpSeq_beat (d : Dev) : (d.startUpSeq true).beat = d.beat := by
  unfold Dev.startUpSeq
  split
  · rfl
  · rw [Dev.softStartDone_beat, Dev.nextRamp_beat]
    exact d.retryReply_beat 0

theorem Dev.foldl_beat {α : Type} (g : Dev → α → Dev) (hg : ∀ e a, (g e a).beat = e.beat) (l : List α) (d : Dev) :
    (l.foldl g d).beat = d.beat := by
  induction l generalizing d with
  | nil => rfl
  | cons a l ih => exact (ih _).trans (hg d a)

theorem Dev.railRetry_beat (d : Dev) (rail : Nat) : (d.railRetry rail).beat = d.beat := by
  refine (Dev.startUpSeq_beat _).trans (Dev.foldl_beat _ (fun e l => ?_) _ _)
  split <;> rfl

/-! ### What each command gives -/

section Given

variable {s : State} {req : SmbReq} {op : Instr} {code nargs : Nat}

/-- A request gives what `smbRequest` leaves. -/
theorem Gives.of_smb (h : (op, code, nargs) ∈ smbCommands req) {P : Dev → Prop}
    (hP : P (s.dev.smbRequest code nargs req (smbAct code))) : Gives op s P := ⟨_, exec_smbCommand h s, hP⟩

/-- A request acted on completes what its rule gives. -/
theorem Gives.of_smbAct (h : (op, code, nargs) ∈ smbCommands req)
    (ha : s.dev.SmbGood code req ∧ req.payload.length = nargs + 1) {st : Nat} {data : List Nat} {e : Dev}
    (hact : smbAct code (req.payload.drop 1) s.dev = (st, data, e)) (hb : e.beat = s.dev.beat) {P : Dev → Prop}
    (hP : SmbDone s.dev (e.smbDone code req.payload st data) code req st data →
      P (e.smbDone code req.payload st data)) :
    Gives op s P := by
  refine Gives.of_smb h ?_
  rw [Dev.smbRequest_acted ha.1 ha.2 hact]
  exact hP (Dev.smbDone_done req st data (smbCommands_code_lt h) hb)

/-- One that changes nothing but the cached reply. -/
theorem Gives.of_smbReport (h : (op, code, nargs) ∈ smbCommands req)
    (ha : s.dev.SmbGood code req ∧ req.payload.length = nargs + 1) {st : Nat} {data : List Nat}
    (hact : smbAct code (req.payload.drop 1) s.dev = (st, data, s.dev)) : Gives op s (fun e =>
      SmbDone s.dev e code req st data ∧ RegsKept s.dev e smbKeys ∧ e.out = s.dev.out ∧
      e.mgt.resetDue = s.dev.mgt.resetDue) :=
  Gives.of_smbAct h ha hact rfl fun hd =>
    ⟨hd, (RegsKept.refl _ _).smbDone code req st data (List.Subset.refl _), rfl, rfl⟩

theorem Gives.imp {c : Instr} {P Q : Dev → Prop} (h : Gives c s P) (hPQ : ∀ e, P e → Q e) : Gives c s Q := by
  obtain ⟨e, he, hp⟩ := h
  exact ⟨e, he, hPQ e hp⟩

/-- Not acknowledged. -/
theorem smb_refused (h : (op, code, nargs) ∈ smbCommands req) (hw : s.dev.smbAwake = true) (hn : ¬s.dev.SmbAcked code) :
    Gives op s (fun e => e.rd R.MGT_CNT0_NACK = satAdd 16 (s.dev.rd R.MGT_CNT0_NACK) 1 ∧
      RegsKept s.dev e [R.MGT_CNT0_NACK.key 0] ∧ e = { s.dev with regs := e.regs, out := .smbNack :: s.dev.out }) := by
  refine Gives.of_smb h ?_
  rw [Dev.smbRequest_refused hw hn]
  have hkept : RegsKept s.dev (s.dev.inc R.MGT_CNT0_NACK) [R.MGT_CNT0_NACK.key 0] :=
    (RegsKept.refl _ _).wri _ (by simp)
  exact ⟨s.dev.rdi_inci_same R.MGT_CNT0_NACK 0, hkept.of_regs rfl, rfl⟩

/-- Damaged on its way. -/
theorem smb_damaged (h : (op, code, nargs) ∈ smbCommands req) (ha : s.dev.SmbAcked code)
    (hp : req.pecOk = false ∨ req.payload = []) : Gives op s (fun e =>
      e.rd R.MGT_CNT0_PEC_ERR = satAdd 16 (s.dev.rd R.MGT_CNT0_PEC_ERR) 1 ∧ bitAt (e.rd R.RAS_SUM) 12 = true ∧
      e.mgt = s.dev.mgt ∧ e.out = .smbNack :: s.dev.out ∧ RegsKeptRas s.dev e [R.MGT_CNT0_PEC_ERR.key 0] ∧
      e.beat = s.dev.beat) := by
  refine Gives.of_smb h ?_
  rw [Dev.smbRequest_damaged ha hp]
  obtain ⟨hcount, hsum, hmgt, hout, hkept, hbeat⟩ := s.dev.smbFailure_spec (f := R.MGT_CNT0_PEC_ERR) (by decide)
  exact ⟨hcount, hsum, hmgt, congrArg (_ :: ·) hout, hkept, hbeat⟩

/-- The last one again. -/
theorem smb_repeated (h : (op, code, nargs) ∈ smbCommands req) (ha : s.dev.SmbAcked code) (hp : req.pecOk = true)
    (hne : req.payload ≠ []) (hc : s.dev.SmbCached code req) : Gives op s (fun e =>
      e.rd R.MGT_CNT1_REPEAT = satAdd 16 (s.dev.rd R.MGT_CNT1_REPEAT) 1 ∧
      RegsKept s.dev e [R.MGT_CNT1_REPEAT.key 0] ∧ e = { s.dev with regs := e.regs } ∧
      e.replyBlock = s.dev.replyBlock) := by
  refine Gives.of_smb h ?_
  rw [Dev.smbRequest_repeated ha hp hne hc]
  exact ⟨Dev.rdi_inci_same _ _ _, (RegsKept.refl _ _).wri _ (by simp), rfl, rfl⟩

/-- With a wrong argument count. -/
theorem smb_badCount (h : (op, code, nargs) ∈ smbCommands req) (ha : s.dev.SmbGood code req)
    (hl : req.payload.length ≠ nargs + 1) : Gives op s (fun e => SmbDone s.dev e code req 3 [] ∧
      RegsKept s.dev e smbKeys ∧ e = { s.dev with regs := e.regs, mgt := e.mgt }) := by
  refine Gives.of_smb h ?_
  rw [Dev.smbRequest_badCount ha hl]
  exact ⟨Dev.smbDone_done req 3 [] (smbCommands_code_lt h) rfl,
    (RegsKept.refl _ _).smbDone code req 3 [] (List.Subset.refl _), rfl⟩

/-- ERRCLR clears what a W1C write of RAS_SUM by the PF clears (R981). -/
theorem smb_errclr (h : (op, code, nargs) ∈ smbCommands req)
    (ha : s.dev.SmbGood code req ∧ req.payload.length = nargs + 1) (hc : code = 5) : Gives op s (fun e =>
      SmbDone s.dev e code req 0 [] ∧ RegsKept s.dev e (R.RAS_SUM.key 0 :: smbKeys) ∧
      (s.dev.running = true → s.dev.lostWrite 0x150000 = false → s.dev.blkAnswers 0x150000 = true →
        s.dev.blockHeld 0x150000 = false → s.dev.isSet R.HIF_LINK_DL_UP = true →
        Gives (.w1cWrite .pf 0x150000 (u16 (req.payload.drop 1) 0)) s (fun f => e.rd R.RAS_SUM = f.rd R.RAS_SUM))) := by
  have hkept : RegsKept s.dev (s.dev.rasClear (u16 (req.payload.drop 1) 0)) (R.RAS_SUM.key 0 :: smbKeys) :=
    (RegsKept.refl _ _).wri _ (by simp)
  have hact : smbAct code (req.payload.drop 1) s.dev = (0, [], s.dev.rasClear (u16 (req.payload.drop 1) 0)) := by
    rw [hc]; rfl
  refine Gives.of_smbAct h ha hact rfl fun hd => ⟨hd, hkept.smbDone code req 0 [] (by simp), ?_⟩
  intro hr hl hb hh hu
  have hears : s.dev.hears .pf = true := by rw [Dev.hears, hr, hu]; rfl
  refine Gives.of_onDev (w1cWrite .pf 0x150000 (u16 (req.payload.drop 1) 0)) rfl ?_
  rw [w1cWrite_pf _ hears (by decide) (by decide +kernel), Dev.write32_pf _ hr hb hh hl, Dev.writeWord_RAS_SUM]
  exact Dev.rdi_smbDone_ne _ _ _ _ _ (f := R.RAS_SUM) (i := 0) (by decide)

/-- ALERT_MASK answers with the old mask and sets the new one (R985). -/
theorem smb_alertMask (h : (op, code, nargs) ∈ smbCommands req)
    (ha : s.dev.SmbGood code req ∧ req.payload.length = nargs + 1) (hc : code = 7) : Gives op s (fun e =>
      SmbDone s.dev e code req 0 (leBytes 2 (s.dev.rd R.MGT_ALERT_MASK)) ∧
      e.rd R.MGT_ALERT_MASK = 2 * bits (u16 (req.payload.drop 1) 0) 1 13 ∧
      RegsKept s.dev e (R.MGT_ALERT_MASK.key 0 :: smbKeys)) := by
  have hkept : RegsKept s.dev (s.dev.setAlertMask (u16 (req.payload.drop 1) 0)) (R.MGT_ALERT_MASK.key 0 :: smbKeys) :=
    (RegsKept.refl _ _).wri _ (by simp)
  have hact : smbAct code (req.payload.drop 1) s.dev =
      (0, leBytes 2 (s.dev.rd R.MGT_ALERT_MASK), s.dev.setAlertMask (u16 (req.payload.drop 1) 0)) := by
    rw [hc]; rfl
  refine Gives.of_smbAct h ha hact rfl fun hd => ⟨hd, ?_, hkept.smbDone code req 0 _ (by simp)⟩
  have hlt : bits (u16 (req.payload.drop 1) 0) 1 13 < 2 ^ 13 := Nat.mod_lt _ (Nat.two_pow_pos _)
  refine (Dev.rdi_smbDone_ne _ _ _ _ _ (by decide)).trans ((Dev.rdi_wri_same _ _ _ _).trans (Nat.mod_eq_of_lt ?_))
  simp only [R.MGT_ALERT_MASK]
  omega

/-- RESET_DEVICE needs its key, then an unsealed mode, and leaves the reset due (R982). -/
theorem smb_resetDevice (h : (op, code, nargs) ∈ smbCommands req)
    (ha : s.dev.SmbGood code req ∧ req.payload.length = nargs + 1) (hc : code = 0x10) : Gives op s (fun e =>
      RegsKept s.dev e smbKeys ∧
      (u8 (req.payload.drop 1) 0 ≠ 0xA5 → SmbDone s.dev e code req 3 [] ∧ e.mgt.resetDue = s.dev.mgt.resetDue) ∧
      (u8 (req.payload.drop 1) 0 = 0xA5 → s.dev.sealedMode = true →
        SmbDone s.dev e code req 2 [] ∧ e.mgt.resetDue = s.dev.mgt.resetDue) ∧
      (u8 (req.payload.drop 1) 0 = 0xA5 → s.dev.sealedMode = false →
        SmbDone s.dev e code req 0 [] ∧ e.mgt.resetDue = true)) := by
  by_cases hk : u8 (req.payload.drop 1) 0 = 0xA5
  case neg =>
    have hact : smbAct code (req.payload.drop 1) s.dev = (3, [], s.dev) := by rw [hc]; exact if_pos hk
    exact (Gives.of_smbReport h ha hact).imp fun e ⟨hdone, hkept, _, hdue⟩ =>
      ⟨hkept, fun _ => ⟨hdone, hdue⟩, fun hk' => absurd hk' hk, fun hk' => absurd hk' hk⟩
  case pos =>
    cases hm : s.dev.sealedMode with
    | true =>
      have hact : smbAct code (req.payload.drop 1) s.dev = (2, [], s.dev) := by
        rw [hc]; simp only [smbAct, hk, hm, ne_eq, not_true, if_false, if_true]
      exact (Gives.of_smbReport h ha hact).imp fun e ⟨hdone, hkept, _, hdue⟩ =>
        ⟨hkept, fun hn => absurd hk hn, fun _ _ => ⟨hdone, hdue⟩, fun _ hf => absurd hf (by decide)⟩
    | false =>
      have hact : smbAct code (req.payload.drop 1) s.dev =
          (0, [], { s.dev with mgt := { s.dev.mgt with resetDue := true } }) := by
        rw [hc]; simp only [smbAct, hk, hm, ne_eq, not_true, if_false, Bool.false_eq_true]
      have hkept : RegsKept s.dev { s.dev with mgt := { s.dev.mgt with resetDue := true } } smbKeys := fun _ _ => rfl
      exact Gives.of_smbAct h ha hact rfl fun hdone =>
        ⟨hkept.smbDone code req 0 [] (List.Subset.refl _), fun hn => absurd hk hn,
          fun _ hf => absurd hf Bool.false_ne_true, fun _ _ => ⟨hdone, rfl⟩⟩

/-- RAIL_RETRY of a rail whose fault is latched (R983). -/
theorem smb_railRetry (h : (op, code, nargs) ∈ smbCommands req)
    (ha : s.dev.SmbGood code req ∧ req.payload.length = nargs + 1) (hc : code = 0x11)
    (hr : u8 (req.payload.drop 1) 0 < 4) (hf : s.dev.rdi R.PWR_STATUS_RAIL_FAULT (u8 (req.payload.drop 1) 0) = 1) :
    Gives op s (fun e => SmbDone s.dev e code req (if s.dev.pw.seq = .falling then 1 else 0) [] ∧
      e.pw = (s.dev.railRetry (u8 (req.payload.drop 1) 0)).pw) := by
  have hact : smbAct code (req.payload.drop 1) s.dev =
      (if s.dev.pw.seq = .falling then 1 else 0, [], s.dev.railRetry (u8 (req.payload.drop 1) 0)) := by
    rw [hc]
    simp only [smbAct, Nat.not_le.mpr hr, Dev.isSeti_eq, hf, decide_true, Bool.not_true, Bool.false_eq_true, if_false]
  exact Gives.of_smbAct h ha hact (Dev.railRetry_beat _ _) fun hd => ⟨hd, Dev.smbDone_pw _ _ _ _ _⟩

end Given

/-! ### The other accesses of the interface -/

theorem alertResponse_quiet {d : Dev} (h : d.smbAwake = false ∨ d.rd R.MGT_STATUS_ALERT = 0) : alertResponse d = d := by
  refine if_neg ?_
  rcases h with h | h
  · simp [h]
  · simp [Dev.smbAlertN, show d.rdi R.MGT_STATUS_ALERT 0 = 0 from h]

/-- A read of the Alert Response Address is answered and releases SMB_ALERT_N (R986). -/
theorem alertResponse_answered {d : Dev} (hw : d.smbAwake = true) (ha : d.rd R.MGT_STATUS_ALERT = 1) :
    let e := alertResponse d
    e.rd R.MGT_STATUS_ALERT = 0 ∧ RegsKept d e [R.MGT_STATUS_ALERT.key 0] ∧
    e = { d with regs := e.regs, out := .smbus [0x4A] :: d.out } := by
  have he : alertResponse d = (d.emit (.smbus [0x4A])).wr R.MGT_STATUS_ALERT 0 :=
    if_pos (by simp [hw, Dev.smbAlertN, show d.rdi R.MGT_STATUS_ALERT 0 = 1 from ha])
  rw [he]
  exact ⟨Dev.rdi_wri_same _ _ _ _, (RegsKept.refl d _).of_regs rfl |>.wri _ (by simp), rfl⟩

theorem smbTimeout_off {d : Dev} (h : d.pw.vaux = false) : smbTimeout d = d := by simp [smbTimeout, h]

theorem smbTimeout_on {d : Dev} (h : d.pw.vaux = true) :
    smbTimeout d = (d.inc R.MGT_CNT1_TIMEOUT).rasEvent 12 0x16 noClient 0 := if_pos h

theorem Dev.replyBlock_cached {d : Dev} {r : SmbReply} (h : d.mgt.cached = some r) :
    d.replyBlock = [3 + r.data.length, r.status, u8 r.payload 0, r.code] ++ r.data := by simp [Dev.replyBlock, h]

/-- Settles O57: a request is judged in turn by whether the interface is awake, whether its code is acknowledged, its
PEC, whether it repeats the last one and its argument count; what is left goes to the command's own rule. -/
theorem smbusRequests : Obligations.SmbusRequests := by
  unfold Obligations.SmbusRequests
  intro s req op code nargs h d a acked good acts done keys
  have halert : exec .alertResponse s = .next { s with dev := alertResponse d } := rfl
  have htimeout : exec .smbusTimeout s = .next { s with dev := smbTimeout d } := rfl
  refine ⟨?asleep, ?refused, ?damaged, ?repeated, ?badCount, ?status, ?telemetry, ?sensors, ?noPage, ?errlog, ?errclr,
    ?identity, ?alertMask, ?resetDevice, ?noRail, ?noFault, ?railRetry, ?reply, ?block, ?quiet, ?alert, ?timeout, ?off⟩
  case asleep => intro hw; rw [exec_smbCommand h s, Dev.smbRequest_asleep hw]; rfl
  case refused => exact smb_refused h
  case damaged => exact smb_damaged h
  case repeated => exact smb_repeated h
  case badCount => exact smb_badCount h
  case status =>
    intro ha hc
    exact (Gives.of_smbReport h ha (by rw [hc]; rfl)).imp fun e ⟨hdone, hkept, hout, _⟩ => ⟨hdone, hkept, hout⟩
  case telemetry =>
    intro ha hc
    exact (Gives.of_smbReport h ha (by rw [hc]; rfl)).imp fun e ⟨hdone, hkept, hout, _⟩ => ⟨hdone, hkept, hout⟩
  case sensors =>
    intro ha hc hp
    have hact : smbAct code a d = (0, d.sensorPage (u8 a 0), d) := by rw [hc]; exact if_pos hp
    exact (Gives.of_smbReport h ha hact).imp fun e ⟨hdone, hkept, _⟩ => ⟨hdone, hkept⟩
  case noPage =>
    intro ha hc hp
    have hact : smbAct code a d = (3, [], d) := by rw [hc]; exact if_neg (Nat.not_lt.mpr hp)
    exact (Gives.of_smbReport h ha hact).imp fun e ⟨hdone, hkept, _⟩ => ⟨hdone, hkept⟩
  case errlog =>
    intro ha hc
    exact (Gives.of_smbReport h ha (by rw [hc]; rfl)).imp fun e ⟨hdone, hkept, _⟩ => ⟨hdone, hkept⟩
  case errclr => exact smb_errclr h
  case identity =>
    intro ha hc
    exact (Gives.of_smbReport h ha (by rw [hc]; rfl)).imp fun e ⟨hdone, hkept, _⟩ => ⟨hdone, hkept⟩
  case alertMask => exact smb_alertMask h
  case resetDevice => exact smb_resetDevice h
  case noRail =>
    intro ha hc hr
    have hact : smbAct code a d = (3, [], d) := by rw [hc]; exact if_pos hr
    exact (Gives.of_smbReport h ha hact).imp fun e ⟨hdone, hkept, _⟩ => ⟨hdone, hkept⟩
  case noFault =>
    intro ha hc hr hf
    have hact : smbAct code a d = (2, [], d) := by
      rw [hc]; simp only [smbAct, Nat.not_le.mpr hr, Dev.isSeti_eq, hf]; rfl
    exact (Gives.of_smbReport h ha hact).imp fun e ⟨hdone, hkept, _⟩ => ⟨hdone, hkept⟩
  case railRetry => exact smb_railRetry h
  case reply => rfl
  case block => exact fun r hr => Dev.replyBlock_cached hr
  case quiet => intro hq; rw [halert, alertResponse_quiet hq]
  case alert => exact fun hw ha => Gives.of_onDev alertResponse rfl (alertResponse_answered hw ha)
  case timeout =>
    intro hv
    refine Gives.of_onDev smbTimeout rfl ?_
    obtain ⟨hcount, hsum, hmgt, -, hkept, hbeat⟩ := d.smbFailure_spec (f := R.MGT_CNT1_TIMEOUT) (by decide)
    rw [smbTimeout_on hv]
    exact ⟨hcount, hsum, hmgt, hkept, hbeat⟩
  case off => intro hv; rw [htimeout, smbTimeout_off hv]

end Sys2Proof.Machine
end
